-- ==== Sys2Proof/Word.lean ====
section
/-! DEFINITION. The word types of the device (R6): bytes, 64-bit registers, and a finite map kept in key order. -/

namespace Sys2Proof

/-- One byte of memory. -/
abbrev Byte := BitVec 8

/-- One 64-bit register or address. -/
abbrev W64 := BitVec 64

/-- A map from numbers to values, kept as pairs in rising key order. A key not listed has the default value that
the reader names. -/
abbrev AMap (α : Type) := List (Nat × α)

end Sys2Proof
end

