-- ==== Sys2Proof/Syntax.lean ====
section
/-! DEFINITION. The steps of the device as data: operands (R73), modifiers (R93 to R104), the operands of events, and
one constructor of Instr for each row of the opcode table. -/

namespace Sys2Proof

/-- The vector TYPE codes 0 to 10 (R100, R205, R213). -/
inductive VType where
  | s8 | s16 | s32 | n8 | n16 | n32 | f32 | bf16 | f16 | f8a | f8b
  deriving DecidableEq, Repr

/-- The RND codes 0 to 6 (R100, R216). -/
inductive Rnd where
  | rne | rtz | rdn | rup | rna | rsr | dyn
  deriving DecidableEq, Repr

/-- REL codes 0 to 5 (R97). -/
inductive Rel where
  | eq | ne | lt | le | gt | ge
  deriving DecidableEq, Repr

/-- COMB codes 0 to 2 (R97). -/
inductive Comb where
  | set | and | or
  deriving DecidableEq, Repr

/-- Scalar access sizes (R98). -/
inductive Size where
  | b | h | w | d
  deriving DecidableEq, Repr

/-- SYNC codes 0 to 5 (R98, R169). -/
inductive Sync where
  | plain | waitf | take | put | fill | waite
  deriving DecidableEq, Repr

/-- The four address spaces, in code order (R164). -/
inductive Space where
  | sp | vlt | glb | spx
  deriving DecidableEq, Repr

/-- PLACE codes (R99, R313). -/
inductive Place where
  | auto | near | home
  deriving DecidableEq, Repr

/-- SCOPE codes (R101). -/
inductive Scope where
  | core | cluster | quad | device | fabric
  deriving DecidableEq, Repr

/-- FENCE KIND codes (R101). -/
inductive FKind where
  | acq | rel | acqrel | sc
  deriving DecidableEq, Repr

/-- Barrier SHAPE codes (R101). -/
inductive Shape where
  | row | col | quad | rowcol
  deriving DecidableEq, Repr

/-- FTYPE codes of float atomics (R99). -/
inductive FType where
  | f32 | bf16 | f16
  deriving DecidableEq, Repr

/-- BPK codes (R103, R209). -/
inductive Bpk where
  | l8 | l4 | l2 | l1
  deriving DecidableEq, Repr

/-- The assigned control registers (R82). -/
inductive CtlReg where
  | cyc | wall | ratio | toc | tow | dl (i : BitVec 2)
  | lcore | pcore | berth | graph | taskts
  | status | pfxv | pwidth | rmode | fpflags | fptrap | seed | quantum
  | viewV | viewT | viewA | tabexp | tcr0 | tcr1 | tlast
  | trapCause | trapPc | trapAddr | trapInfo | trapStream | accsat
  deriving DecidableEq, Repr

/-- An operand field (R73), with the literal parcels that a kind L operand takes (R71). -/
inductive Operand where
  | none
  | s (n : BitVec 6) | v (n : BitVec 8) | t (n : BitVec 5) | a (n : BitVec 3)
  | k (n : BitVec 3) | q (n : BitVec 4) | c (n : BitVec 3)
  | x (r : CtlReg) | i (imm : BitVec 12)
  | l32 (lit : BitVec 32) | l64 (lit : BitVec 64)
  | b (n : BitVec 10)
  deriving DecidableEq, Repr

/-- The guard field (R72). -/
structure Guard where
  neg : Bool := false
  prd : BitVec 3 := 0
  deriving DecidableEq, Repr

/-- The scheduling hints (R76). -/
structure Hint where
  gap : BitVec 4 := 0
  yld : Bool := false
  last : Bool := false
  deriving DecidableEq, Repr

/-- What every instruction word carries beside its opcode and modifier (R70). -/
structure Ops where
  g : Guard := {}
  h : Hint := {}
  d : Operand := .none
  a : Operand := .none
  b : Operand := .none
  deriving DecidableEq, Repr

/-- The timeout trio (R94). -/
structure Trio where
  tb : Bool := false
  tres : Bool := false
  pred : BitVec 3 := 0
  deriving DecidableEq, Repr

/-- MOD of PFX (R95). WIDTH 0 is no width. -/
structure PfxMod where
  ty : VType := .s8
  rnd : Rnd := .rne
  sat : Bool := false
  width : BitVec 5 := 0
  deriving DecidableEq, Repr

/-- MOD of DLSET (R96). -/
structure SlotMod where
  slot : BitVec 2 := 0
  base : Bool := false
  abs : Bool := false
  deriving DecidableEq, Repr

/-- MOD of DLTEST (R96). -/
structure TestMod where
  slot : BitVec 2 := 0
  pred : BitVec 3 := 0
  deriving DecidableEq, Repr

/-- W, SGN and SAT of the scalar group (R97). -/
structure AluMod where
  w : Bool := false
  sgn : Bool := false
  sat : Bool := false
  deriving DecidableEq, Repr

/-- POS and WIDM1 of BFX and BFI (R97). -/
structure BitMod where
  pos : BitVec 6 := 0
  widm1 : BitVec 6 := 0
  deriving DecidableEq, Repr

/-- SWID of SEXT and ZEXT (R97): 0, 1 or 2. -/
structure SwidMod where
  swid : BitVec 2 := 0
  deriving DecidableEq, Repr

/-- SCALE of LEA (R97). -/
structure ScaleMod where
  scale : BitVec 2 := 0
  deriving DecidableEq, Repr

/-- MOD of CMP and TST (R97). -/
structure CmpMod where
  rel : Rel := .eq
  sgn : Bool := false
  w : Bool := false
  comb : Comb := .set
  deriving DecidableEq, Repr

/-- MOD of the memory group, RST apart (R98). -/
structure MemMod where
  size : Size := .b
  sync : Sync := .plain
  trio : Trio := {}
  scale : BitVec 2 := 0
  sx : Bool := false
  deriving DecidableEq, Repr

/-- MOD of RST (R98). -/
structure RstMod where
  size : Size := .b
  sync : Sync := .plain
  trio : Trio := {}
  tab : Bool := false
  carry : BitVec 2 := 0
  deriving DecidableEq, Repr

/-- A lone PRED field (R98, R99, R101). -/
structure PredMod where
  pred : BitVec 3 := 0
  deriving DecidableEq, Repr

/-- MOD of the atomics (R99). SIZE is B where the instruction takes none. -/
structure AtomMod where
  size : Size := .b
  place : Place := .auto
  ret : Bool := false
  scope : Scope := .core
  ftype : FType := .f32
  sgn : Bool := false
  fp : Bool := false
  deriving DecidableEq, Repr

/-- MOD of FENCE (R101). -/
structure FenceMod where
  scope : Scope := .core
  kind : FKind := .acq
  eng : Bool := false
  deriving DecidableEq, Repr

/-- SHAPE alone (R101). -/
structure ShapeMod where
  shape : Shape := .row
  deriving DecidableEq, Repr

/-- SHAPE and the trio (R101). -/
structure ShapeTrio where
  shape : Shape := .row
  trio : Trio := {}
  deriving DecidableEq, Repr

/-- WANT and the trio (R101). -/
structure WantTrio where
  want : Bool := false
  trio : Trio := {}
  deriving DecidableEq, Repr

/-- MOD of the copies (R102). -/
structure CopyMod where
  src : Space := .sp
  dst : Space := .sp
  fill : Bool := false
  mc : Bool := false
  deriving DecidableEq, Repr

/-- MOD of the vector groups (R100). FUNC is the instruction's own field. -/
structure VecMod where
  ty : VType := .s8
  rnd : Rnd := .rne
  sat : Bool := false
  ty2 : VType := .s8
  func : BitVec 3 := 0
  deriving DecidableEq, Repr

/-- MOD of the products (R103). -/
structure MatMod where
  apl : BitVec 3 := 0
  asg : Bool := false
  bpk : Bpk := .l8
  bsg : Bool := false
  accf : Bool := false
  deriving DecidableEq, Repr

/-- Where a message is parked (R116). -/
inductive ParkAt where
  | device
  | berth (core : Nat) (berth : BitVec 2)
  deriving DecidableEq, Repr

/-- The operations of the atomics (R310 to R312). -/
inductive AtomOp where
  | add | min | max | and | or | xor | xchg | cas | fadd | redv
  deriving DecidableEq, Repr

/-- An atomic to be performed (R310 to R312). -/
structure Atom where
  /-- Operation (R310). -/
  op : AtomOp := .add
  /-- Element size (R309). -/
  e : Nat := 8
  /-- Operand (R310). -/
  x : W64 := 0
  /-- Second operand of ACAS (R310). -/
  y : W64 := 0
  /-- Bytes of AREDV (R312). -/
  vec : List Byte := []
  /-- SGN (R310). -/
  sgn : Bool := false
  /-- FP (R312). -/
  fp : Bool := false
  /-- FTYPE (R311). -/
  ft : FType := .f32
  deriving DecidableEq, Repr

/-- What a reply or report says (R355, R356). -/
inductive Reply where
  | data (bytes : List Byte)
  | stored
  | trap (code : Nat)
  | tablet (ans : Nat)
  | canceled
  deriving DecidableEq, Repr

/-- What a fabric packet asks for (R355 to R363). -/
inductive PktBody where
  /-- A remote load: operation, PASID, address, bytes, SYNC. -/
  | rld (op : Nat) (pasid : BitVec 20) (va : BitVec 48) (n : Nat) (sync : Sync)
  /-- An atomic at a peer's memory station (R313): operation, PASID, address, the atomic. -/
  | atom (op : Nat) (pasid : BitVec 20) (va : BitVec 48) (a : Atom)
  /-- A remote store: operation, PASID, address, bytes, SYNC, carried tablets, siding limit. -/
  | rst (op : Nat) (pasid : BitVec 20) (va : BitVec 48) (bytes : List Byte) (sync : Sync) (tabs : List (BitVec 32)) (exp : Nat)
  /-- A cumulative acknowledgement up to a sequence number (R349), with the operations of the sender's stores that were taken in
  and are not performed (R364). -/
  | ack (seq : BitVec 24) (open_ : List Nat)
  /-- The reply to a remote load, or the report of a remote store (R355, R374). -/
  | reply (op : Nat) (r : Reply)
  /-- A cancel of a waiting access (R356). -/
  | cancel (op : Nat)
  /-- A request to record a holder of a tablet (R360), and its answer: 0 landed, 1 recorded, 2 dead. -/
  | hold (tab : BitVec 32) (holder : Nat)
  | holdAns (tab : BitVec 32) (holder ans : Nat)
  /-- The tablet is cleared, its acknowledgement, and the tablet is dropped (R359). -/
  | clear (tab : BitVec 32)
  | clearAck (tab : BitVec 32)
  | drop (tab : BitVec 32)
  /-- A question about a tablet and its answer: 0 pending, 1 landed, 2 dead (R361, R363). -/
  | query (tab : BitVec 32)
  | queryAns (tab : BitVec 32) (ans : Nat)
  /-- A held store was discarded (R362). -/
  | expired (op : Nat) (tab : BitVec 32) (reason : Nat) (addr : W64)
  /-- The handshake that closes a context (R349). -/
  | close
  deriving DecidableEq, Repr

/-- A fabric packet (R344, R347, R349). -/
structure Pkt where
  src : Nat := 0
  dst : Nat := 0
  seq : BitVec 24 := 0
  /-- Which context of its source to its destination it belongs to (R349). -/
  ctx : Nat := 0
  stamp : Nat := 0
  hops : Nat := 0
  body : PktBody := .close
  deriving DecidableEq, Repr

/-- How a network request ended (R367): placed whole, with the bytes a READ brought, or failed with a detail. -/
inductive NetResult where
  | done (bytes : List Byte)
  | failed (detail : Nat)
  deriving DecidableEq, Repr

/-- One constructor per row of the opcode table. The first 177 are the words a stream issues; the others are the steps
of the device's engines, of the dispatcher and of the outside parties. -/
inductive Instr where
  | udf -- UDF (R90)
  | nop (o : Ops) -- NOP (R133)
  | br (o : Ops) -- BR (R134)
  | brx (o : Ops) -- BRX (R134)
  | call (o : Ops) -- CALL (R134)
  | ret (o : Ops) -- RET (R134)
  | brdec (o : Ops) -- BRDEC (R134)
  | steer (o : Ops) -- STEER (R135)
  | follow (o : Ops) -- FOLLOW (R135)
  | retire (o : Ops) -- RETIRE (R114)
  | finish (o : Ops) -- FINISH (R114)
  | realign (o : Ops) -- REALIGN (R137)
  | trap (o : Ops) -- TRAP (R138)
  | pfx (o : Ops) (m : PfxMod) -- PFX (R139)
  | launch (o : Ops) -- LAUNCH (R142)
  | waitc (o : Ops) -- WAITC (R144)
  | waitw (o : Ops) -- WAITW (R144)
  | rdts (o : Ops) -- RDTS (R144)
  | dlset (o : Ops) (m : SlotMod) -- DLSET (R144)
  | dltest (o : Ops) (m : TestMod) -- DLTEST (R144)
  | dlwait (o : Ops) (m : Trio) -- DLWAIT (R144)
  | add (o : Ops) (m : AluMod) -- ADD (R150)
  | sub (o : Ops) (m : AluMod) -- SUB (R150)
  | mul (o : Ops) (m : AluMod) -- MUL (R150)
  | mulh (o : Ops) (m : AluMod) -- MULH (R150)
  | div (o : Ops) (m : AluMod) -- DIV (R150)
  | rem (o : Ops) (m : AluMod) -- REM (R150)
  | and (o : Ops) (m : AluMod) -- AND (R150)
  | or (o : Ops) (m : AluMod) -- OR (R150)
  | xor (o : Ops) (m : AluMod) -- XOR (R150)
  | andn (o : Ops) (m : AluMod) -- ANDN (R150)
  | shl (o : Ops) (m : AluMod) -- SHL (R150)
  | shr (o : Ops) (m : AluMod) -- SHR (R150)
  | sar (o : Ops) (m : AluMod) -- SAR (R150)
  | rot (o : Ops) (m : AluMod) -- ROT (R150)
  | min (o : Ops) (m : AluMod) -- MIN (R150)
  | max (o : Ops) (m : AluMod) -- MAX (R150)
  | clz (o : Ops) (m : AluMod) -- CLZ (R152)
  | ctz (o : Ops) (m : AluMod) -- CTZ (R152)
  | popc (o : Ops) (m : AluMod) -- POPC (R152)
  | bfx (o : Ops) (m : BitMod) -- BFX (R152)
  | bfi (o : Ops) (m : BitMod) -- BFI (R152)
  | sext (o : Ops) (m : SwidMod) -- SEXT (R152)
  | zext (o : Ops) (m : SwidMod) -- ZEXT (R152)
  | mov (o : Ops) -- MOV (R152)
  | sel (o : Ops) -- SEL (R152)
  | abs (o : Ops) (m : AluMod) -- ABS (R152)
  | lea (o : Ops) (m : ScaleMod) -- LEA (R152)
  | brev (o : Ops) (m : AluMod) -- BREV (R152)
  | bswap (o : Ops) (m : AluMod) -- BSWAP (R152)
  | mfx (o : Ops) -- MFX (R153)
  | mtx (o : Ops) -- MTX (R154)
  | cmp (o : Ops) (m : CmpMod) -- CMP (R158)
  | tst (o : Ops) (m : CmpMod) -- TST (R158)
  | pand (o : Ops) -- PAND (R158)
  | por (o : Ops) -- POR (R158)
  | pxor (o : Ops) -- PXOR (R158)
  | pnot (o : Ops) -- PNOT (R158)
  | pmov (o : Ops) -- PMOV (R158)
  | ptos (o : Ops) -- PTOS (R158)
  | lds (o : Ops) (m : MemMod) -- LDS (R186)
  | sts (o : Ops) (m : MemMod) -- STS (R186)
  | ldv (o : Ops) (m : MemMod) -- LDV (R186)
  | stv (o : Ops) (m : MemMod) -- STV (R186)
  | vlds (o : Ops) (m : MemMod) -- VLDS (R186)
  | vsts (o : Ops) (m : MemMod) -- VSTS (R186)
  | vldv (o : Ops) (m : MemMod) -- VLDV (R186)
  | vstv (o : Ops) (m : MemMod) -- VSTV (R186)
  | ldx (o : Ops) (m : MemMod) -- LDX (R186)
  | stx (o : Ops) (m : MemMod) -- STX (R186)
  | feget (o : Ops) -- FEGET (R187)
  | feset (o : Ops) -- FESET (R187)
  | vgath (o : Ops) (m : MemMod) -- VGATH (R188)
  | vscat (o : Ops) (m : MemMod) -- VSCAT (R188)
  | ldg (o : Ops) (m : MemMod) -- LDG (R186)
  | stg (o : Ops) (m : MemMod) -- STG (R186)
  | vldg (o : Ops) (m : MemMod) -- VLDG (R186)
  | vstg (o : Ops) (m : MemMod) -- VSTG (R186)
  | rld (o : Ops) (m : MemMod) -- RLD (R355)
  | rst (o : Ops) (m : RstMod) -- RST (R355)
  | tabwait (o : Ops) (m : Trio) -- TABWAIT (R363)
  | tabtest (o : Ops) (m : PredMod) -- TABTEST (R363)
  | pref (o : Ops) -- PREF (R189)
  | aadd (o : Ops) (m : AtomMod) -- AADD (R310)
  | amin (o : Ops) (m : AtomMod) -- AMIN (R310)
  | amax (o : Ops) (m : AtomMod) -- AMAX (R310)
  | aand (o : Ops) (m : AtomMod) -- AAND (R310)
  | aor (o : Ops) (m : AtomMod) -- AOR (R310)
  | axor (o : Ops) (m : AtomMod) -- AXOR (R310)
  | axchg (o : Ops) (m : AtomMod) -- AXCHG (R310)
  | acas (o : Ops) (m : AtomMod) -- ACAS (R310)
  | afadd (o : Ops) (m : AtomMod) -- AFADD (R311)
  | aredv (o : Ops) (m : AtomMod) -- AREDV (R312)
  | areg (o : Ops) -- AREG (R319)
  | acommit (o : Ops) (m : PredMod) -- ACOMMIT (R319)
  | aabort (o : Ops) -- AABORT (R320)
  | tspawn (o : Ops) -- TSPAWN (R328)
  | fence (o : Ops) (m : FenceMod) -- FENCE (R294)
  | hbar (o : Ops) (m : ShapeTrio) -- HBAR (R300)
  | hbara (o : Ops) (m : ShapeMod) -- HBARA (R300)
  | hbarw (o : Ops) (m : ShapeTrio) -- HBARW (R300)
  | abarm (o : Ops) -- ABARM (R301)
  | abwait (o : Ops) (m : Trio) -- ABWAIT (R301)
  | abtest (o : Ops) (m : PredMod) -- ABTEST (R301)
  | fewait (o : Ops) (m : WantTrio) -- FEWAIT (R302)
  | wmark (o : Ops) -- WMARK (R304)
  | cpy (o : Ops) (m : CopyMod) -- CPY (R193)
  | cpy2 (o : Ops) (m : CopyMod) -- CPY2 (R197)
  | tmaps (o : Ops) -- TMAPS (R200)
  | cpyt (o : Ops) (m : CopyMod) -- CPYT (R201)
  | send (o : Ops) (m : Trio) -- SEND (R204)
  | sends (o : Ops) (m : Trio) -- SENDS (R204)
  | mcast (o : Ops) (m : CopyMod) -- MCAST (R198)
  | netpost (o : Ops) -- NETPOST (R369)
  | netpoll (o : Ops) (m : Trio) -- NETPOLL (R369)
  | pce (o : Ops) (m : CopyMod) -- PCE (R199)
  | vadd (o : Ops) (m : VecMod) -- VADD (R236)
  | vsub (o : Ops) (m : VecMod) -- VSUB (R236)
  | vmul (o : Ops) (m : VecMod) -- VMUL (R236)
  | vfma (o : Ops) (m : VecMod) -- VFMA (R236)
  | vmin (o : Ops) (m : VecMod) -- VMIN (R236)
  | vmax (o : Ops) (m : VecMod) -- VMAX (R236)
  | vabs (o : Ops) (m : VecMod) -- VABS (R236)
  | vneg (o : Ops) (m : VecMod) -- VNEG (R236)
  | vand (o : Ops) (m : VecMod) -- VAND (R236)
  | vor (o : Ops) (m : VecMod) -- VOR (R236)
  | vxor (o : Ops) (m : VecMod) -- VXOR (R236)
  | vshl (o : Ops) (m : VecMod) -- VSHL (R236)
  | vshr (o : Ops) (m : VecMod) -- VSHR (R236)
  | vcmp (o : Ops) (m : VecMod) -- VCMP (R236)
  | vsel (o : Ops) (m : VecMod) -- VSEL (R236)
  | vdot4 (o : Ops) (m : VecMod) -- VDOT4 (R237)
  | vrcp (o : Ops) (m : VecMod) -- VRCP (R239)
  | vrsq (o : Ops) (m : VecMod) -- VRSQ (R239)
  | vexp2 (o : Ops) (m : VecMod) -- VEXP2 (R239)
  | vlog2 (o : Ops) (m : VecMod) -- VLOG2 (R239)
  | vscale (o : Ops) (m : VecMod) -- VSCALE (R240)
  | vredadd (o : Ops) (m : VecMod) -- VREDADD (R241)
  | vredmax (o : Ops) (m : VecMod) -- VREDMAX (R241)
  | vredmin (o : Ops) (m : VecMod) -- VREDMIN (R241)
  | vargmax (o : Ops) (m : VecMod) -- VARGMAX (R242)
  | vargmin (o : Ops) (m : VecMod) -- VARGMIN (R242)
  | vperm (o : Ops) (m : VecMod) -- VPERM (R243)
  | vbcast (o : Ops) (m : VecMod) -- VBCAST (R243)
  | vrot (o : Ops) (m : VecMod) -- VROT (R243)
  | viota (o : Ops) (m : VecMod) -- VIOTA (R243)
  | vmovsGet (o : Ops) (m : VecMod) -- VMOVS_GET (R243)
  | vmovsPut (o : Ops) (m : VecMod) -- VMOVS_PUT (R243)
  | vclamp (o : Ops) (m : VecMod) -- VCLAMP (R243)
  | vcvt (o : Ops) (m : VecMod) -- VCVT (R246)
  | vquant (o : Ops) (m : VecMod) -- VQUANT (R247)
  | vdeq (o : Ops) (m : VecMod) -- VDEQ (R247)
  | vrand (o : Ops) -- VRAND (R248)
  | vpln (o : Ops) (m : VecMod) -- VPLN (R251)
  | vunpln (o : Ops) (m : VecMod) -- VUNPLN (R251)
  | padd (o : Ops) (m : VecMod) -- PADD (R251)
  | psub (o : Ops) (m : VecMod) -- PSUB (R251)
  | pmul (o : Ops) (m : VecMod) -- PMUL (R251)
  | pcmp (o : Ops) (m : VecMod) -- PCMP (R251)
  | gang (o : Ops) -- GANG (R260)
  | mma (o : Ops) (m : MatMod) -- MMA (R270)
  | mmaz (o : Ops) (m : MatMod) -- MMAZ (R270)
  | mmas (o : Ops) (m : MatMod) -- MMAS (R270)
  | mzero (o : Ops) -- MZERO (R271)
  | mdrain (o : Ops) -- MDRAIN (R271)
  | mwait (o : Ops) -- MWAIT (R272)
  | sclsend (o : Ops) -- SCLSEND (R275)
  | syscall (o : Ops) -- SYSCALL (R388)
  | tret (o : Ops) -- TRET (R389)
  | ctxsv (o : Ops) -- CTXSV (R390)
  | ctxld (o : Ops) -- CTXLD (R390)
  | gauge (o : Ops) -- GAUGE (R391)
  | gread (o : Ops) -- GREAD (R392)
  | tmark (o : Ops) -- TMARK (R393)
  | idle (o : Ops) -- IDLE (R394)
  | faultrpt (o : Ops) -- FAULTRPT (R395)
  | supstep (o : Ops) -- SUPSTEP (R396)
  | doorbell (ctx : Nat) -- DOORBELL (R42)
  | rackLaunchPacket (endpoint : Nat) (packet : List Byte) -- RACK_LAUNCH_PACKET (R41)
  | dispatcherTakePacket -- DISPATCHER_TAKE_PACKET (R44)
  | prereqRecheck (gid : Nat) -- PREREQ_RECHECK (R45)
  | bindTask (gid task : Nat) -- BIND_TASK (R53)
  | loadingDone (core : Nat) (berth : BitVec 2) -- LOADING_DONE (R50)
  | stopBerth (core : Nat) (berth : BitVec 2) -- STOP_BERTH (R50)
  | berthFree (core : Nat) (berth : BitVec 2) -- BERTH_FREE (R50)
  | priorityAging (gid task : Nat) -- PRIORITY_AGING (R46)
  | berthPriorityRaise (core : Nat) (berth : BitVec 2) -- BERTH_PRIORITY_RAISE (R47)
  | preempt (gid task : Nat) -- PREEMPT (R48)
  | migrate (core : Nat) (berth : BitVec 2) -- MIGRATE (R60)
  | contextSave (core : Nat) (berth : BitVec 2) -- CONTEXT_SAVE (R400)
  | restore (gid task : Nat) -- RESTORE (R401)
  | messageForward (k : Nat) -- MESSAGE_FORWARD (R55)
  | graphComplete (gid : Nat) -- GRAPH_COMPLETE (R65)
  | completionRecord (gid : Nat) -- COMPLETION_RECORD (R411)
  | fetchLineServed (cluster : Nat) -- FETCH_LINE_SERVED (R68)
  | activationStart (core : Nat) -- ACTIVATION_START (R112)
  | activationEnd (core : Nat) -- ACTIVATION_END (R115)
  | messageArrival (k : Nat) -- MESSAGE_ARRIVAL (R204)
  | parkDelivery (at_ : ParkAt) (k : Nat) -- PARK_DELIVERY (R116)
  | parkDiscard (at_ : ParkAt) (k : Nat) -- PARK_DISCARD (R117)
  | windowMarkArrival (k : Nat) -- WINDOW_MARK_ARRIVAL (R304)
  | handlerRewrite (core : Nat) (berth : BitVec 2) (idx : BitVec 4) (entry : W64) -- HANDLER_REWRITE (R118)
  | queueDeadlock (core : Nat) -- QUEUE_DEADLOCK (R122)
  | waitConditionMet (core : Nat) (pilot : Bool) -- WAIT_CONDITION_MET (R129)
  | timedWaitTimeout (core : Nat) (pilot : Bool) -- TIMED_WAIT_TIMEOUT (R129)
  | waitCountExpiry (core : Nat) (pilot : Bool) -- WAIT_COUNT_EXPIRY (R144)
  | realignRelease (core : Nat) (pilot : Bool) -- REALIGN_RELEASE (R137)
  | idleWake (core : Nat) -- IDLE_WAKE (R394)
  | deadlineFire (core : Nat) (slot : BitVec 2) -- DEADLINE_FIRE (R131)
  | ratioWindowComplete (cluster : Nat) -- RATIO_WINDOW_COMPLETE (R125)
  | gearStopStart (pair : Nat) -- GEAR_STOP_START (R126)
  | gearStopEnd (pair : Nat) -- GEAR_STOP_END (R126)
  | gearStop (pair : Nat) -- GEAR_STOP (R126)
  | substationTick (currents : List (Nat × Nat × Nat)) (railMV : Nat) -- SUBSTATION_TICK (R58)
  | layerImbalance (pair : Nat) -- LAYER_IMBALANCE (R57)
  | thermalRequestStep -- THERMAL_REQUEST_STEP (R61)
  | thermalTrip (cluster : Nat) -- THERMAL_TRIP (R61)
  | slackReading (tenths : Int) -- SLACK_READING (R62)
  | supplyOutOfBand -- SUPPLY_OUT_OF_BAND (R127)
  | brownoutReset -- BROWNOUT_RESET (R407)
  | asyncEventArrival (k : Nat) -- ASYNC_EVENT_ARRIVAL (R385)
  | asyncEventTaken (core : Nat) -- ASYNC_EVENT_TAKEN (R381)
  | storeLanding (k : Nat) -- STORE_LANDING (R186)
  | go (station : Nat) -- GO (R179)
  | all -- ALL (R179)
  | igo (station : Nat) -- IGO (R179)
  | invalidationDone -- INVALIDATION_DONE (R179)
  | chunkLanding (copy chunk : Nat) -- CHUNK_LANDING (R194)
  | copyFaultParked (copy chunk : Nat) -- COPY_FAULT_PARKED (R195)
  | copyFailed (copy chunk : Nat) -- COPY_FAILED (R195)
  | vectorComplete (core : Nat) -- VECTOR_COMPLETE (R233)
  | matrixProductStart (core : Nat) -- MATRIX_PRODUCT_START (R270)
  | matrixComplete (core : Nat) -- MATRIX_COMPLETE (R273)
  | gangFormed (core : Nat) -- GANG_FORMED (R260)
  | gangJoinTimeout (core : Nat) -- GANG_JOIN_TIMEOUT (R260)
  | gangProductStart (core : Nat) -- GANG_PRODUCT_START (R262)
  | gangTimeout (core : Nat) -- GANG_TIMEOUT (R263)
  | scaleDelivery (core k : Nat) -- SCALE_DELIVERY (R275)
  | scaleMissing (core : Nat) -- SCALE_MISSING (R276)
  | hbarPhaseComplete (core : Nat) (berth : BitVec 2) (shape : Shape) -- HBAR_PHASE_COMPLETE (R298)
  | atomicPerform (k : Nat) -- ATOMIC_PERFORM (R313)
  | predictorQuiet (core line : Nat) -- PREDICTOR_QUIET (R313)
  | commit (core : Nat) -- COMMIT (R325)
  | heldMessageSend (core : Nat) -- HELD_MESSAGE_SEND (R325)
  | regionTimeout (core : Nat) -- REGION_TIMEOUT (R326)
  | irrevocableRestart (core : Nat) -- IRREVOCABLE_RESTART (R327)
  | orderedTaskStart (gid spawn core : Nat) (berth : BitVec 2) -- ORDERED_TASK_START (R329)
  | orderedTaskCommit (gid : Nat) -- ORDERED_TASK_COMMIT (R330)
  | laneFailure (port lanes : Nat) -- LANE_FAILURE (R345)
  | linkRetrained (port : Nat) -- LINK_RETRAINED (R345)
  | linkDown (port : Nat) -- LINK_DOWN (R345)
  | flitCheckFail (port : Nat) -- FLIT_CHECK_FAIL (R344)
  | maxw (port : Nat) (value : BitVec 2) -- MAXW (R346)
  | plannedWidthChange (port : Nat) -- PLANNED_WIDTH_CHANGE (R346)
  | packetForward (port : Nat) (p : Pkt) -- PACKET_FORWARD (R347)
  | packetReceive (p : Pkt) -- PACKET_RECEIVE (R349)
  | ackReceive (dev : Nat) (seq : BitVec 24) -- ACK_RECEIVE (R349)
  | retransmitTimer (dev : Nat) (seq : BitVec 24) -- RETRANSMIT_TIMER (R349)
  | contextClose (dev : Nat) -- CONTEXT_CLOSE (R349)
  | remoteOutcomeUnknown (dev : Nat) -- REMOTE_OUTCOME_UNKNOWN (R351)
  | reachabilityProbe (dev : Nat) -- REACHABILITY_PROBE (R351)
  | remoteReply (op : Nat) (r : Reply) -- REMOTE_REPLY (R355)
  | retryListTimeout (station k : Nat) -- RETRY_LIST_TIMEOUT (R356)
  | cancel (src op : Nat) -- CANCEL (R356)
  | hold (src : Nat) (tab : BitVec 32) -- HOLD (R360): src is the asking device plus 256 times the device to record
  | clear (tab : BitVec 32) -- CLEAR (R361)
  | clearAck (src idx : Nat) -- CLEAR_ACK (R359)
  | drop (tab : BitVec 32) -- DROP (R362)
  | query (src : Nat) (tab : BitVec 32) -- QUERY (R361)
  | sidingExpiry (k : Nat) -- SIDING_EXPIRY (R362)
  | expired (op : Nat) (tab : BitVec 32) (holder reason : Nat) (addr : W64) -- EXPIRED (R362)
  | deadEntryFree (idx : Nat) -- DEAD_ENTRY_FREE (R359)
  | tabletRackFull (core : Nat) (pilot : Bool) -- TABLET_RACK_FULL (R359)
  | workRequestComplete (k : Nat) (r : NetResult) -- WORK_REQUEST_COMPLETE (R367)
  | windowPlacement (win : Nat) (key : BitVec 32) (ofs : Nat) (bytes : List Byte) -- WINDOW_PLACEMENT (R367)
  | tableRefreshEntry -- TABLE_REFRESH_ENTRY (R366)
  | tableRefreshAll -- TABLE_REFRESH_ALL (R366)
  | tableRefreshDone -- TABLE_REFRESH_DONE (R366)
  | cxlMemWrite (lpddr : Bool) (addr : Nat) (bytes : List Byte) -- CXL_MEM_WRITE (R371)
  | cxlMemRead (lpddr : Bool) (addr len : Nat) -- CXL_MEM_READ (R371)
  | getparam -- GETPARAM (R420)
  | setparam -- SETPARAM (R420)
  | dstop -- DSTOP (R419)
  | dsave -- DSAVE (R419)
  | dgo -- DGO (R419)
  | rackallow -- RACKALLOW (R420)
  | reset -- RESET (R420)
  | fwload -- FWLOAD (R420)
  | measure -- MEASURE (R420)
  | powerOnReset -- POWER_ON_RESET (R407)
  | cxlHotReset -- CXL_HOT_RESET (R407)
  | cxlFlr -- CXL_FLR (R407)
  | watchdog -- WATCHDOG (R424)
  | dispatcherReport -- DISPATCHER_REPORT (R424)
  | fatalErrorReset (code : Nat) -- FATAL_ERROR_RESET (R407)
  | bootPhaseAdvance -- BOOT_PHASE_ADVANCE (R424)
  | getVersion (req : List Byte) -- GET_VERSION (R426)
  | getCapabilities (req : List Byte) -- GET_CAPABILITIES (R426)
  | negotiateAlgorithms (req : List Byte) -- NEGOTIATE_ALGORITHMS (R426)
  | getDigests (req : List Byte) -- GET_DIGESTS (R426)
  | getCertificate (req : List Byte) -- GET_CERTIFICATE (R426)
  | challenge (req : List Byte) -- CHALLENGE (R426)
  | getMeasurements (req : List Byte) -- GET_MEASUREMENTS (R426)
  | telemetryRefresh (temps : List (Nat × Int)) -- TELEMETRY_REFRESH (R423)
  | gaugeSample (core : Option Nat) (idx : Nat) (value : Nat) -- GAUGE_SAMPLE (R416)
  | sampleMark (core : Nat) (pilot : Bool) -- SAMPLE_MARK (R417)
  | sampleRecord (core : Nat) (pilot : Bool) (times : List Nat) (flags : BitVec 8) -- SAMPLE_RECORD (R417)
  | registerWrite (bar offset size : Nat) (value : W64) -- REGISTER_WRITE (R6)
  | loadDataWritten (core : Nat) (pilot : Bool) -- LOAD_DATA_WRITTEN (R186)
  | lastSequenceExpiry (dev : Nat) -- LAST_SEQUENCE_EXPIRY (R349)
  | peerRead (win : Nat) (key : BitVec 32) (ofs len : Nat) -- PEER_READ (R366)
  deriving DecidableEq, Repr

end Sys2Proof
end

