-- ==== Sys2Proof/Decode.lean ====
section
/-! DEFINITION. The opcode map and the fate of every encoding (chapter 4 of the spec): the words of instructions and
what they decode to, with the order of the checks of R106, and the encoder. -/

namespace Sys2Proof

/-- The assigned values of OPC but UDF (R89). -/
inductive Opc where
  | nop | br | brx | call | ret | brdec | steer | follow | retire | finish | realign | trap
  | pfx | launch | waitc | waitw | rdts | dlset | dltest | dlwait | add | sub | mul | mulh
  | div | rem | and | or | xor | andn | shl | shr | sar | rot | min | max
  | clz | ctz | popc | bfx | bfi | sext | zext | mov | sel | abs | lea | brev
  | bswap | mfx | mtx | cmp | tst | pand | por | pxor | pnot | pmov | ptos | lds
  | sts | ldv | stv | vlds | vsts | vldv | vstv | ldx | stx | feget | feset | vgath
  | vscat | ldg | stg | vldg | vstg | rld | rst | tabwait | tabtest | pref | aadd | amin
  | amax | aand | aor | axor | axchg | acas | afadd | aredv | areg | acommit | aabort | tspawn
  | fence | hbar | hbara | hbarw | abarm | abwait | abtest | fewait | wmark | cpy | cpy2 | tmaps
  | cpyt | send | sends | mcast | netpost | netpoll | pce | vadd | vsub | vmul | vfma | vmin
  | vmax | vabs | vneg | vand | vor | vxor | vshl | vshr | vcmp | vsel | vdot4 | vrcp
  | vrsq | vexp2 | vlog2 | vscale | vredadd | vredmax | vredmin | vargmax | vargmin | vperm | vbcast | vrot
  | viota | vmovs | vclamp | vcvt | vquant | vpln | vunpln | padd | psub | pmul | pcmp | vrand
  | vdeq | gang | mma | mmaz | mmas | mzero | mdrain | mwait | sclsend | syscall | tret | ctxsv
  | ctxld | gauge | gread | tmark | idle | faultrpt | supstep
  deriving DecidableEq, Repr

/-- The slot classes of R105 and the further marks of the instruction tables. -/
inductive Cls where
  | no | nop | sd | ss | kd | ks | xr | vd | vs | ts | ac | ab | st | sOnly | sPair | vOnly | sRead | base | bOnly
  deriving DecidableEq, Repr

/-- The MOD layouts of R95 to R104. -/
inductive ModForm where
  | none | pfx | slot | test | trio | alu | bit | swid | scale | cmp | mem | rst | pred | atom | fence | shape
  | shapeTrio | wantTrio | copy | vec | mat
  deriving DecidableEq, Repr

/-- A MOD field read in its layout. -/
inductive ModVal where
  | none

  | pfx (m : PfxMod)
  | slot (m : SlotMod)
  | test (m : TestMod)
  | trio (m : Trio)
  | alu (m : AluMod)
  | bit (m : BitMod)
  | swid (m : SwidMod)
  | scale (m : ScaleMod)
  | cmp (m : CmpMod)
  | mem (m : MemMod)
  | rst (m : RstMod)
  | pred (m : PredMod)
  | atom (m : AtomMod)
  | fence (m : FenceMod)
  | shape (m : ShapeMod)
  | shapeTrio (m : ShapeTrio)
  | wantTrio (m : WantTrio)
  | copy (m : CopyMod)
  | vec (m : VecMod)
  | mat (m : MatMod)
  deriving DecidableEq, Repr

/-- Why a word is refused (R106): the code and FIELD follow in DErr.code and DErr.field. -/
inductive DErr where
  | opcode
  | encoding (field : Nat)
  | operand (field : Nat)
  | short
  deriving DecidableEq, Repr

/-- The map of R89, one row of sixteen for each high nibble; none: unassigned, or UDF. -/
def opcRow0 : List (Option Opc) :=
  [none, some .nop, some .br, some .brx, some .call, some .ret, some .brdec, some .steer, some .follow, some .retire, some .finish, some .realign, some .trap, some .pfx, some .launch, none]
def opcRow1 : List (Option Opc) :=
  [some .waitc, some .waitw, some .rdts, some .dlset, some .dltest, some .dlwait, none, none, none, none, none, none, none, none, none, none]
def opcRow2 : List (Option Opc) :=
  [some .add, some .sub, some .mul, some .mulh, some .div, some .rem, some .and, some .or, some .xor, some .andn, some .shl, some .shr, some .sar, some .rot, some .min, some .max]
def opcRow3 : List (Option Opc) :=
  [some .clz, some .ctz, some .popc, some .bfx, some .bfi, some .sext, some .zext, some .mov, some .sel, some .abs, some .lea, some .brev, some .bswap, some .mfx, some .mtx, none]
def opcRow4 : List (Option Opc) :=
  [some .cmp, some .tst, some .pand, some .por, some .pxor, some .pnot, some .pmov, some .ptos, none, none, none, none, none, none, none, none]
def opcRow5 : List (Option Opc) :=
  [some .lds, some .sts, some .ldv, some .stv, some .vlds, some .vsts, some .vldv, some .vstv, some .ldx, some .stx, some .feget, some .feset, some .vgath, some .vscat, none, none]
def opcRow6 : List (Option Opc) :=
  [some .ldg, some .stg, some .vldg, some .vstg, some .rld, some .rst, some .tabwait, some .tabtest, some .pref, none, none, none, none, none, none, none]
def opcRow7 : List (Option Opc) :=
  [some .aadd, some .amin, some .amax, some .aand, some .aor, some .axor, some .axchg, some .acas, some .afadd, some .aredv, some .areg, some .acommit, some .aabort, some .tspawn, none, none]
def opcRow8 : List (Option Opc) :=
  [some .fence, some .hbar, some .hbara, some .hbarw, some .abarm, some .abwait, some .abtest, some .fewait, some .wmark, none, none, none, none, none, none, none]
def opcRow9 : List (Option Opc) :=
  [some .cpy, some .cpy2, some .tmaps, some .cpyt, some .send, some .sends, some .mcast, some .netpost, some .netpoll, some .pce, none, none, none, none, none, none]
def opcRowA : List (Option Opc) :=
  [some .vadd, some .vsub, some .vmul, some .vfma, some .vmin, some .vmax, some .vabs, some .vneg, some .vand, some .vor, some .vxor, some .vshl, some .vshr, some .vcmp, some .vsel, some .vdot4]
def opcRowB : List (Option Opc) :=
  [some .vrcp, some .vrsq, some .vexp2, some .vlog2, some .vscale, some .vredadd, some .vredmax, some .vredmin, some .vargmax, some .vargmin, some .vperm, some .vbcast, some .vrot, some .viota, some .vmovs, some .vclamp]
def opcRowC : List (Option Opc) :=
  [some .vcvt, some .vquant, some .vpln, some .vunpln, some .padd, some .psub, some .pmul, some .pcmp, some .vrand, some .vdeq, none, none, none, none, none, none]
def opcRowD : List (Option Opc) :=
  [some .gang, some .mma, some .mmaz, some .mmas, some .mzero, some .mdrain, some .mwait, some .sclsend, none, none, none, none, none, none, none, none]
def opcRowE : List (Option Opc) :=
  [some .syscall, some .tret, some .ctxsv, some .ctxld, some .gauge, some .gread, some .tmark, some .idle, some .faultrpt, some .supstep, none, none, none, none, none, none]
def opcRowF : List (Option Opc) :=
  [none, none, none, none, none, none, none, none, none, none, none, none, none, none, none, none]

/-- The opcode of an OPC value (R89, R90). -/
def opcOf (c : Nat) : Option Opc :=
  ((opcRow0 ++ opcRow1 ++ opcRow2 ++ opcRow3 ++ opcRow4 ++ opcRow5 ++ opcRow6 ++ opcRow7 ++ opcRow8 ++ opcRow9
    ++ opcRowA ++ opcRowB ++ opcRowC ++ opcRowD ++ opcRowE ++ opcRowF)[c]?).getD none

/-- The OPC value of an opcode (R89). -/
def opcCode : Opc → BitVec 8
  | .nop => 0x01
  | .br => 0x02
  | .brx => 0x03
  | .call => 0x04
  | .ret => 0x05
  | .brdec => 0x06
  | .steer => 0x07
  | .follow => 0x08
  | .retire => 0x09
  | .finish => 0x0A
  | .realign => 0x0B
  | .trap => 0x0C
  | .pfx => 0x0D
  | .launch => 0x0E
  | .waitc => 0x10
  | .waitw => 0x11
  | .rdts => 0x12
  | .dlset => 0x13
  | .dltest => 0x14
  | .dlwait => 0x15
  | .add => 0x20
  | .sub => 0x21
  | .mul => 0x22
  | .mulh => 0x23
  | .div => 0x24
  | .rem => 0x25
  | .and => 0x26
  | .or => 0x27
  | .xor => 0x28
  | .andn => 0x29
  | .shl => 0x2A
  | .shr => 0x2B
  | .sar => 0x2C
  | .rot => 0x2D
  | .min => 0x2E
  | .max => 0x2F
  | .clz => 0x30
  | .ctz => 0x31
  | .popc => 0x32
  | .bfx => 0x33
  | .bfi => 0x34
  | .sext => 0x35
  | .zext => 0x36
  | .mov => 0x37
  | .sel => 0x38
  | .abs => 0x39
  | .lea => 0x3A
  | .brev => 0x3B
  | .bswap => 0x3C
  | .mfx => 0x3D
  | .mtx => 0x3E
  | .cmp => 0x40
  | .tst => 0x41
  | .pand => 0x42
  | .por => 0x43
  | .pxor => 0x44
  | .pnot => 0x45
  | .pmov => 0x46
  | .ptos => 0x47
  | .lds => 0x50
  | .sts => 0x51
  | .ldv => 0x52
  | .stv => 0x53
  | .vlds => 0x54
  | .vsts => 0x55
  | .vldv => 0x56
  | .vstv => 0x57
  | .ldx => 0x58
  | .stx => 0x59
  | .feget => 0x5A
  | .feset => 0x5B
  | .vgath => 0x5C
  | .vscat => 0x5D
  | .ldg => 0x60
  | .stg => 0x61
  | .vldg => 0x62
  | .vstg => 0x63
  | .rld => 0x64
  | .rst => 0x65
  | .tabwait => 0x66
  | .tabtest => 0x67
  | .pref => 0x68
  | .aadd => 0x70
  | .amin => 0x71
  | .amax => 0x72
  | .aand => 0x73
  | .aor => 0x74
  | .axor => 0x75
  | .axchg => 0x76
  | .acas => 0x77
  | .afadd => 0x78
  | .aredv => 0x79
  | .areg => 0x7A
  | .acommit => 0x7B
  | .aabort => 0x7C
  | .tspawn => 0x7D
  | .fence => 0x80
  | .hbar => 0x81
  | .hbara => 0x82
  | .hbarw => 0x83
  | .abarm => 0x84
  | .abwait => 0x85
  | .abtest => 0x86
  | .fewait => 0x87
  | .wmark => 0x88
  | .cpy => 0x90
  | .cpy2 => 0x91
  | .tmaps => 0x92
  | .cpyt => 0x93
  | .send => 0x94
  | .sends => 0x95
  | .mcast => 0x96
  | .netpost => 0x97
  | .netpoll => 0x98
  | .pce => 0x99
  | .vadd => 0xA0
  | .vsub => 0xA1
  | .vmul => 0xA2
  | .vfma => 0xA3
  | .vmin => 0xA4
  | .vmax => 0xA5
  | .vabs => 0xA6
  | .vneg => 0xA7
  | .vand => 0xA8
  | .vor => 0xA9
  | .vxor => 0xAA
  | .vshl => 0xAB
  | .vshr => 0xAC
  | .vcmp => 0xAD
  | .vsel => 0xAE
  | .vdot4 => 0xAF
  | .vrcp => 0xB0
  | .vrsq => 0xB1
  | .vexp2 => 0xB2
  | .vlog2 => 0xB3
  | .vscale => 0xB4
  | .vredadd => 0xB5
  | .vredmax => 0xB6
  | .vredmin => 0xB7
  | .vargmax => 0xB8
  | .vargmin => 0xB9
  | .vperm => 0xBA
  | .vbcast => 0xBB
  | .vrot => 0xBC
  | .viota => 0xBD
  | .vmovs => 0xBE
  | .vclamp => 0xBF
  | .vcvt => 0xC0
  | .vquant => 0xC1
  | .vpln => 0xC2
  | .vunpln => 0xC3
  | .padd => 0xC4
  | .psub => 0xC5
  | .pmul => 0xC6
  | .pcmp => 0xC7
  | .vrand => 0xC8
  | .vdeq => 0xC9
  | .gang => 0xD0
  | .mma => 0xD1
  | .mmaz => 0xD2
  | .mmas => 0xD3
  | .mzero => 0xD4
  | .mdrain => 0xD5
  | .mwait => 0xD6
  | .sclsend => 0xD7
  | .syscall => 0xE0
  | .tret => 0xE1
  | .ctxsv => 0xE2
  | .ctxld => 0xE3
  | .gauge => 0xE4
  | .gread => 0xE5
  | .tmark => 0xE6
  | .idle => 0xE7
  | .faultrpt => 0xE8
  | .supstep => 0xE9

/-- The MOD layout an instruction uses. -/
def modForm : Opc → ModForm
  | .nop | .br | .brx | .call | .ret | .brdec | .steer | .follow | .retire | .finish | .realign | .trap | .launch | .waitc | .waitw | .rdts | .mov | .sel | .mfx | .mtx | .pand | .por | .pxor | .pnot | .pmov | .ptos | .feget | .feset | .pref | .areg | .aabort | .tspawn | .abarm | .wmark | .tmaps | .netpost | .vrand | .gang | .mzero | .mdrain | .mwait | .sclsend | .syscall | .tret | .ctxsv | .ctxld | .gauge | .gread | .tmark | .idle | .faultrpt | .supstep => .none
  | .pfx => .pfx
  | .dlset => .slot
  | .dltest => .test
  | .dlwait | .tabwait | .abwait | .send | .sends | .netpoll => .trio
  | .add | .sub | .mul | .mulh | .div | .rem | .and | .or | .xor | .andn | .shl | .shr | .sar | .rot | .min | .max | .clz | .ctz | .popc | .abs | .brev | .bswap => .alu
  | .bfx | .bfi => .bit
  | .sext | .zext => .swid
  | .lea => .scale
  | .cmp | .tst => .cmp
  | .lds | .sts | .ldv | .stv | .vlds | .vsts | .vldv | .vstv | .ldx | .stx | .vgath | .vscat | .ldg | .stg | .vldg | .vstg | .rld => .mem
  | .rst => .rst
  | .tabtest | .acommit | .abtest => .pred
  | .aadd | .amin | .amax | .aand | .aor | .axor | .axchg | .acas | .afadd | .aredv => .atom
  | .fence => .fence
  | .hbar | .hbarw => .shapeTrio
  | .hbara => .shape
  | .fewait => .wantTrio
  | .cpy | .cpy2 | .cpyt | .mcast | .pce => .copy
  | .vadd | .vsub | .vmul | .vfma | .vmin | .vmax | .vabs | .vneg | .vand | .vor | .vxor | .vshl | .vshr | .vcmp | .vsel | .vdot4 | .vrcp | .vrsq | .vexp2 | .vlog2 | .vscale | .vredadd | .vredmax | .vredmin | .vargmax | .vargmin | .vperm | .vbcast | .vrot | .viota | .vmovs | .vclamp | .vcvt | .vquant | .vpln | .vunpln | .padd | .psub | .pmul | .pcmp | .vdeq => .vec
  | .mma | .mmaz | .mmas => .mat

/-- The slot classes of an instruction, in the order OPD, OPA, OPB. VMOVS takes them from FUNC, and RST from TAB
(R105, R238). -/
def slotCls (c : Opc) (v : ModVal) : Cls × Cls × Cls :=
  match c with
  | .nop => (.no, .nop, .no)
  | .br | .brx | .ret | .realign | .trap | .waitc | .waitw | .dlset | .tabwait | .aabort | .hbarw | .abwait | .fewait | .wmark | .tmaps | .tmark | .supstep => (.no, .ss, .no)
  | .call | .dlwait | .clz | .ctz | .popc | .bfx | .sext | .zext | .mov | .abs | .brev | .bswap | .feget | .tabtest | .areg | .abtest | .ctxsv | .idle | .faultrpt => (.sd, .ss, .no)
  | .brdec => (.sOnly, .ss, .no)
  | .steer => (.st, .ss, .no)
  | .follow => (.no, .st, .no)
  | .retire | .finish | .pfx | .dltest | .acommit | .fence | .hbar | .mwait | .tret => (.no, .no, .no)
  | .launch => (.sd, .ab, .no)
  | .rdts => (.sPair, .no, .no)
  | .add | .sub | .mul | .mulh | .div | .rem | .and | .or | .xor | .andn | .shl | .shr | .sar | .rot | .min | .max | .bfi | .lea | .netpost | .netpoll | .gang | .syscall | .gread => (.sd, .ss, .ss)
  | .sel => (.sOnly, .ss, .ss)
  | .mfx => (.sd, .xr, .no)
  | .mtx => (.xr, .ss, .no)
  | .cmp | .tst => (.kd, .ss, .ss)
  | .pand | .por | .pxor => (.kd, .ks, .ks)
  | .pnot | .pmov => (.kd, .ks, .no)
  | .ptos => (.sd, .ks, .no)
  | .lds | .ldv | .ldg | .rld => (.sd, .base, .ss)
  | .sts | .stv | .stg => (.sRead, .base, .ss)
  | .vlds | .vsts | .vldv | .vstv | .vldg | .vstg => (.vd, .base, .ss)
  | .ldx => (.sd, .bOnly, .ss)
  | .stx => (.sRead, .bOnly, .ss)
  | .feset | .abarm | .ctxld | .gauge => (.no, .ss, .ss)
  | .vgath | .vscat => (.vd, .bOnly, .vs)
  | .pref => (.no, .base, .ss)
  | .aadd | .amin | .amax | .aand | .aor | .axor | .axchg | .afadd => (.sOnly, .ab, .ss)
  | .acas => (.sPair, .ab, .ss)
  | .aredv => (.vOnly, .ab, .ss)
  | .tspawn | .cpy | .cpy2 | .cpyt | .send | .sends | .mcast | .pce => (.sRead, .ss, .ss)
  | .hbara => (.sd, .no, .no)
  | .vadd | .vsub | .vmul | .vmin | .vmax | .vand | .vor | .vxor | .vshl | .vshr | .vcmp | .vscale | .vperm | .padd | .psub | .pmul | .pcmp => (.vd, .vs, .vs)
  | .vfma | .vsel | .vdot4 | .vclamp => (.vOnly, .vs, .vs)
  | .vabs | .vneg | .vrcp | .vrsq | .vexp2 | .vlog2 | .vcvt | .vpln | .vunpln => (.vd, .vs, .no)
  | .vredadd | .vredmax | .vredmin | .vargmax | .vargmin => (.sd, .vs, .no)
  | .vbcast | .vrot | .vquant | .vdeq => (.vd, .vs, .ss)
  | .viota => (.vd, .ss, .ss)
  | .vrand => (.vd, .no, .no)
  | .mma | .mmaz | .mmas => (.ac, .ss, .ts)
  | .mzero => (.ac, .ss, .no)
  | .mdrain => (.sRead, .ac, .ss)
  | .sclsend => (.no, .vs, .ss)
  | .rst => match v with
    | .rst m => (if m.tab then .sOnly else .sRead, .base, .ss)
    | _ => (.sRead, .base, .ss)
  | .vmovs => match v with
    | .vec m => if m.func = 0 then (.sd, .vs, .ss) else (.vOnly, .ss, .ss)
    | _ => (.sd, .vs, .ss)

/-- Bits [lo + w - 1 : lo] of a number. -/
def fieldAt (n lo w : Nat) : Nat := n / 2 ^ lo % 2 ^ w

/-- A field of one bit. -/
def bitAt (n lo : Nat) : Bool := n / 2 ^ lo % 2 == 1

/-- 1 for true. -/
def bitNat (b : Bool) : Nat := if b then 1 else 0

/-- A number from bytes, the first the least significant (R6). -/
def leNat : List Byte → Nat
  | [] => 0
  | b :: bs => b.toNat + 256 * leNat bs

/-- The n bytes of a number, the least significant first (R6). -/
def leBytes : Nat → Nat → List Byte
  | 0, _ => []
  | n + 1, x => BitVec.ofNat 8 x :: leBytes n (x / 256)

/-- The control register of a number (R82). -/
def ctlOf (n : Nat) : Option CtlReg :=
  match n with
  | 0x000 => some .cyc | 0x001 => some .wall | 0x002 => some .ratio | 0x003 => some .toc | 0x004 => some .tow
  | 0x005 => some (.dl 0) | 0x006 => some (.dl 1) | 0x007 => some (.dl 2) | 0x008 => some (.dl 3)
  | 0x010 => some .lcore | 0x011 => some .pcore | 0x012 => some .berth | 0x013 => some .graph | 0x014 => some .taskts
  | 0x020 => some .status | 0x021 => some .pfxv | 0x022 => some .pwidth | 0x023 => some .rmode
  | 0x024 => some .fpflags | 0x025 => some .fptrap | 0x026 => some .seed | 0x027 => some .quantum
  | 0x030 => some .viewV | 0x031 => some .viewT | 0x032 => some .viewA
  | 0x040 => some .tabexp | 0x041 => some .tcr0 | 0x042 => some .tcr1 | 0x043 => some .tlast
  | 0x050 => some .trapCause | 0x051 => some .trapPc | 0x052 => some .trapAddr | 0x053 => some .trapInfo
  | 0x054 => some .trapStream | 0x060 => some .accsat
  | _ => none

/-- The number of a control register (R82). -/
def ctlNum : CtlReg → Nat
  | .cyc => 0x000 | .wall => 0x001 | .ratio => 0x002 | .toc => 0x003 | .tow => 0x004
  | .dl i => 0x005 + i.toNat
  | .lcore => 0x010 | .pcore => 0x011 | .berth => 0x012 | .graph => 0x013 | .taskts => 0x014
  | .status => 0x020 | .pfxv => 0x021 | .pwidth => 0x022 | .rmode => 0x023
  | .fpflags => 0x024 | .fptrap => 0x025 | .seed => 0x026 | .quantum => 0x027
  | .viewV => 0x030 | .viewT => 0x031 | .viewA => 0x032
  | .tabexp => 0x040 | .tcr0 => 0x041 | .tcr1 => 0x042 | .tlast => 0x043
  | .trapCause => 0x050 | .trapPc => 0x051 | .trapAddr => 0x052 | .trapInfo => 0x053
  | .trapStream => 0x054 | .accsat => 0x060

/-- The operand of a 16-bit field (R73), with the literal parcels of the instruction. None: a reserved kind, a VAL bit
that must be 0, or an unassigned control-register number. -/
def operandOf (f lit : Nat) : Option Operand :=
  let v := f % 4096
  match f / 4096 with
  | 0 => if v = 0 then some .none else none
  | 1 => if v < 64 then some (.s (BitVec.ofNat 6 v)) else none
  | 2 => if v < 256 then some (.v (BitVec.ofNat 8 v)) else none
  | 3 => if v < 32 then some (.t (BitVec.ofNat 5 v)) else none
  | 4 => if v < 8 then some (.a (BitVec.ofNat 3 v)) else none
  | 5 => if v < 8 then some (.k (BitVec.ofNat 3 v)) else none
  | 6 => if v < 16 then some (.q (BitVec.ofNat 4 v)) else none
  | 7 => if v < 8 then some (.c (BitVec.ofNat 3 v)) else none
  | 8 => (ctlOf v).map .x
  | 9 => some (.i (BitVec.ofNat 12 v))
  | 10 => if v = 0 then some (.l32 (BitVec.ofNat 32 lit)) else if v = 1 then some (.l64 (BitVec.ofNat 64 lit)) else none
  | 11 => if v < 1024 then some (.b (BitVec.ofNat 10 v)) else none
  | _ => none

/-- The 16-bit field of an operand (R73). -/
def operandBits : Operand → Nat
  | .none => 0
  | .s n => 0x1000 + n.toNat
  | .v n => 0x2000 + n.toNat
  | .t n => 0x3000 + n.toNat
  | .a n => 0x4000 + n.toNat
  | .k n => 0x5000 + n.toNat
  | .q n => 0x6000 + n.toNat
  | .c n => 0x7000 + n.toNat
  | .x r => 0x8000 + ctlNum r
  | .i n => 0x9000 + n.toNat
  | .l32 _ => 0xA000
  | .l64 _ => 0xA001
  | .b n => 0xB000 + n.toNat

/-- How many literal parcels an operand takes (R71). -/
def litParcels : Operand → Nat
  | .l32 _ => 1
  | .l64 _ => 2
  | _ => 0

/-- The literal parcels of an operand as a number. -/
def litNat : Operand → Nat
  | .l32 x => x.toNat
  | .l64 x => x.toNat
  | _ => 0

/-- The operand is of kind L. -/
def isLit : Operand → Bool
  | .l32 _ | .l64 _ => true
  | _ => false

/-- A queue whose entries are 64 bits, 256 bytes, or PC tokens (R119). -/
def q64 (n : BitVec 4) : Bool := decide (n.toNat < 8)
def q256 (n : BitVec 4) : Bool := decide (8 ≤ n.toNat ∧ n.toNat < 12)
def qTok (n : BitVec 4) : Bool := decide (12 ≤ n.toNat)

/-- The kinds a slot class permits (R74, R105). -/
def admits : Cls → Operand → Bool
  | .no, .none => true
  | .nop, .none | .nop, .i _ | .nop, .l32 _ | .nop, .l64 _ => true
  | .sd, .none | .sd, .s _ => true
  | .sd, .q n => q64 n
  | .ss, .none | .ss, .s _ | .ss, .c _ | .ss, .i _ | .ss, .l32 _ | .ss, .l64 _ => true
  | .ss, .q n => q64 n
  | .kd, .k _ | .ks, .k _ | .xr, .x _ => true
  | .vd, .none | .vd, .v _ => true
  | .vd, .q n => q256 n
  | .vs, .v _ | .vs, .c _ | .vs, .s _ | .vs, .i _ | .vs, .l32 _ | .vs, .l64 _ => true
  | .vs, .q n => q256 n
  | .ts, .t _ | .ac, .a _ => true
  | .ab, .s _ | .ab, .b _ | .ab, .i _ | .ab, .l32 _ | .ab, .l64 _ => true
  | .st, .q n => qTok n
  | .sOnly, .s _ => true
  | .sPair, .s n => n != 63
  | .vOnly, .v _ => true
  | .sRead, .none | .sRead, .s _ => true
  | .sRead, .q n => q64 n
  | .base, .s _ | .base, .i _ | .base, .l32 _ | .base, .l64 _ => true
  | .bOnly, .b _ => true
  | _, _ => false

/-- The TYPE codes (R100). -/
def vtypeOf (n : Nat) : Option VType :=
  [VType.s8, .s16, .s32, .n8, .n16, .n32, .f32, .bf16, .f16, .f8a, .f8b][n]?

def vtypeCode : VType → Nat
  | .s8 => 0 | .s16 => 1 | .s32 => 2 | .n8 => 3 | .n16 => 4 | .n32 => 5 | .f32 => 6 | .bf16 => 7 | .f16 => 8
  | .f8a => 9 | .f8b => 10

/-- The RND codes (R100). -/
def rndOf (n : Nat) : Option Rnd := [Rnd.rne, .rtz, .rdn, .rup, .rna, .rsr, .dyn][n]?

def rndCode : Rnd → Nat
  | .rne => 0 | .rtz => 1 | .rdn => 2 | .rup => 3 | .rna => 4 | .rsr => 5 | .dyn => 6

/-- The REL codes (R97). -/
def relOf (n : Nat) : Option Rel := [Rel.eq, .ne, .lt, .le, .gt, .ge][n]?

def relCode : Rel → Nat
  | .eq => 0 | .ne => 1 | .lt => 2 | .le => 3 | .gt => 4 | .ge => 5

/-- The COMB codes (R97). -/
def combOf (n : Nat) : Option Comb := [Comb.set, .and, .or][n]?

def combCode : Comb → Nat
  | .set => 0 | .and => 1 | .or => 2

/-- The SIZE codes (R98). -/
def sizeOf (n : Nat) : Option Size := [Size.b, .h, .w, .d][n]?

def sizeCode : Size → Nat
  | .b => 0 | .h => 1 | .w => 2 | .d => 3

/-- The SYNC codes (R98). -/
def syncOf (n : Nat) : Option Sync := [Sync.plain, .waitf, .take, .put, .fill, .waite][n]?

def syncCode : Sync → Nat
  | .plain => 0 | .waitf => 1 | .take => 2 | .put => 3 | .fill => 4 | .waite => 5

/-- The space codes (R102, R164). -/
def spaceOf (n : Nat) : Option Space := [Space.sp, .vlt, .glb, .spx][n]?

def spaceCode : Space → Nat
  | .sp => 0 | .vlt => 1 | .glb => 2 | .spx => 3

/-- The PLACE codes (R99). -/
def placeOf (n : Nat) : Option Place := [Place.auto, .near, .home][n]?

def placeCode : Place → Nat
  | .auto => 0 | .near => 1 | .home => 2

/-- The SCOPE codes (R101). -/
def scopeOf (n : Nat) : Option Scope := [Scope.core, .cluster, .quad, .device, .fabric][n]?

def scopeCode : Scope → Nat
  | .core => 0 | .cluster => 1 | .quad => 2 | .device => 3 | .fabric => 4

/-- The KIND codes of FENCE (R101). -/
def fkindOf (n : Nat) : Option FKind := [FKind.acq, .rel, .acqrel, .sc][n]?

def fkindCode : FKind → Nat
  | .acq => 0 | .rel => 1 | .acqrel => 2 | .sc => 3

/-- The SHAPE codes (R101). -/
def shapeOf (n : Nat) : Option Shape := [Shape.row, .col, .quad, .rowcol][n]?

def shapeCode : Shape → Nat
  | .row => 0 | .col => 1 | .quad => 2 | .rowcol => 3

/-- The FTYPE codes (R99). -/
def ftypeOf (n : Nat) : Option FType := [FType.f32, .bf16, .f16][n]?

def ftypeCode : FType → Nat
  | .f32 => 0 | .bf16 => 1 | .f16 => 2

/-- The BPK codes (R103). -/
def bpkOf (n : Nat) : Option Bpk := [Bpk.l8, .l4, .l2, .l1][n]?

def bpkCode : Bpk → Nat
  | .l8 => 0 | .l4 => 1 | .l2 => 2 | .l1 => 3

/-- The timeout trio of a MOD (R94). -/
def trioOf (m : Nat) : Trio := { tb := bitAt m 5, tres := bitAt m 6, pred := BitVec.ofNat 3 (fieldAt m 8 3) }

def trioCode (t : Trio) : Nat := bitNat t.tb * 2 ^ 5 + bitNat t.tres * 2 ^ 6 + t.pred.toNat * 2 ^ 8

/-- A MOD read in a layout (R95 to R104); none where a field holds a reserved value. Bits that the layout does not name
are not looked at here: checkMod compares with modCode. -/
def modOf (f : ModForm) (m : Nat) : Option ModVal :=
  match f with
  | .none => some .none
  | .pfx => do
    let ty ← vtypeOf (fieldAt m 0 4)
    let rnd ← rndOf (fieldAt m 4 3)
    if fieldAt m 8 5 ≤ 16 then
      some (.pfx { ty := ty, rnd := rnd, sat := bitAt m 7, width := BitVec.ofNat 5 (fieldAt m 8 5) })
    else none
  | .slot => some (.slot { slot := BitVec.ofNat 2 (fieldAt m 0 2), base := bitAt m 2, abs := bitAt m 3 })
  | .test => some (.test { slot := BitVec.ofNat 2 (fieldAt m 0 2), pred := BitVec.ofNat 3 (fieldAt m 8 3) })
  | .trio => some (.trio (trioOf m))
  | .alu => some (.alu { w := bitAt m 0, sgn := bitAt m 1, sat := bitAt m 2 })
  | .bit => some (.bit { pos := BitVec.ofNat 6 (fieldAt m 4 6), widm1 := BitVec.ofNat 6 (fieldAt m 10 6) })
  | .swid => some (.swid { swid := BitVec.ofNat 2 (fieldAt m 4 2) })
  | .scale => some (.scale { scale := BitVec.ofNat 2 (fieldAt m 4 2) })
  | .cmp => do
    let rel ← relOf (fieldAt m 0 3)
    let comb ← combOf (fieldAt m 5 2)
    some (.cmp { rel := rel, sgn := bitAt m 3, w := bitAt m 4, comb := comb })
  | .mem => do
    let size ← sizeOf (fieldAt m 0 2)
    let sync ← syncOf (fieldAt m 2 3)
    some (.mem { size := size, sync := sync, trio := trioOf m, scale := BitVec.ofNat 2 (fieldAt m 11 2),
                 sx := bitAt m 13 })
  | .rst => do
    let size ← sizeOf (fieldAt m 0 2)
    let sync ← syncOf (fieldAt m 2 3)
    some (.rst { size := size, sync := sync, trio := trioOf m, tab := bitAt m 14,
                 carry := BitVec.ofNat 2 (2 * bitNat (bitAt m 15) + bitNat (bitAt m 7)) })
  | .pred => some (.pred { pred := BitVec.ofNat 3 (fieldAt m 8 3) })
  | .atom => do
    let size ← sizeOf (fieldAt m 0 2)
    let place ← placeOf (fieldAt m 2 2)
    let scope ← scopeOf (fieldAt m 5 3)
    let ftype ← ftypeOf (fieldAt m 8 2)
    some (.atom { size := size, place := place, ret := bitAt m 4, scope := scope, ftype := ftype,
                  sgn := bitAt m 10, fp := bitAt m 11 })
  | .fence => do
    let scope ← scopeOf (fieldAt m 0 3)
    let kind ← fkindOf (fieldAt m 3 2)
    some (.fence { scope := scope, kind := kind, eng := bitAt m 5 })
  | .shape => do
    let shape ← shapeOf (fieldAt m 0 2)
    some (.shape { shape := shape })
  | .shapeTrio => do
    let shape ← shapeOf (fieldAt m 0 2)
    some (.shapeTrio { shape := shape, trio := trioOf m })
  | .wantTrio => some (.wantTrio { want := bitAt m 0, trio := trioOf m })
  | .copy => do
    let src ← spaceOf (fieldAt m 0 3)
    let dst ← spaceOf (fieldAt m 3 3)
    some (.copy { src := src, dst := dst, fill := bitAt m 6, mc := bitAt m 7 })
  | .vec => do
    let ty ← vtypeOf (fieldAt m 0 4)
    let rnd ← rndOf (fieldAt m 4 3)
    let ty2 ← vtypeOf (fieldAt m 8 4)
    some (.vec { ty := ty, rnd := rnd, sat := bitAt m 7, ty2 := ty2, func := BitVec.ofNat 3 (fieldAt m 12 3) })
  | .mat => do
    let bpk ← bpkOf (fieldAt m 4 2)
    some (.mat { apl := BitVec.ofNat 3 (fieldAt m 0 3), asg := bitAt m 3, bpk := bpk, bsg := bitAt m 6,
                 accf := bitAt m 7 })

/-- The MOD bits of a modifier (R95 to R104). -/
def modCode : ModVal → Nat
  | .none => 0
  | .pfx m => vtypeCode m.ty + rndCode m.rnd * 2 ^ 4 + bitNat m.sat * 2 ^ 7 + m.width.toNat * 2 ^ 8
  | .slot m => m.slot.toNat + bitNat m.base * 2 ^ 2 + bitNat m.abs * 2 ^ 3
  | .test m => m.slot.toNat + m.pred.toNat * 2 ^ 8
  | .trio m => trioCode m
  | .alu m => bitNat m.w + bitNat m.sgn * 2 + bitNat m.sat * 2 ^ 2
  | .bit m => m.pos.toNat * 2 ^ 4 + m.widm1.toNat * 2 ^ 10
  | .swid m => m.swid.toNat * 2 ^ 4
  | .scale m => m.scale.toNat * 2 ^ 4
  | .cmp m => relCode m.rel + bitNat m.sgn * 2 ^ 3 + bitNat m.w * 2 ^ 4 + combCode m.comb * 2 ^ 5
  | .mem m => sizeCode m.size + syncCode m.sync * 2 ^ 2 + trioCode m.trio + m.scale.toNat * 2 ^ 11 + bitNat m.sx * 2 ^ 13
  | .rst m => sizeCode m.size + syncCode m.sync * 2 ^ 2 + trioCode m.trio + bitNat m.tab * 2 ^ 14
      + m.carry.toNat / 2 * 2 ^ 15 + m.carry.toNat % 2 * 2 ^ 7
  | .pred m => m.pred.toNat * 2 ^ 8
  | .atom m => sizeCode m.size + placeCode m.place * 2 ^ 2 + bitNat m.ret * 2 ^ 4 + scopeCode m.scope * 2 ^ 5
      + ftypeCode m.ftype * 2 ^ 8 + bitNat m.sgn * 2 ^ 10 + bitNat m.fp * 2 ^ 11
  | .fence m => scopeCode m.scope + fkindCode m.kind * 2 ^ 3 + bitNat m.eng * 2 ^ 5
  | .shape m => shapeCode m.shape
  | .shapeTrio m => shapeCode m.shape + trioCode m.trio
  | .wantTrio m => bitNat m.want + trioCode m.trio
  | .copy m => spaceCode m.src + spaceCode m.dst * 2 ^ 3 + bitNat m.fill * 2 ^ 6 + bitNat m.mc * 2 ^ 7
  | .vec m => vtypeCode m.ty + rndCode m.rnd * 2 ^ 4 + bitNat m.sat * 2 ^ 7 + vtypeCode m.ty2 * 2 ^ 8
      + m.func.toNat * 2 ^ 12
  | .mat m => m.apl.toNat + bitNat m.asg * 2 ^ 3 + bpkCode m.bpk * 2 ^ 4 + bitNat m.bsg * 2 ^ 6 + bitNat m.accf * 2 ^ 7

/-- A type is a float type (R213). -/
def isFloat : VType → Bool
  | .f32 | .bf16 | .f16 | .f8a | .f8b => true
  | _ => false

/-- The bytes of an element (R230). -/
def vbytes : VType → Nat
  | .s8 | .n8 | .f8a | .f8b => 1
  | .s16 | .n16 | .bf16 | .f16 => 2
  | .s32 | .n32 | .f32 => 4

/-- The part of a conversion lies below its ratio (R245). -/
def partOk (m : VecMod) : Bool :=
  let es := vbytes m.ty
  let ed := vbytes m.ty2
  decide (m.func.toNat < Nat.max es ed / Nat.min es ed)

/-- TYPE, TYPE2, RND, SAT and FUNC that a vector instruction accepts (R234, R235, R238, R241, R244, R246, R250). -/
def vecOk (c : Opc) (m : VecMod) : Bool :=
  let fl := isFloat m.ty
  let rnd0 := decide (m.rnd = .rne)
  let ty20 := decide (m.ty2 = .s8)
  let func0 := decide (m.func = 0)
  let sat0 := !m.sat
  match c with
  | .vadd | .vsub | .vmul | .vfma => ty20 && func0 && (fl || rnd0)
  | .vmin | .vmax | .vsel | .vclamp | .vredmax | .vredmin | .vargmax | .vargmin | .vperm | .vbcast | .vrot =>
    ty20 && func0 && rnd0 && sat0
  | .vabs | .vneg => ty20 && func0 && rnd0 && (sat0 || !fl)
  | .vand | .vor | .vxor | .vshr => !fl && ty20 && func0 && rnd0 && sat0
  | .vshl => !fl && ty20 && func0 && rnd0
  | .vcmp => ty20 && rnd0 && sat0 && decide (m.func.toNat < 6)
  | .vdot4 => decide (m.ty = .s8 ∨ m.ty = .n8) && decide (m.ty2 = .s8 ∨ m.ty2 = .n8) && func0 && rnd0
  | .vrcp | .vrsq | .vexp2 | .vlog2 => decide (m.ty = .f32 ∨ m.ty = .bf16 ∨ m.ty = .f16) && ty20 && func0
  | .vscale => fl && ty20 && func0
  | .vredadd =>
    func0 && (fl || rnd0) &&
      (if fl then
        sat0 && (decide (m.ty2 = .f32) || decide (m.ty2 = m.ty)
          || (decide (m.ty = .f8a ∨ m.ty = .f8b) && decide (m.ty2 = .bf16 ∨ m.ty2 = .f16)))
      else decide (m.ty2 = .s32 ∨ m.ty2 = .n32))
  | .viota => !fl && ty20 && func0 && rnd0
  | .vmovs => ty20 && rnd0 && sat0 && decide (m.func.toNat < 2)
  | .vcvt =>
    partOk m &&
      (match fl, isFloat m.ty2 with
       | _, true => true
       | true, false => sat0
       | false, false => rnd0)
  | .vquant => fl && !isFloat m.ty2 && sat0 && partOk m
  | .vdeq => !fl && isFloat m.ty2 && partOk m
  | .vpln | .padd | .psub | .pmul =>
    decide (m.ty = .s8 ∨ m.ty = .n8 ∨ m.ty = .s16 ∨ m.ty = .n16) && ty20 && func0 && rnd0
  | .vunpln => decide (m.ty = .s8 ∨ m.ty = .n8 ∨ m.ty = .s16 ∨ m.ty = .n16) && ty20 && func0 && rnd0 && sat0
  | .pcmp =>
    decide (m.ty = .s8 ∨ m.ty = .n8 ∨ m.ty = .s16 ∨ m.ty = .n16) && ty20 && rnd0 && sat0
      && decide (m.func.toNat < 6)
  | _ => false

/-- With TRES = 0, PRED must be 0 (R94). -/
def trioOk (t : Trio) : Bool := t.tres || decide (t.pred = 0)

/-- A load accepts this SYNC, a store accepts that (R98). -/
def loadSync : Sync → Bool
  | .plain | .waitf | .take | .waite => true
  | _ => false
def storeSync : Sync → Bool
  | .plain | .put | .fill => true
  | _ => false

/-- The trio of an access: all 0 when SYNC is PLAIN (R98). -/
def syncTrio (s : Sync) (t : Trio) : Bool :=
  if s = .plain then decide (t = {}) else trioOk t

/-- The fields of the memory group that each instruction uses (R93, R98, R185). -/
def memOk (c : Opc) (m : MemMod) : Bool :=
  let block := decide (m.size = .b)
  let noScale := decide (m.scale = 0)
  let sxOk := !m.sx || decide (m.size ≠ .d)
  match c with
  | .lds | .ldv | .ldg | .rld => loadSync m.sync && syncTrio m.sync m.trio && noScale && sxOk
  | .ldx => loadSync m.sync && syncTrio m.sync m.trio && sxOk
  | .sts | .stv | .stg => storeSync m.sync && syncTrio m.sync m.trio && noScale && !m.sx
  | .stx => storeSync m.sync && syncTrio m.sync m.trio && !m.sx
  | .vlds | .vldv | .vldg => block && loadSync m.sync && syncTrio m.sync m.trio && noScale && !m.sx
  | .vsts | .vstv | .vstg => block && storeSync m.sync && syncTrio m.sync m.trio && noScale && !m.sx
  | .vgath | .vscat => decide (m.size ≠ .d) && decide (m.sync = .plain) && decide (m.trio = {}) && !m.sx
  | _ => false

/-- The fields of the atomics that each instruction uses (R93, R99). -/
def atomOk (c : Opc) (m : AtomMod) : Bool :=
  let wd := decide (m.size = .w ∨ m.size = .d)
  let f0 := decide (m.ftype = .f32)
  match c with
  | .aadd | .aand | .aor | .axor | .axchg | .acas => wd && f0 && !m.sgn && !m.fp
  | .amin | .amax => wd && f0 && !m.fp
  | .afadd => decide (m.size = .b) && !m.sgn && !m.fp
  | .aredv => !m.ret && !m.sgn && (if m.fp then decide (m.size = .w) else wd && f0)
  | _ => false

/-- A named field that the instruction does not use is 0, and every value is one it accepts (R93 to R104). -/
def modOk (c : Opc) (v : ModVal) : Bool :=
  match v with
  | .none => true
  | .pfx m => decide (m.width.toNat ≤ 16)
  | .slot m => m.base || !m.abs
  | .test _ => true
  | .trio m => trioOk m
  | .alu m =>
    (match c with
     | .add | .sub => m.sat || !m.sgn
     | .mulh | .div | .rem | .min | .max => !m.sat
     | _ => !m.sat && !m.sgn)
  | .bit m => decide (m.pos.toNat + m.widm1.toNat < 64)
  | .swid m => decide (m.swid.toNat < 3)
  | .scale _ => true
  | .cmp m => if c = .tst then decide (m.rel = .eq ∨ m.rel = .ne) && !m.sgn else true
  | .mem m => memOk c m
  | .rst m => storeSync m.sync && syncTrio m.sync m.trio && (decide (m.carry = 0) || decide (m.sync ≠ .put))
  | .pred _ => true
  | .atom m => atomOk c m
  | .fence _ => true
  | .shape _ => true
  | .shapeTrio m => trioOk m.trio
  | .wantTrio m => trioOk m.trio
  | .copy m =>
    (decide (c = .mcast) || !m.mc) && (decide (c ≠ .cpyt) || decide (m.src = .sp))
  | .vec m => vecOk c m
  | .mat m => decide (c ≠ .mmas) || m.accf

/-- The MOD check, step 3d of R106: the layout's value, when every unnamed bit is 0 and the instruction accepts it. -/
def checkMod (c : Opc) (m : Nat) : Option ModVal :=
  match modOf (modForm c) m with
  | some v => if modCode v = m ∧ modOk c v = true then some v else none
  | none => none

def asNone : ModVal → Option Unit | .none => some () | _ => none

def asPfx : ModVal → Option PfxMod | .pfx m => some m | _ => none
def asSlot : ModVal → Option SlotMod | .slot m => some m | _ => none
def asTest : ModVal → Option TestMod | .test m => some m | _ => none
def asTrio : ModVal → Option Trio | .trio m => some m | _ => none
def asAlu : ModVal → Option AluMod | .alu m => some m | _ => none
def asBit : ModVal → Option BitMod | .bit m => some m | _ => none
def asSwid : ModVal → Option SwidMod | .swid m => some m | _ => none
def asScale : ModVal → Option ScaleMod | .scale m => some m | _ => none
def asCmp : ModVal → Option CmpMod | .cmp m => some m | _ => none
def asMem : ModVal → Option MemMod | .mem m => some m | _ => none
def asRst : ModVal → Option RstMod | .rst m => some m | _ => none
def asPred : ModVal → Option PredMod | .pred m => some m | _ => none
def asAtom : ModVal → Option AtomMod | .atom m => some m | _ => none
def asFence : ModVal → Option FenceMod | .fence m => some m | _ => none
def asShape : ModVal → Option ShapeMod | .shape m => some m | _ => none
def asShapeTrio : ModVal → Option ShapeTrio | .shapeTrio m => some m | _ => none
def asWantTrio : ModVal → Option WantTrio | .wantTrio m => some m | _ => none
def asCopy : ModVal → Option CopyMod | .copy m => some m | _ => none
def asVec : ModVal → Option VecMod | .vec m => some m | _ => none
def asMat : ModVal → Option MatMod | .mat m => some m | _ => none

/-- The instruction of an opcode with its operands and modifier. -/
def ofParts (c : Opc) (o : Ops) (v : ModVal) : Option Instr :=
  match c with
  | .nop => (asNone v).map (fun _ => .nop o)
  | .br => (asNone v).map (fun _ => .br o)
  | .brx => (asNone v).map (fun _ => .brx o)
  | .call => (asNone v).map (fun _ => .call o)
  | .ret => (asNone v).map (fun _ => .ret o)
  | .brdec => (asNone v).map (fun _ => .brdec o)
  | .steer => (asNone v).map (fun _ => .steer o)
  | .follow => (asNone v).map (fun _ => .follow o)
  | .retire => (asNone v).map (fun _ => .retire o)
  | .finish => (asNone v).map (fun _ => .finish o)
  | .realign => (asNone v).map (fun _ => .realign o)
  | .trap => (asNone v).map (fun _ => .trap o)
  | .pfx => (asPfx v).map (.pfx o)
  | .launch => (asNone v).map (fun _ => .launch o)
  | .waitc => (asNone v).map (fun _ => .waitc o)
  | .waitw => (asNone v).map (fun _ => .waitw o)
  | .rdts => (asNone v).map (fun _ => .rdts o)
  | .dlset => (asSlot v).map (.dlset o)
  | .dltest => (asTest v).map (.dltest o)
  | .dlwait => (asTrio v).map (.dlwait o)
  | .add => (asAlu v).map (.add o)
  | .sub => (asAlu v).map (.sub o)
  | .mul => (asAlu v).map (.mul o)
  | .mulh => (asAlu v).map (.mulh o)
  | .div => (asAlu v).map (.div o)
  | .rem => (asAlu v).map (.rem o)
  | .and => (asAlu v).map (.and o)
  | .or => (asAlu v).map (.or o)
  | .xor => (asAlu v).map (.xor o)
  | .andn => (asAlu v).map (.andn o)
  | .shl => (asAlu v).map (.shl o)
  | .shr => (asAlu v).map (.shr o)
  | .sar => (asAlu v).map (.sar o)
  | .rot => (asAlu v).map (.rot o)
  | .min => (asAlu v).map (.min o)
  | .max => (asAlu v).map (.max o)
  | .clz => (asAlu v).map (.clz o)
  | .ctz => (asAlu v).map (.ctz o)
  | .popc => (asAlu v).map (.popc o)
  | .bfx => (asBit v).map (.bfx o)
  | .bfi => (asBit v).map (.bfi o)
  | .sext => (asSwid v).map (.sext o)
  | .zext => (asSwid v).map (.zext o)
  | .mov => (asNone v).map (fun _ => .mov o)
  | .sel => (asNone v).map (fun _ => .sel o)
  | .abs => (asAlu v).map (.abs o)
  | .lea => (asScale v).map (.lea o)
  | .brev => (asAlu v).map (.brev o)
  | .bswap => (asAlu v).map (.bswap o)
  | .mfx => (asNone v).map (fun _ => .mfx o)
  | .mtx => (asNone v).map (fun _ => .mtx o)
  | .cmp => (asCmp v).map (.cmp o)
  | .tst => (asCmp v).map (.tst o)
  | .pand => (asNone v).map (fun _ => .pand o)
  | .por => (asNone v).map (fun _ => .por o)
  | .pxor => (asNone v).map (fun _ => .pxor o)
  | .pnot => (asNone v).map (fun _ => .pnot o)
  | .pmov => (asNone v).map (fun _ => .pmov o)
  | .ptos => (asNone v).map (fun _ => .ptos o)
  | .lds => (asMem v).map (.lds o)
  | .sts => (asMem v).map (.sts o)
  | .ldv => (asMem v).map (.ldv o)
  | .stv => (asMem v).map (.stv o)
  | .vlds => (asMem v).map (.vlds o)
  | .vsts => (asMem v).map (.vsts o)
  | .vldv => (asMem v).map (.vldv o)
  | .vstv => (asMem v).map (.vstv o)
  | .ldx => (asMem v).map (.ldx o)
  | .stx => (asMem v).map (.stx o)
  | .feget => (asNone v).map (fun _ => .feget o)
  | .feset => (asNone v).map (fun _ => .feset o)
  | .vgath => (asMem v).map (.vgath o)
  | .vscat => (asMem v).map (.vscat o)
  | .ldg => (asMem v).map (.ldg o)
  | .stg => (asMem v).map (.stg o)
  | .vldg => (asMem v).map (.vldg o)
  | .vstg => (asMem v).map (.vstg o)
  | .rld => (asMem v).map (.rld o)
  | .rst => (asRst v).map (.rst o)
  | .tabwait => (asTrio v).map (.tabwait o)
  | .tabtest => (asPred v).map (.tabtest o)
  | .pref => (asNone v).map (fun _ => .pref o)
  | .aadd => (asAtom v).map (.aadd o)
  | .amin => (asAtom v).map (.amin o)
  | .amax => (asAtom v).map (.amax o)
  | .aand => (asAtom v).map (.aand o)
  | .aor => (asAtom v).map (.aor o)
  | .axor => (asAtom v).map (.axor o)
  | .axchg => (asAtom v).map (.axchg o)
  | .acas => (asAtom v).map (.acas o)
  | .afadd => (asAtom v).map (.afadd o)
  | .aredv => (asAtom v).map (.aredv o)
  | .areg => (asNone v).map (fun _ => .areg o)
  | .acommit => (asPred v).map (.acommit o)
  | .aabort => (asNone v).map (fun _ => .aabort o)
  | .tspawn => (asNone v).map (fun _ => .tspawn o)
  | .fence => (asFence v).map (.fence o)
  | .hbar => (asShapeTrio v).map (.hbar o)
  | .hbara => (asShape v).map (.hbara o)
  | .hbarw => (asShapeTrio v).map (.hbarw o)
  | .abarm => (asNone v).map (fun _ => .abarm o)
  | .abwait => (asTrio v).map (.abwait o)
  | .abtest => (asPred v).map (.abtest o)
  | .fewait => (asWantTrio v).map (.fewait o)
  | .wmark => (asNone v).map (fun _ => .wmark o)
  | .cpy => (asCopy v).map (.cpy o)
  | .cpy2 => (asCopy v).map (.cpy2 o)
  | .tmaps => (asNone v).map (fun _ => .tmaps o)
  | .cpyt => (asCopy v).map (.cpyt o)
  | .send => (asTrio v).map (.send o)
  | .sends => (asTrio v).map (.sends o)
  | .mcast => (asCopy v).map (.mcast o)
  | .netpost => (asNone v).map (fun _ => .netpost o)
  | .netpoll => (asTrio v).map (.netpoll o)
  | .pce => (asCopy v).map (.pce o)
  | .vadd => (asVec v).map (.vadd o)
  | .vsub => (asVec v).map (.vsub o)
  | .vmul => (asVec v).map (.vmul o)
  | .vfma => (asVec v).map (.vfma o)
  | .vmin => (asVec v).map (.vmin o)
  | .vmax => (asVec v).map (.vmax o)
  | .vabs => (asVec v).map (.vabs o)
  | .vneg => (asVec v).map (.vneg o)
  | .vand => (asVec v).map (.vand o)
  | .vor => (asVec v).map (.vor o)
  | .vxor => (asVec v).map (.vxor o)
  | .vshl => (asVec v).map (.vshl o)
  | .vshr => (asVec v).map (.vshr o)
  | .vcmp => (asVec v).map (.vcmp o)
  | .vsel => (asVec v).map (.vsel o)
  | .vdot4 => (asVec v).map (.vdot4 o)
  | .vrcp => (asVec v).map (.vrcp o)
  | .vrsq => (asVec v).map (.vrsq o)
  | .vexp2 => (asVec v).map (.vexp2 o)
  | .vlog2 => (asVec v).map (.vlog2 o)
  | .vscale => (asVec v).map (.vscale o)
  | .vredadd => (asVec v).map (.vredadd o)
  | .vredmax => (asVec v).map (.vredmax o)
  | .vredmin => (asVec v).map (.vredmin o)
  | .vargmax => (asVec v).map (.vargmax o)
  | .vargmin => (asVec v).map (.vargmin o)
  | .vperm => (asVec v).map (.vperm o)
  | .vbcast => (asVec v).map (.vbcast o)
  | .vrot => (asVec v).map (.vrot o)
  | .viota => (asVec v).map (.viota o)
  | .vmovs => (asVec v).map (fun m => if m.func = 0 then .vmovsGet o m else .vmovsPut o m)
  | .vclamp => (asVec v).map (.vclamp o)
  | .vcvt => (asVec v).map (.vcvt o)
  | .vquant => (asVec v).map (.vquant o)
  | .vpln => (asVec v).map (.vpln o)
  | .vunpln => (asVec v).map (.vunpln o)
  | .padd => (asVec v).map (.padd o)
  | .psub => (asVec v).map (.psub o)
  | .pmul => (asVec v).map (.pmul o)
  | .pcmp => (asVec v).map (.pcmp o)
  | .vrand => (asNone v).map (fun _ => .vrand o)
  | .vdeq => (asVec v).map (.vdeq o)
  | .gang => (asNone v).map (fun _ => .gang o)
  | .mma => (asMat v).map (.mma o)
  | .mmaz => (asMat v).map (.mmaz o)
  | .mmas => (asMat v).map (.mmas o)
  | .mzero => (asNone v).map (fun _ => .mzero o)
  | .mdrain => (asNone v).map (fun _ => .mdrain o)
  | .mwait => (asNone v).map (fun _ => .mwait o)
  | .sclsend => (asNone v).map (fun _ => .sclsend o)
  | .syscall => (asNone v).map (fun _ => .syscall o)
  | .tret => (asNone v).map (fun _ => .tret o)
  | .ctxsv => (asNone v).map (fun _ => .ctxsv o)
  | .ctxld => (asNone v).map (fun _ => .ctxld o)
  | .gauge => (asNone v).map (fun _ => .gauge o)
  | .gread => (asNone v).map (fun _ => .gread o)
  | .tmark => (asNone v).map (fun _ => .tmark o)
  | .idle => (asNone v).map (fun _ => .idle o)
  | .faultrpt => (asNone v).map (fun _ => .faultrpt o)
  | .supstep => (asNone v).map (fun _ => .supstep o)

/-- The opcode, operands and modifier of an instruction; none for UDF and for the steps that no word encodes. -/
def partsOf : Instr → Option (Opc × Ops × ModVal)
  | .nop o => some (.nop, o, .none)
  | .br o => some (.br, o, .none)
  | .brx o => some (.brx, o, .none)
  | .call o => some (.call, o, .none)
  | .ret o => some (.ret, o, .none)
  | .brdec o => some (.brdec, o, .none)
  | .steer o => some (.steer, o, .none)
  | .follow o => some (.follow, o, .none)
  | .retire o => some (.retire, o, .none)
  | .finish o => some (.finish, o, .none)
  | .realign o => some (.realign, o, .none)
  | .trap o => some (.trap, o, .none)
  | .pfx o m => some (.pfx, o, .pfx m)
  | .launch o => some (.launch, o, .none)
  | .waitc o => some (.waitc, o, .none)
  | .waitw o => some (.waitw, o, .none)
  | .rdts o => some (.rdts, o, .none)
  | .dlset o m => some (.dlset, o, .slot m)
  | .dltest o m => some (.dltest, o, .test m)
  | .dlwait o m => some (.dlwait, o, .trio m)
  | .add o m => some (.add, o, .alu m)
  | .sub o m => some (.sub, o, .alu m)
  | .mul o m => some (.mul, o, .alu m)
  | .mulh o m => some (.mulh, o, .alu m)
  | .div o m => some (.div, o, .alu m)
  | .rem o m => some (.rem, o, .alu m)
  | .and o m => some (.and, o, .alu m)
  | .or o m => some (.or, o, .alu m)
  | .xor o m => some (.xor, o, .alu m)
  | .andn o m => some (.andn, o, .alu m)
  | .shl o m => some (.shl, o, .alu m)
  | .shr o m => some (.shr, o, .alu m)
  | .sar o m => some (.sar, o, .alu m)
  | .rot o m => some (.rot, o, .alu m)
  | .min o m => some (.min, o, .alu m)
  | .max o m => some (.max, o, .alu m)
  | .clz o m => some (.clz, o, .alu m)
  | .ctz o m => some (.ctz, o, .alu m)
  | .popc o m => some (.popc, o, .alu m)
  | .bfx o m => some (.bfx, o, .bit m)
  | .bfi o m => some (.bfi, o, .bit m)
  | .sext o m => some (.sext, o, .swid m)
  | .zext o m => some (.zext, o, .swid m)
  | .mov o => some (.mov, o, .none)
  | .sel o => some (.sel, o, .none)
  | .abs o m => some (.abs, o, .alu m)
  | .lea o m => some (.lea, o, .scale m)
  | .brev o m => some (.brev, o, .alu m)
  | .bswap o m => some (.bswap, o, .alu m)
  | .mfx o => some (.mfx, o, .none)
  | .mtx o => some (.mtx, o, .none)
  | .cmp o m => some (.cmp, o, .cmp m)
  | .tst o m => some (.tst, o, .cmp m)
  | .pand o => some (.pand, o, .none)
  | .por o => some (.por, o, .none)
  | .pxor o => some (.pxor, o, .none)
  | .pnot o => some (.pnot, o, .none)
  | .pmov o => some (.pmov, o, .none)
  | .ptos o => some (.ptos, o, .none)
  | .lds o m => some (.lds, o, .mem m)
  | .sts o m => some (.sts, o, .mem m)
  | .ldv o m => some (.ldv, o, .mem m)
  | .stv o m => some (.stv, o, .mem m)
  | .vlds o m => some (.vlds, o, .mem m)
  | .vsts o m => some (.vsts, o, .mem m)
  | .vldv o m => some (.vldv, o, .mem m)
  | .vstv o m => some (.vstv, o, .mem m)
  | .ldx o m => some (.ldx, o, .mem m)
  | .stx o m => some (.stx, o, .mem m)
  | .feget o => some (.feget, o, .none)
  | .feset o => some (.feset, o, .none)
  | .vgath o m => some (.vgath, o, .mem m)
  | .vscat o m => some (.vscat, o, .mem m)
  | .ldg o m => some (.ldg, o, .mem m)
  | .stg o m => some (.stg, o, .mem m)
  | .vldg o m => some (.vldg, o, .mem m)
  | .vstg o m => some (.vstg, o, .mem m)
  | .rld o m => some (.rld, o, .mem m)
  | .rst o m => some (.rst, o, .rst m)
  | .tabwait o m => some (.tabwait, o, .trio m)
  | .tabtest o m => some (.tabtest, o, .pred m)
  | .pref o => some (.pref, o, .none)
  | .aadd o m => some (.aadd, o, .atom m)
  | .amin o m => some (.amin, o, .atom m)
  | .amax o m => some (.amax, o, .atom m)
  | .aand o m => some (.aand, o, .atom m)
  | .aor o m => some (.aor, o, .atom m)
  | .axor o m => some (.axor, o, .atom m)
  | .axchg o m => some (.axchg, o, .atom m)
  | .acas o m => some (.acas, o, .atom m)
  | .afadd o m => some (.afadd, o, .atom m)
  | .aredv o m => some (.aredv, o, .atom m)
  | .areg o => some (.areg, o, .none)
  | .acommit o m => some (.acommit, o, .pred m)
  | .aabort o => some (.aabort, o, .none)
  | .tspawn o => some (.tspawn, o, .none)
  | .fence o m => some (.fence, o, .fence m)
  | .hbar o m => some (.hbar, o, .shapeTrio m)
  | .hbara o m => some (.hbara, o, .shape m)
  | .hbarw o m => some (.hbarw, o, .shapeTrio m)
  | .abarm o => some (.abarm, o, .none)
  | .abwait o m => some (.abwait, o, .trio m)
  | .abtest o m => some (.abtest, o, .pred m)
  | .fewait o m => some (.fewait, o, .wantTrio m)
  | .wmark o => some (.wmark, o, .none)
  | .cpy o m => some (.cpy, o, .copy m)
  | .cpy2 o m => some (.cpy2, o, .copy m)
  | .tmaps o => some (.tmaps, o, .none)
  | .cpyt o m => some (.cpyt, o, .copy m)
  | .send o m => some (.send, o, .trio m)
  | .sends o m => some (.sends, o, .trio m)
  | .mcast o m => some (.mcast, o, .copy m)
  | .netpost o => some (.netpost, o, .none)
  | .netpoll o m => some (.netpoll, o, .trio m)
  | .pce o m => some (.pce, o, .copy m)
  | .vadd o m => some (.vadd, o, .vec m)
  | .vsub o m => some (.vsub, o, .vec m)
  | .vmul o m => some (.vmul, o, .vec m)
  | .vfma o m => some (.vfma, o, .vec m)
  | .vmin o m => some (.vmin, o, .vec m)
  | .vmax o m => some (.vmax, o, .vec m)
  | .vabs o m => some (.vabs, o, .vec m)
  | .vneg o m => some (.vneg, o, .vec m)
  | .vand o m => some (.vand, o, .vec m)
  | .vor o m => some (.vor, o, .vec m)
  | .vxor o m => some (.vxor, o, .vec m)
  | .vshl o m => some (.vshl, o, .vec m)
  | .vshr o m => some (.vshr, o, .vec m)
  | .vcmp o m => some (.vcmp, o, .vec m)
  | .vsel o m => some (.vsel, o, .vec m)
  | .vdot4 o m => some (.vdot4, o, .vec m)
  | .vrcp o m => some (.vrcp, o, .vec m)
  | .vrsq o m => some (.vrsq, o, .vec m)
  | .vexp2 o m => some (.vexp2, o, .vec m)
  | .vlog2 o m => some (.vlog2, o, .vec m)
  | .vscale o m => some (.vscale, o, .vec m)
  | .vredadd o m => some (.vredadd, o, .vec m)
  | .vredmax o m => some (.vredmax, o, .vec m)
  | .vredmin o m => some (.vredmin, o, .vec m)
  | .vargmax o m => some (.vargmax, o, .vec m)
  | .vargmin o m => some (.vargmin, o, .vec m)
  | .vperm o m => some (.vperm, o, .vec m)
  | .vbcast o m => some (.vbcast, o, .vec m)
  | .vrot o m => some (.vrot, o, .vec m)
  | .viota o m => some (.viota, o, .vec m)
  | .vmovsGet o m => some (.vmovs, o, .vec m)
  | .vmovsPut o m => some (.vmovs, o, .vec m)
  | .vclamp o m => some (.vclamp, o, .vec m)
  | .vcvt o m => some (.vcvt, o, .vec m)
  | .vquant o m => some (.vquant, o, .vec m)
  | .vpln o m => some (.vpln, o, .vec m)
  | .vunpln o m => some (.vunpln, o, .vec m)
  | .padd o m => some (.padd, o, .vec m)
  | .psub o m => some (.psub, o, .vec m)
  | .pmul o m => some (.pmul, o, .vec m)
  | .pcmp o m => some (.pcmp, o, .vec m)
  | .vrand o => some (.vrand, o, .none)
  | .vdeq o m => some (.vdeq, o, .vec m)
  | .gang o => some (.gang, o, .none)
  | .mma o m => some (.mma, o, .mat m)
  | .mmaz o m => some (.mmaz, o, .mat m)
  | .mmas o m => some (.mmas, o, .mat m)
  | .mzero o => some (.mzero, o, .none)
  | .mdrain o => some (.mdrain, o, .none)
  | .mwait o => some (.mwait, o, .none)
  | .sclsend o => some (.sclsend, o, .none)
  | .syscall o => some (.syscall, o, .none)
  | .tret o => some (.tret, o, .none)
  | .ctxsv o => some (.ctxsv, o, .none)
  | .ctxld o => some (.ctxld, o, .none)
  | .gauge o => some (.gauge, o, .none)
  | .gread o => some (.gread, o, .none)
  | .tmark o => some (.tmark, o, .none)
  | .idle o => some (.idle, o, .none)
  | .faultrpt o => some (.faultrpt, o, .none)
  | .supstep o => some (.supstep, o, .none)
  | _ => none

/-- Steps 2 and 3 of R106 on the first twelve bytes: the opcode, the modifier and the number of literal parcels. -/
def decodeHead (w : Nat) : Except DErr (Opc × ModVal × Nat) :=
  match opcOf (fieldAt w 0 8) with
  | none => .error .opcode
  | some c =>
    let lit := fieldAt w 92 2
    let lits := [fieldAt w 12 16, fieldAt w 28 16, fieldAt w 44 16].filter (fun f => f / 4096 == 10)
    if fieldAt w 94 2 ≠ 0 then .error (.encoding 2)
    else if lit = 3 then .error (.encoding 3)
    else if fieldAt w 82 10 ≠ 0 then .error (.encoding 4)
    else
      match checkMod c (fieldAt w 60 16) with
      | none => .error (.encoding 5)
      | some v =>
        match lits with
        | [] => if lit = 0 then .ok (c, v, 0) else .error (.encoding 6)
        | [f] =>
          if lit = 0 ∨ (f % 4096 = 0 ∧ lit = 2) ∨ (f % 4096 = 1 ∧ lit = 1) then .error (.encoding 6)
          else .ok (c, v, lit)
        | _ => .error (.encoding 6)

/-- The guard and the hints of a word (R72, R76). -/
def guardOf (w : Nat) : Guard := { neg := bitAt w 11, prd := BitVec.ofNat 3 (fieldAt w 8 3) }
def hintOf (w : Nat) : Hint := { gap := BitVec.ofNat 4 (fieldAt w 76 4), yld := bitAt w 80, last := bitAt w 81 }

/-- Step 5 of R106: the operands, with the literal parcels. -/
def decodeRest (c : Opc) (v : ModVal) (w lit : Nat) : Except DErr Instr :=
  let cls := slotCls c v
  match (operandOf (fieldAt w 12 16) lit).filter (admits cls.1) with
  | none => .error (.operand 7)
  | some d =>
    match (operandOf (fieldAt w 28 16) lit).filter (admits cls.2.1) with
    | none => .error (.operand 8)
    | some a =>
      match (operandOf (fieldAt w 44 16) lit).filter (admits cls.2.2) with
      | none => .error (.operand 9)
      | some b =>
        match ofParts c { g := guardOf w, h := hintOf w, d := d, a := a, b := b } v with
        | some i => .ok i
        | none => .error (.encoding 5)

/-- The bytes of an instruction with so many literal parcels (R71). -/
def lenOf (parcels : Nat) : Nat := 12 + 4 * parcels

/-- What the bytes at a program counter encode, and how many of them the instruction takes (R70, R71, R106). UDF is
decided by OPC alone (R90). -/
def decode (bs : List Byte) : Except DErr (Instr × Nat) :=
  if bs.length < 12 then .error .short
  else
    let w := leNat (bs.take 12)
    if fieldAt w 0 8 = 0 then .ok (.udf, 12)
    else
      match decodeHead w with
      | .error e => .error e
      | .ok (c, v, n) =>
        if bs.length < lenOf n then .error .short
        else
          match decodeRest c v w (leNat ((bs.drop 12).take (4 * n))) with
          | .error e => .error e
          | .ok i => .ok (i, lenOf n)

/-- The error code of a refused word (R106, R405). -/
def derrCode : DErr → Nat
  | .opcode => 0x0101
  | .operand _ => 0x0102
  | .encoding _ => 0x0103
  | .short => 0x0101

/-- The FIELD of a refused word (R106). -/
def derrField : DErr → Nat
  | .opcode => 1
  | .operand f => f
  | .encoding f => f
  | .short => 0

/-- The operand that takes the literal parcels, if any (R71). -/
def litOf (o : Ops) : Operand :=
  if isLit o.d then o.d else if isLit o.a then o.a else if isLit o.b then o.b else .none

/-- The 96-bit word of an instruction (R70). -/
def wordOf (c : Opc) (o : Ops) (v : ModVal) : Nat :=
  (opcCode c).toNat + o.g.prd.toNat * 2 ^ 8 + bitNat o.g.neg * 2 ^ 11
    + operandBits o.d * 2 ^ 12 + operandBits o.a * 2 ^ 28 + operandBits o.b * 2 ^ 44
    + modCode v * 2 ^ 60
    + (o.h.gap.toNat + bitNat o.h.yld * 2 ^ 4 + bitNat o.h.last * 2 ^ 5) * 2 ^ 76
    + litParcels (litOf o) * 2 ^ 92

/-- The bytes of a well-formed instruction, the word and then its literal parcels; none for a step that no word
encodes. -/
def encode (i : Instr) : Option (List Byte) :=
  match i with
  | .udf => some (leBytes 12 0)
  | _ =>
    match partsOf i with
    | some (c, o, v) =>
      some (leBytes 12 (wordOf c o v) ++ leBytes (4 * litParcels (litOf o)) (litNat (litOf o)))
    | none => none

/-- The bytes an instruction takes (R71). -/
def instrLen (o : Ops) : Nat := lenOf (litParcels (litOf o))

/-- The instruction the decoder reads from an instruction whose bits are w, the first parcel lowest; the bits above
nbits are 0. The longest instruction takes twenty bytes. -/
def decodeTableWord (nbits w : Nat) : Option Instr :=
  match decode (leBytes 20 (w % 2 ^ nbits)) with
  | .ok (i, _) => some i
  | .error _ => none

end Sys2Proof
end

