-- ==== Sys2Proof/Machine/Bits.lean ====
section
/-! DEFINITION. Bit fields, sign extension, byte order and the finite maps that every part of the machine uses. -/

namespace Sys2Proof.Machine

/-- The signed reading of the low n bits of a number. -/
def signedOf (n x : Nat) : Int :=
  let y := x % 2 ^ n
  if n ≠ 0 ∧ 2 ^ (n - 1) ≤ y then (y : Int) - (2 ^ n : Nat) else (y : Int)

/-- The number x mod 2^n, for any integer x. -/
def modBits (n : Nat) (x : Int) : Nat := (x % ((2 ^ n : Nat) : Int)).toNat

/-- sext64(x, n): bit n - 1 of x copied upward into 64 bits (R150). -/
def sextTo64 (n x : Nat) : W64 := BitVec.ofInt 64 (signedOf n x)

/-- clamp(x, lo, hi) (R150, R206). -/
def clampInt (x lo hi : Int) : Int := if x < lo then lo else if hi < x then hi else x

/-- A register value from bytes, the first the least significant. -/
def leW64 (bs : List Byte) : W64 := BitVec.ofNat 64 (leNat bs)

/-- The n low bytes of a register. -/
def w64Bytes (n : Nat) (x : W64) : List Byte := leBytes n x.toNat

/-- n bytes of a list from an offset, each byte beyond its end 0 (R113). -/
def sliceZ (bs : List Byte) (ofs n : Nat) : List Byte :=
  let t := (bs.drop ofs).take n
  t ++ List.replicate (n - t.length) 0

/-- n bytes of a list from an offset as a number. -/
def leAt (bs : List Byte) (ofs n : Nat) : Nat := leNat (sliceZ bs ofs n)

/-- A list with the bytes bs laid over it from an offset. -/
def overlay (base bs : List Byte) (ofs : Nat) : List Byte :=
  base.take ofs ++ bs ++ base.drop (ofs + bs.length)

/-- 2^SIZE bytes (R98). -/
def sizeBytes : Size → Nat
  | .b => 1
  | .h => 2
  | .w => 4
  | .d => 8

/-- The value under a key, or the default. -/
def amGet {α : Type} (d : α) : AMap α → Nat → α
  | [], _ => d
  | (k, v) :: t, n => if k = n then v else amGet d t n

/-- The value under a key, if listed. -/
def amFind {α : Type} : AMap α → Nat → Option α
  | [], _ => none
  | (k, v) :: t, n => if k = n then some v else amFind t n

/-- The map with a value under a key, in key order. -/
def amSet {α : Type} : AMap α → Nat → α → AMap α
  | [], n, v => [(n, v)]
  | (k, w) :: t, n, v =>
    if n < k then (n, v) :: (k, w) :: t else if n = k then (n, v) :: t else (k, w) :: amSet t n v

/-- The map without a key. -/
def amDel {α : Type} (m : AMap α) (n : Nat) : AMap α := m.filter (fun p => p.1 != n)

/-- A list with its k-th element removed. -/
def dropAt {α : Type} (l : List α) (k : Nat) : List α := l.take k ++ l.drop (k + 1)

/-- A list with its k-th element changed. -/
def updAt {α : Type} (l : List α) (k : Nat) (f : α → α) : List α :=
  match l[k]? with
  | some x => l.set k (f x)
  | none => l

/-- The number of bits of a number, 0 for 0, found by halving at most fuel times. -/
def bitLenF : Nat → Nat → Nat
  | 0, _ => 0
  | fuel + 1, x => if x = 0 then 0 else 1 + bitLenF fuel (x / 2)

/-- The number of bits of a number. -/
def bitLen (x : Nat) : Nat := if x = 0 then 0 else Nat.log2 x + 1

/-- floor(sqrt x) from the bits below 2^n. -/
def isqrtF : Nat → Nat → Nat → Nat
  | 0, _, r => r
  | n + 1, x, r => let r' := r + 2 ^ n; isqrtF n x (if r' * r' ≤ x then r' else r)

/-- A natural number below a bound as a list 0 … n - 1. -/
def upTo (n : Nat) : List Nat := List.range n

/-- Two half-open ranges meet. -/
def rangesMeet (a la b lb : Nat) : Bool := decide (a < b + lb ∧ b < a + la ∧ 0 < la ∧ 0 < lb)

/-- [a, a + n) lies in [b, b + m). -/
def rangeIn (a n b m : Nat) : Bool := decide (b ≤ a ∧ a + n ≤ b + m)

end Sys2Proof.Machine
end

