-- ==== Sys2Proof/Machine/Numbers.lean ====
section
/-! DEFINITION. Numbers to the bit (chapter 9 of the spec): the integer and float formats, the one rounding helper,
conversions, stochastic rounding, comparison and the exact results of the arithmetic operations. -/

namespace Sys2Proof.Machine

/-- The exception flags of R225 in the FPFLAGS layout of R252. -/
def fNV : Nat := 1
def fDZ : Nat := 2
def fOF : Nat := 4
def fUF : Nat := 8
def fIX : Nat := 16

/-- A float format (R213). -/
structure Fmt where
  width : Nat
  frac : Nat
  bias : Nat
  maxFin : Nat
  inf : Option Nat
  canon : Nat
  deriving DecidableEq, Repr

/-- The five formats (R213). An integer type has no format and reads as F32. -/
def fmtOf : VType → Fmt
  | .bf16 => { width := 16, frac := 7, bias := 127, maxFin := 0x7F7F, inf := some 0x7F80, canon := 0x7FC0 }
  | .f16 => { width := 16, frac := 10, bias := 15, maxFin := 0x7BFF, inf := some 0x7C00, canon := 0x7E00 }
  | .f8a => { width := 8, frac := 3, bias := 7, maxFin := 0x7E, inf := none, canon := 0x7F }
  | .f8b => { width := 8, frac := 2, bias := 15, maxFin := 0x7B, inf := some 0x7C, canon := 0x7E }
  | _ => { width := 32, frac := 23, bias := 127, maxFin := 0x7F7FFFFF, inf := some 0x7F800000, canon := 0x7FC00000 }

/-- A float read exactly: a NaN, quiet or signalling, an infinity, or (-1)^neg × m × 2^e. -/
inductive FVal where
  | nan (signalling : Bool)
  | inf (neg : Bool)
  | fin (neg : Bool) (m : Nat) (e : Int)
  deriving DecidableEq, Repr

/-- The value of a bit pattern (R213, R214). -/
def readF (f : Fmt) (bits : Nat) : FVal :=
  let b := bits % 2 ^ f.width
  let neg := bitAt b (f.width - 1)
  let mag := b % 2 ^ (f.width - 1)
  let ex := mag / 2 ^ f.frac
  let fr := mag % 2 ^ f.frac
  let emin : Int := 1 - (f.bias : Int)
  match f.inf with
  | some i =>
    if mag = i then .inf neg
    else if i < mag then .nan (!bitAt fr (f.frac - 1))
    else if ex = 0 then .fin neg fr (emin - f.frac)
    else .fin neg (2 ^ f.frac + fr) ((ex : Int) - f.bias - f.frac)
  | none =>
    if mag = f.canon then .nan false
    else if ex = 0 then .fin neg fr (emin - f.frac)
    else .fin neg (2 ^ f.frac + fr) ((ex : Int) - f.bias - f.frac)

/-- An exact real result: a NaN, an infinity, or a magnitude m × 2^e, or, when more is set, a magnitude strictly between
m × 2^e and (m + 1) × 2^e that has no finite binary expansion. -/
inductive Exact where
  | nan
  | inf (neg : Bool)
  | num (neg : Bool) (m : Nat) (e : Int) (more : Bool)
  deriving DecidableEq, Repr

/-- A bit pattern with the flags raised in forming it. -/
structure FRes where
  bits : Nat
  flags : Nat
  deriving DecidableEq, Repr

/-- xorshift64 (R221). -/
def xorshift64 (x : W64) : W64 :=
  let a := x ^^^ (x <<< 13)
  let b := a ^^^ (a >>> 7)
  b ^^^ (b <<< 17)

/-- The golden-ratio multiplier of R221. -/
def seedMul : W64 := 0x9E3779B97F4A7C15

/-- lane_random(st, i) (R221). -/
def laneRandom (st : W64) (i : Nat) : Nat :=
  (xorshift64 (st ^^^ (BitVec.ofNat 64 i * seedMul))).toNat / 2 ^ 48

/-- How a magnitude is cut at an ulp 2^u: the whole ulps k, whether anything is discarded, how the discarded part
compares with one half (0 below, 1 equal, 2 above), and its first 16 bits. -/
structure Cut where
  k : Nat
  inexact : Bool
  half : Nat
  top16 : Nat
  deriving DecidableEq, Repr

/-- The cut of (m + more) × 2^e at 2^u (R218). -/
def cutAt (m : Nat) (e : Int) (more : Bool) (u : Int) : Cut :=
  let sh := u - e
  if sh ≤ 0 then { k := m * 2 ^ (-sh).toNat, inexact := more, half := 0, top16 := 0 }
  else
    let s := sh.toNat
    if bitLen m + 64 < s then { k := 0, inexact := decide (m ≠ 0) || more, half := 0, top16 := 0 }
    else
      let r := m % 2 ^ s
      { k := m / 2 ^ s, inexact := decide (r ≠ 0) || more,
        half := if r < 2 ^ (s - 1) then 0 else if r = 2 ^ (s - 1) && !more then 1 else 2,
        top16 := if 16 ≤ s then r / 2 ^ (s - 16) else r * 2 ^ (16 - s) }

/-- Whether the magnitude rounds up (R216, R221). DYN is resolved before it reaches here; st is the generator state and
i the element index of RSR. -/
def roundsUp (m : Rnd) (c : Cut) (neg : Bool) (st : W64) (i : Nat) : Bool :=
  match m with
  | .rne | .dyn => c.half == 2 || (c.half == 1 && c.k % 2 == 1)
  | .rtz => false
  | .rdn => c.inexact && neg
  | .rup => c.inexact && !neg
  | .rna => decide (1 ≤ c.half)
  | .rsr => decide (2 ^ 16 ≤ c.top16 + laneRandom st i)

/-- A sign put on a magnitude pattern. -/
def withSign (f : Fmt) (neg : Bool) (mag : Nat) : Nat := mag + bitNat neg * 2 ^ (f.width - 1)

/-- The overflow value of R219, with the flags it raises. -/
def overflowValue (f : Fmt) (m : Rnd) (neg sat : Bool) : FRes :=
  let toZero := match m with
    | .rtz => true
    | .rdn => !neg
    | .rup => neg
    | _ => false
  if sat || toZero then { bits := withSign f neg f.maxFin, flags := fOF + fIX }
  else
    match f.inf with
    | some i => { bits := withSign f neg i, flags := fOF + fIX }
    | none => { bits := f.canon, flags := fNV + fOF + fIX }

/-- round_float (R218, R219). -/
def roundFloat (x : Exact) (f : Fmt) (m : Rnd) (st : W64) (i : Nat) (sat : Bool) : FRes :=
  match x with
  | .nan => { bits := f.canon, flags := 0 }
  | .inf neg =>
    if sat then { bits := withSign f neg f.maxFin, flags := 0 }
    else
      match f.inf with
      | some i => { bits := withSign f neg i, flags := 0 }
      | none => { bits := f.canon, flags := fNV }
  | .num neg mg e more =>
    if mg = 0 ∧ more = false then { bits := withSign f neg 0, flags := 0 }
    else
      let emin : Int := 1 - (f.bias : Int)
      let fl : Int := (bitLen mg : Int) - 1 + e
      let ee : Int := if fl < emin then emin else fl
      if (f.bias : Int) + 2 < fl then overflowValue f m neg sat
      else
        let c := cutAt mg e more (ee - f.frac)
        let k := c.k + bitNat (roundsUp m c neg st i)
        let bits := ((ee + f.bias).toNat * 2 ^ f.frac + k) - 2 ^ f.frac
        if f.maxFin < bits then overflowValue f m neg sat
        else
          let tiny :=
            if fl < emin then
              let c' := cutAt mg e more (fl - f.frac)
              !(decide (fl = emin - 1) && decide (c'.k + bitNat (roundsUp m c' neg st i) = 2 ^ (f.frac + 1)))
            else false
          { bits := withSign f neg bits,
            flags := (if c.inexact then fIX else 0) + (if c.inexact && tiny then fUF else 0) }

/-- A float as an exact result. -/
def exactOf : FVal → Exact
  | .nan _ => .nan
  | .inf s => .inf s
  | .fin s m e => .num s m e false

/-- NV when an operand is a signalling NaN (R214). -/
def sigFlag : FVal → Nat
  | .nan true => fNV
  | _ => 0

def isNan : FVal → Bool
  | .nan _ => true
  | _ => false

def negF : FVal → FVal
  | .nan s => .nan s
  | .inf s => .inf (!s)
  | .fin s m e => .fin (!s) m e

/-- An integer times 2^e as an exact result; a zero takes the sign given. -/
def exactInt (x : Int) (e : Int) (zneg : Bool) : Exact :=
  if x = 0 then .num zneg 0 0 false else .num (decide (x < 0)) x.natAbs e false

/-- The exact sum of two exact finite numbers (R219). -/
def sumNum (s : Bool) (m : Nat) (e : Int) (s' : Bool) (m' : Nat) (e' : Int) (mode : Rnd) : Exact :=
  if m = 0 ∧ m' = 0 then .num (if s = s' then s else decide (mode = .rdn)) 0 0 false
  else
    let lo := if e < e' then e else e'
    let a : Int := (m * 2 ^ (e - lo).toNat : Nat)
    let b : Int := (m' * 2 ^ (e' - lo).toNat : Nat)
    exactInt ((if s then -a else a) + (if s' then -b else b)) lo (decide (mode = .rdn))

/-- A + B, with the flags of its operands (R225). -/
def addF (a b : FVal) (mode : Rnd) : Exact × Nat :=
  let fl := sigFlag a ||| sigFlag b
  match a, b with
  | .nan _, _ | _, .nan _ => (.nan, fl)
  | .inf s, .inf s' => if s = s' then (.inf s, fl) else (.nan, fNV)
  | .inf s, _ => (.inf s, fl)
  | _, .inf s => (.inf s, fl)
  | .fin s m e, .fin s' m' e' => (sumNum s m e s' m' e' mode, fl)

/-- A × B (R225). -/
def mulF (a b : FVal) : Exact × Nat :=
  let fl := sigFlag a ||| sigFlag b
  match a, b with
  | .nan _, _ | _, .nan _ => (.nan, fl)
  | .inf s, .inf s' => (.inf (s != s'), fl)
  | .inf s, .fin s' m _ => if m = 0 then (.nan, fNV) else (.inf (s != s'), fl)
  | .fin s m _, .inf s' => if m = 0 then (.nan, fNV) else (.inf (s != s'), fl)
  | .fin s m e, .fin s' m' e' => (.num (s != s') (m * m') (e + e') false, fl)

/-- A × B + D with one rounding (R225, R236). -/
def fmaF (a b d : FVal) (mode : Rnd) : Exact × Nat :=
  let (p, fl) := mulF a b
  let fl := fl ||| sigFlag d
  match p, d with
  | .nan, _ | _, .nan _ => (.nan, fl)
  | .inf s, .inf s' => if s = s' then (.inf s, fl) else (.nan, fl ||| fNV)
  | .inf s, _ => (.inf s, fl)
  | _, .inf s => (.inf s, fl)
  | .num s m e _, .fin s' m' e' => (sumNum s m e s' m' e' mode, fl)

/-- 1 / A (R239). -/
def rcpF : FVal → Exact × Nat
  | .nan s => (.nan, sigFlag (.nan s))
  | .inf s => (.num s 0 0 false, 0)
  | .fin s m e =>
    if m = 0 then (.inf s, fDZ)
    else
      let k := 300 + bitLen m
      (.num s (2 ^ k / m) (-e - k) (decide (2 ^ k % m ≠ 0)), 0)

/-- 1 / sqrt A (R239). -/
def rsqF : FVal → Exact × Nat
  | .nan s => (.nan, sigFlag (.nan s))
  | .inf false => (.num false 0 0 false, 0)
  | .inf true => (.nan, fNV)
  | .fin s m e =>
    if m = 0 then (.inf s, fDZ)
    else if s then (.nan, fNV)
    else
      let m2 := if e % 2 = 0 then m else 2 * m
      let e2 := if e % 2 = 0 then e else e - 1
      let r := isqrtF 301 (2 ^ 600 / m2) 0
      (.num false r (-(e2 / 2) - 300) (decide (r * r * m2 ≠ 2 ^ 600)), 0)

/-- The fixed point of exp2 and log2: 320 bits after the point. -/
def fixBits : Nat := 320

/-- The sum of the atanh series of t = p / q from term n, in fixed point. -/
def atanhSum : Nat → Nat → Nat → Nat → Nat → Nat
  | 0, _, _, _, _ => 0
  | fuel + 1, n, pw, num, den => pw / n + atanhSum fuel (n + 2) (pw * num / den * num / den) num den

/-- atanh(p / q), for p / q at most 1/3, in fixed point. -/
def atanhFix (p q : Nat) : Nat := atanhSum 120 1 (2 ^ fixBits * p / q) p q

/-- ln 2 in fixed point. -/
def ln2Fix : Nat := 2 * atanhFix 1 3

/-- The sum of the exponential series in fixed point. -/
def expSum : Nat → Nat → Nat → Nat → Nat
  | 0, _, _, _ => 0
  | fuel + 1, n, term, y => term + expSum fuel (n + 1) (term * y / 2 ^ fixBits / n) y

/-- 2^A (R239). Powers of an integer are exact; every other value is irrational and is formed to 320 bits. -/
def exp2F : FVal → Exact × Nat
  | .nan s => (.nan, sigFlag (.nan s))
  | .inf false => (.inf false, 0)
  | .inf true => (.num false 0 0 false, 0)
  | .fin s m e =>
    if m = 0 then (.num false 1 0 false, 0)
    else if 12 < (bitLen m : Int) + e then (.num false 1 (if s then -5000 else 5000) s, 0)
    else
      let den : Nat := 2 ^ (-e).toNat
      let num : Nat := m * 2 ^ e.toNat
      let x : Int := if s then -(num : Int) else num
      let ip := x / (den : Int)
      let fr : Nat := (x % (den : Int)).toNat
      if fr = 0 then (.num false 1 ip false, 0)
      else
        let y : Nat := fr * ln2Fix / den
        (.num false (expSum 90 1 (2 ^ fixBits) y) (ip - fixBits) true, 0)

/-- log2 A (R239). The logarithm of a power of two is exact; every other one is irrational. -/
def log2F : FVal → Exact × Nat
  | .nan s => (.nan, sigFlag (.nan s))
  | .inf false => (.inf false, 0)
  | .inf true => (.nan, fNV)
  | .fin s m e =>
    if m = 0 then (.inf true, fDZ)
    else if s then (.nan, fNV)
    else
      let b := bitLen m - 1
      let n : Int := (b : Int) + e
      if m = 2 ^ b then (exactInt n 0 false, 0)
      else
        let l := 2 * atanhFix (m - 2 ^ b) (m + 2 ^ b) * 2 ^ fixBits / ln2Fix
        let v : Int := n * (2 ^ fixBits : Nat) + l
        if v < 0 then (.num true (v.natAbs - 1) (-(fixBits : Int)) true, 0)
        else (.num false v.natAbs (-(fixBits : Int)) true, 0)

/-- A × 2^B with a single rounding (R240). -/
def scaleF (a : FVal) (b : Int) : Exact × Nat :=
  match a with
  | .nan s => (.nan, sigFlag (.nan s))
  | .inf s => (.inf s, 0)
  | .fin s m e => if m = 0 then (.num s 0 0 false, 0) else (.num s m (e + b) false, 0)

/-- Whether a type is signed (R205). -/
def isSigned : VType → Bool
  | .s8 | .s16 | .s32 => true
  | _ => false

/-- The bits of an element (R230). -/
def vbits (t : VType) : Nat := 8 * vbytes t

/-- The range of a w-bit integer (R205). -/
def loOf (sgn : Bool) (w : Nat) : Int := if sgn then -(2 ^ (w - 1) : Nat) else 0
def hiOf (sgn : Bool) (w : Nat) : Int := if sgn then (2 ^ (w - 1) : Nat) - 1 else (2 ^ w : Nat) - 1

/-- An element read in an integer type (R205). -/
def readInt (t : VType) (x : Nat) : Int :=
  if isSigned t then signedOf (vbits t) x else ((x % 2 ^ vbits t : Nat) : Int)

/-- to_int(x, I, sat) as raw bits (R206). -/
def toInt (x : Int) (t : VType) (sat : Bool) : Nat :=
  modBits (vbits t) (if sat then clampInt x (loOf (isSigned t) (vbits t)) (hiOf (isSigned t) (vbits t)) else x)

/-- A float converted to an integer format (R220), as raw bits with its flags. -/
def floatToInt (x : Exact) (t : VType) (m : Rnd) (st : W64) (i : Nat) : FRes :=
  let lo := loOf (isSigned t) (vbits t)
  let hi := hiOf (isSigned t) (vbits t)
  match x with
  | .nan => { bits := 0, flags := fNV }
  | .inf neg => { bits := modBits (vbits t) (if neg then lo else hi), flags := fNV }
  | .num neg mg e more =>
    if 200 < (bitLen mg : Int) + e then { bits := modBits (vbits t) (if neg then lo else hi), flags := fNV }
    else
      let c := cutAt mg e more 0
      let k := c.k + bitNat (roundsUp m c neg st i)
      let v : Int := if neg then -(k : Int) else k
      if v < lo then { bits := modBits (vbits t) lo, flags := fNV }
      else if hi < v then { bits := modBits (vbits t) hi, flags := fNV }
      else { bits := modBits (vbits t) v, flags := if c.inexact then fIX else 0 }

/-- A key that orders finite floats and infinities, both zeros equal (R222). -/
def keyF : FVal → Int
  | .nan _ => 0
  | .inf s => if s then -(2 ^ 600 : Nat) else (2 ^ 600 : Nat)
  | .fin s m e => let v : Int := (m * 2 ^ (e + 200).toNat : Nat); if s then -v else v

/-- The order of R223, in which -0 is less than +0. -/
def keyZ (a : FVal) : Int :=
  match a with
  | .fin true 0 _ => -1
  | _ => 2 * keyF a

/-- A relation of two integers (R97). -/
def relInt (r : Rel) (x y : Int) : Bool :=
  match r with
  | .eq => decide (x = y)
  | .ne => decide (x ≠ y)
  | .lt => decide (x < y)
  | .le => decide (x ≤ y)
  | .gt => decide (y < x)
  | .ge => decide (y ≤ x)

/-- A relation of two floats (R222). -/
def relF (r : Rel) (a b : FVal) : Bool :=
  if isNan a || isNan b then decide (r = .ne) else relInt r (keyF a) (keyF b)

/-- MIN and MAX of floats as bits (R223). -/
def minmaxF (f : Fmt) (mx : Bool) (x y : Nat) : FRes :=
  let a := readF f x
  let b := readF f y
  let fl := sigFlag a ||| sigFlag b
  let r :=
    if isNan a && isNan b then f.canon
    else if isNan a then y
    else if isNan b then x
    else if mx then (if keyZ a < keyZ b then y else x)
    else (if keyZ b < keyZ a then y else x)
  { bits := r, flags := fl }

/-- One level of the fixed tree: results (0, 1), (2, 3) and so on (R227). -/
def pairUp {α : Type} (f : α → α → α) : List α → List α
  | a :: b :: t => f a b :: pairUp f t
  | t => t

/-- The fixed binary tree over at most 2^fuel lanes (R227). -/
def treeFold {α : Type} (f : α → α → α) : Nat → List α → List α
  | 0, l => l
  | n + 1, l => treeFold f n (pairUp f l)

/-- The elements of a register (R205, R230). -/
def elemsF : Nat → Nat → List Byte → List Nat
  | 0, _, _ => []
  | n + 1, e, bs => leNat (bs.take e) :: elemsF n e (bs.drop e)

/-- The elements of e bytes of a 256-byte register. -/
def elemsOf (e : Nat) (bs : List Byte) : List Nat := elemsF (256 / e) e bs

/-- The bytes of a list of elements. -/
def elemBytes (e : Nat) (l : List Nat) : List Byte := l.flatMap (leBytes e)

/-- to_scalar(x, T) (R232). -/
def toScalar (x : Nat) (t : VType) : W64 :=
  if isSigned t then sextTo64 (vbits t) x else BitVec.ofNat 64 (x % 2 ^ vbits t)

/-- The float format of an atomic (R99). -/
def ftypeV : FType → VType
  | .f32 => .f32
  | .bf16 => .bf16
  | .f16 => .f16

/-- The value of an E8M0 scale as a power of two; none for the NaN scale (R215). -/
def e8m0 (b : Byte) : Option Int := if b = 0xFF then none else some ((b.toNat : Int) - 127)

/-- old + x rounded to nearest even, as AFADD forms it (R311). -/
def afaddBits (t : FType) (old x : Nat) : Nat :=
  let f := fmtOf (ftypeV t)
  let r := addF (readF f old) (readF f x) .rne
  (roundFloat r.1 f .rne 0 0 false).bits

end Sys2Proof.Machine
end

