-- ==== Sys2Proof/Config.lean ====
section
/-! DEFINITION. What an implementation fixes and what the spec leaves open: constants with no body, of which no proof can
see a value. -/

namespace Sys2Proof.Config

/-- A byte that the spec leaves unspecified (R25, R26), one for each draw and address. -/
opaque freeByte : Nat → Nat → BitVec 8

/-- The address of the first supervisor instruction (R381, R383). -/
opaque supEntry : BitVec 64

/-- The home address of a code byte of the supervisor routine is fixed by the image that the custodian loaded (R383). -/
opaque supByte : Nat → BitVec 8

/-- A number the spec leaves open, drawn afresh each time. -/
opaque freeNat : Nat → Nat

/-- The current budget granted to a stacked pair at a draw, in units of 10 mA (R58). -/
opaque grant : Nat → Nat → Nat

/-- The budget request at a draw, in MHz (R58). -/
opaque budget : Nat → Nat

/-- The device a peer-tier page lies on, and its address there (R174, R355). -/
opaque peerDevice : Nat → Nat

/-- The device ID that the far end of a port reports (R343). -/
opaque farEnd : Nat → Nat

/-- WALL as the custodian sets it at a cold boot (R124, R424). -/
opaque wallAtBoot : Nat → Nat

/-- The GLB page of the table of locks as Limman chooses it at a boot (R315, R420). -/
opaque lockTab : Nat → BitVec 36

/-- The version of the installed Limman image (R388). -/
opaque limmanVersion : Nat → BitVec 64

/-- Whether the signature of a Limman image verifies (R425). -/
opaque imageVerifies : Nat → Bool

/-- A word of the measurement register, by its contents before, the digest it is extended with, and the word (R425). -/
opaque measurement : Nat → BitVec 64

/-- The digest of a boot stage, by its number and the image (R425). -/
opaque stageDigest : Nat → Nat → Nat

/-- The device identity key that a firmware measurement gives with the fused secret (R426). -/
opaque identityKey : Nat → Nat

/-- The bytes of the certificate chain of an identity key, its length, and the bytes of its digest (R426). -/
opaque certByte : Nat → Nat → BitVec 8
opaque certLen : Nat → Nat
opaque certDigest : Nat → Nat → BitVec 8

/-- The bytes of an SPDM response that depend on keys and certificates (R426). -/
opaque spdmByte : Nat → Nat → BitVec 8

/-- Whether an SPDM request authenticates (R426). -/
opaque spdmValid : Nat → Bool

/-- The length of an SPDM response (R426). -/
opaque spdmLen : Nat → Nat

/-- The next sampling distance of a stream at a draw (R417). -/
opaque sampleDraw : Nat → Nat

end Sys2Proof.Config
end

