-- ==== Sys2Proof/Machine/Memory.lean ====
section
/-! DEFINITION. Memory: all the spaces of R164 and the register stores in one flat space of numbered bytes, held in one
canonical form. -/

namespace Sys2Proof.Machine

/-- Bytes whose contents the spec leaves unspecified (R25, R26): [lo, hi), and the draw that fixed them. -/
structure Span where
  lo : Nat
  hi : Nat
  gen : Nat
  deriving DecidableEq, Repr

/-- A memory. cells: addresses strictly rising, no byte 0, none inside a span. spans: rising, apart and not empty. An
address in neither reads 0 (R407: cleared). -/
structure Memory where
  cells : List Host.Cell := []
  spans : List Span := []
  deriving DecidableEq, Repr

/-- What an address that no cell lists and no span covers reads as (R407). -/
def unlistedByte : Byte := 0

/-- The byte a list of cells gives an address. -/
def cellAt : List Host.Cell → Nat → Byte
  | [], _ => unlistedByte
  | (k, v) :: t, a => if k = a then v else cellAt t a

/-- The span that covers an address. -/
def spanAt : List Span → Nat → Option Span
  | [], _ => none
  | x :: t, a => if x.lo ≤ a ∧ a < x.hi then some x else spanAt t a

/-- The byte at an address. -/
def rdByte (m : Memory) (a : Nat) : Byte :=
  match spanAt m.spans a with
  | some x => Config.freeByte x.gen a
  | none => cellAt m.cells a

/-- n bytes from an address. -/
def rdBytes (m : Memory) (a : Nat) : Nat → List Byte
  | 0 => []
  | n + 1 => rdByte m a :: rdBytes m (a + 1) n

/-- n bytes from an address as a number, the lowest the least significant (R6). -/
def rdNat (m : Memory) (a n : Nat) : Nat := leNat (rdBytes m a n)

/-- The cells of a block of bytes, the zeros left out. -/
def blockCells : Nat → List Byte → List Host.Cell
  | _, [] => []
  | a, b :: t => if b = unlistedByte then blockCells (a + 1) t else (a, b) :: blockCells (a + 1) t

/-- A span with [lo, hi) cut out of it. -/
def cutSpan (x : Span) (lo hi : Nat) : List Span :=
  (if x.lo < min x.hi lo then [{ x with hi := min x.hi lo }] else [])
    ++ (if max x.lo hi < x.hi then [{ x with lo := max x.lo hi }] else [])

/-- Spans with [lo, hi) cut out of each. -/
def cutSpans (l : List Span) (lo hi : Nat) : List Span := l.flatMap (fun x => cutSpan x lo hi)

/-- The memory with bytes written from an address. -/
def wrBytes (m : Memory) (a : Nat) (bs : List Byte) : Memory :=
  if bs = [] then m
  else
    { cells := m.cells.filter (fun c => c.1 < a) ++ blockCells a bs
        ++ m.cells.filter (fun c => a + bs.length ≤ c.1),
      spans := cutSpans m.spans a (a + bs.length) }

/-- A span put in its place among spans. -/
def addSpan : List Span → Span → List Span
  | [], x => [x]
  | y :: t, x => if x.lo < y.lo then x :: y :: t else y :: addSpan t x

/-- The memory with [a, a + n) unspecified, as the draw gen fixes it (R25, R26). -/
def forget (m : Memory) (a n gen : Nat) : Memory :=
  if n = 0 then m
  else
    { cells := m.cells.filter (fun c => c.1 < a) ++ m.cells.filter (fun c => a + n ≤ c.1),
      spans := addSpan (cutSpans m.spans a (a + n)) { lo := a, hi := a + n, gen := gen } }

/-- The memory with n bytes 0 from an address. -/
def wrZeros (m : Memory) (a n : Nat) : Memory :=
  { cells := m.cells.filter (fun c => c.1 < a) ++ m.cells.filter (fun c => a + n ≤ c.1),
    spans := cutSpans m.spans a (a + n) }

/-- The cells rise strictly, none is 0 and none lies in a span. -/
def cellsWf : List Host.Cell → Nat → List Span → Bool
  | [], _, _ => true
  | (k, v) :: t, lo, sp =>
    decide (lo ≤ k) && decide (v ≠ unlistedByte) && (spanAt sp k).isNone && cellsWf t (k + 1) sp

/-- The spans rise, lie apart and are not empty. -/
def spansWf : List Span → Nat → Bool
  | [], _ => true
  | x :: t, lo => decide (lo ≤ x.lo) && decide (x.lo < x.hi) && spansWf t x.hi

/-- The canonical form. -/
def Memory.wf (m : Memory) : Bool := cellsWf m.cells 0 m.spans && spansWf m.spans 0

/-- Where each memory lies in the flat space: GDDR-7, LPDDR-6, vaults, scratchpads, register stores, host memory. -/
def gddrBase : Nat := 0
def lpddrBase : Nat := 2 ^ 40
def vaultBase : Nat := 2 ^ 42
def spBase : Nat := 2 ^ 43
def rsBase : Nat := 2 ^ 44
def hostBase : Nat := 2 ^ 48

/-- The home address of an offset in vault v (R164). -/
def vaultAddr (v ofs : Nat) : Nat := vaultBase + v * 2 ^ 23 + ofs

/-- The home address of a byte of a core's scratchpad (R165). -/
def spAddr (core ofs : Nat) : Nat := spBase + core * 2 ^ 17 + ofs

/-- The home address of a byte of a core's register store (R80). -/
def rsAddr (core ofs : Nat) : Nat := rsBase + core * 2 ^ 16 + ofs

end Sys2Proof.Machine
end

