-- ==== Sys2Proof/Machine/State.lean ====
section
/-! DEFINITION. The state of the device: every register, memory, queue and table that the spec names, as plain data, with
its value after reset. The default value of a field is its reset value; notes/assumptions says which of them the spec does
not give. -/

namespace Sys2Proof.Machine

/-- Why the machine stops. -/
inductive Fault where
  /-- Raised by a step of the agenda that names a core, cluster, pair, station, port, context or host address which the device
  does not have. Safe: no step of the device does that. -/
  | noSuchUnit (number : Nat)
  /-- Raised when the agenda names a stream to issue that has no running activation, has stopped, or is frozen by the
  supervisor routine. Safe: such a stream issues nothing (R114). -/
  | notIssuing (core : Nat) (pilot : Bool)
  deriving DecidableEq, Repr

/-- Why a step has no meaning. -/
inductive Refusal where
  /-- Raised by an arm of exec that has no meaning yet. Safe: nothing is claimed of it. -/
  | notModelled (mnemonic : String)
  /-- Raised by step when the agenda asks for an instruction word as if it were a step of an engine. Safe: the device
  has no such step. -/
  | notAnEvent
  deriving DecidableEq, Repr

/-- STATE of a bind record (R49). -/
inductive BerthState where
  | free | loading | live | stopping
  deriving DecidableEq, Repr

/-- Why a berth is STOPPING (R50, R397). -/
inductive StopWhy where
  | preempt | migrate (dst : Nat) | failGraph | debug
  deriving DecidableEq, Repr

/-- What a held stream waits for (R75, R129, R137, R144, R180, R254, R260, R319, R355, R394). -/
inductive WaitWhy where
  | queue (q : BitVec 4)
  | room
  | timed
  | count
  | replay
  | remote (op : Nat)
  | idle
  | commit
  | window
  | gang
  deriving DecidableEq, Repr

/-- An entry of a queue (R119). -/
inductive QEnt where
  | word (v : W64)
  | block (bytes : List Byte)
  | token (pc : W64)
  deriving DecidableEq, Repr

/-- A vector source as resolved at issue (R81, R231). -/
inductive VSrc where
  | none
  | reg (addr : Nat)
  | data (bytes : List Byte)
  | scalar (v : W64)
  deriving DecidableEq, Repr

/-- A vector destination as resolved at issue (R81, R232). -/
inductive VDst where
  | none
  | reg (addr : Nat)
  | queue (q : BitVec 4)
  | scalar (n : BitVec 6)
  deriving DecidableEq, Repr

/-- The kinds of matrix-engine operations (R268). -/
inductive MKind where
  | mma | mmaz | mmas | mzero | mdrain | sclsend
  deriving DecidableEq, Repr

/-- Who waits in a park of a translation station (R177). -/
inductive ParkWho where
  | stream (core : Nat) (pilot : Bool)
  | fetch (core : Nat) (pilot : Bool)
  | copy (id : Nat)
  | remote (src : Nat) (pkt : Pkt)
  deriving DecidableEq, Repr

/-- The states of a tile task (R23, R46, R65). -/
inductive TaskState where
  | waiting | eligible | bound | saved | finished | failed
  deriving DecidableEq, Repr

/-- The states of an ordered task (R328 to R332). -/
inductive OState where
  | accepted | running | awaiting | committed | discarded
  deriving DecidableEq, Repr

/-- The kinds of engine operations of R287. -/
inductive CopyKind where
  | cpy | cpy2 | cpyt | mcast | pce
  deriving DecidableEq, Repr

/-- The states of a copy (R194, R195). -/
inductive CopyState where
  | running
  | parked (chunk : Nat)
  | failed
  deriving DecidableEq, Repr

/-- The states of a rack entry (R359). -/
inductive RackState where
  | free | pending | landed | dead
  deriving DecidableEq, Repr

/-- What a remote operation asks for (R355, R360, R363); a chunk of a copy on a page of a peer (R194). -/
inductive RKind where
  | load | store | tab | query | chunk
  deriving DecidableEq, Repr

/-- What moves next (the model's own): a stream issues, an engine or an outside party takes a step, or one cyc of the
running clocks passes. -/
inductive Move where
  | issue (core : Nat) (pilot : Bool)
  | event (i : Instr)
  | tick
  deriving DecidableEq, Repr

/-- A message (R203): header, payload and the times dispatch hardware keeps with it (R412). -/
structure Msg where
  /-- Graph the message belongs to (R203). -/
  gid : Nat := 0
  /-- Route tag (R10, R203). -/
  route : BitVec 32 := 0
  /-- Sender logical core; 0xFFFF for START and ordered tasks (R203). -/
  sender : BitVec 16 := 0
  /-- Sender sequence (R203). -/
  seq : BitVec 16 := 0
  /-- WALL[31:0] at SEND (R203). -/
  sendt : BitVec 32 := 0
  /-- Payload length, 0 to 256 (R203). -/
  len : Nat := 0
  /-- Payload bytes (R113). -/
  payload : List Byte := []
  /-- Flag ORD (R203). -/
  ord : Bool := false
  /-- Flag DET (R203). -/
  det : Bool := false
  /-- WALL at which it first reached dispatch hardware (R412). -/
  arr : Nat := 0
  /-- Delivery window it belongs to (R304). -/
  win : Nat := 0
  /-- It holds a reserved channel slot (R204). -/
  slot : Bool := false
  deriving DecidableEq, Repr

/-- A parked message (R116) and the WALL at which it was parked (R117). -/
structure Parked where
  /-- The message (R116). -/
  msg : Msg := {}
  /-- WALL of parking (R117). -/
  since : Nat := 0
  deriving DecidableEq, Repr

/-- A window mark in transit (R304). -/
structure Mark where
  /-- Graph (R304). -/
  gid : Nat := 0
  /-- Sending logical core (R304). -/
  sender : BitVec 16 := 0
  /-- Destination logical core (R304). -/
  dest : Nat := 0
  /-- Channel (R304). -/
  chan : BitVec 3 := 0
  /-- Sender sequence it took (R304). -/
  seq : BitVec 16 := 0
  deriving DecidableEq, Repr

/-- A line served to a stream (R68), or the trap its fetch ended in (R67). -/
structure FetchLine where
  /-- PASID (R68). -/
  pasid : BitVec 20 := 0
  /-- Line address / 64 (R68). -/
  line : Nat := 0
  /-- 64 bytes (R68). -/
  bytes : List Byte := []
  /-- Code of the trap taken when the stream is about to issue from it (R67). -/
  fault : Option Nat := none
  deriving DecidableEq, Repr

/-- A byte of a read set (R322). -/
structure ReadByte where
  /-- Its home address (R322). -/
  addr : Nat := 0
  /-- The value the region saw (R322). -/
  val : Byte := 0
  /-- Its load slot (R323). -/
  slot : Option Nat := none
  /-- The uncommitted task it was forwarded by, and the number of that run (R331). -/
  fwd : Option (Nat × Nat) := none
  deriving DecidableEq, Repr

/-- A buffered store of a region (R322, R323). -/
structure RStore where
  /-- Home address (R322). -/
  addr : Nat := 0
  /-- Bytes as buffered (R322). -/
  bytes : List Byte := []
  /-- Address in its space (R325). -/
  va : W64 := 0
  /-- Its space (R322). -/
  space : Space := .glb
  /-- Slot and constant of symbolic data (R323). -/
  sdata : Option (Nat × W64) := none
  /-- Slot and constant of a symbolic address (R323). -/
  saddr : Option (Nat × W64) := none
  /-- Scale of a symbolic address (R323). -/
  scale : Nat := 1
  /-- Base of a symbolic address (R323). -/
  base : W64 := 0
  /-- Extent of the record (R325). -/
  ext : Option (Nat × Nat) := none
  deriving DecidableEq, Repr

/-- A load slot (R323). -/
structure LSlot where
  /-- Home address (R323). -/
  addr : Nat := 0
  /-- Bytes (R323). -/
  size : Nat := 8
  /-- Sign-extended (R323). -/
  sx : Bool := false
  /-- Pinned (R323). -/
  pinned : Bool := false
  /-- The value the region saw (R323). -/
  val : W64 := 0
  deriving DecidableEq, Repr

/-- A recorded comparison (R323). -/
structure Con where
  /-- Slot (R323). -/
  slot : Nat := 0
  /-- Constant (R323). -/
  c : W64 := 0
  /-- The tagged side is OPA (R323). -/
  left : Bool := true
  /-- REL (R323). -/
  rel : Rel := .eq
  /-- SGN (R323). -/
  sgn : Bool := false
  /-- W (R323). -/
  w : Bool := false
  /-- The untagged value (R323). -/
  b : W64 := 0
  /-- Outcome (R323). -/
  out : Bool := false
  deriving DecidableEq, Repr

/-- A request parked at a station (R177). -/
structure ParkedReq where
  /-- Who waits (R177). -/
  who : ParkWho := .copy 0
  /-- KIND (R178). -/
  kind : Nat := 0
  /-- PASID (R178). -/
  pasid : BitVec 20 := 0
  /-- Page (R178). -/
  vpage : Nat := 0
  /-- Issuing cluster (R178). -/
  cluster : Nat := 0
  deriving DecidableEq, Repr

/-- A float atomic held at an ORDRED region (R293). -/
structure HeldAtomic where
  /-- Region number (R293). -/
  region : Nat := 0
  /-- Home addresses and bytes (R293). -/
  pieces : List (Nat × Nat) := []
  /-- The atomic (R293). -/
  atom : Atom := {}
  /-- Logical index of the issuer (R293). -/
  lcore : Nat := 0
  /-- Governing shape (R293). -/
  shape : Nat := 0
  /-- The phase of its barrier that ends the section it was issued in (R293). -/
  phase : BitVec 32 := 0
  deriving DecidableEq, Repr

/-- A packet sent and not acknowledged (R349). -/
structure SentPkt where
  /-- The packet (R349). -/
  pkt : Pkt := {}
  /-- WALL of its last transmission (R349). -/
  wall : Nat := 0
  /-- Retransmissions (R349). -/
  tries : Nat := 0
  /-- Port of its last transmission (R349). -/
  port : Option Nat := none
  deriving DecidableEq, Repr

/-- A remote operation (R355 to R363). -/
structure ROp where
  /-- Identity (R355). -/
  id : Nat := 0
  /-- What it asks for (R355). -/
  kind : RKind := .load
  /-- Issuing core (R355). -/
  core : Nat := 0
  /-- Issuing stream (R355). -/
  pilot : Bool := false
  /-- Graph (R355). -/
  gid : Nat := 0
  /-- Task (R355). -/
  task : Nat := 0
  /-- The task is an ordered task (R355). -/
  ord : Bool := false
  /-- Destination device (R355). -/
  dev : Nat := 0
  /-- Its sequence number (R349). -/
  seq : BitVec 24 := 0
  /-- Address (R402). -/
  va : W64 := 0
  /-- PC (R402). -/
  pc : W64 := 0
  /-- Rack entry of its own tablet (R359). -/
  tab : Option Nat := none
  /-- Tablet of a TABWAIT (R363). -/
  qtab : BitVec 32 := 0
  /-- A stream is held for it (R355). -/
  held : Bool := false
  /-- Its packet was acknowledged (R351). -/
  acked : Bool := false
  /-- A cancel was sent (R356). -/
  cancel : Bool := false
  /-- It has ended (R355). -/
  done : Bool := false
  /-- The reply or report that reached the issuer (R355). -/
  rep : Option Reply := none
  /-- WALL at issue (R351). -/
  wall : Nat := 0
  /-- Its store was performed, as far as the issuer knows (R359, R364). -/
  perf : Bool := false
  /-- Destination that a HOLD names (R360). -/
  qdst : Nat := 0
  /-- The delivery context in which it was sent, by the WALL at which that opened (R349). -/
  ctx : Nat := 0
  /-- Place of its bytes in an access over pages of several homes (R168). -/
  ofs : Nat := 0
  deriving DecidableEq, Repr

/-- A trap (R381, R382): what its rule gives. -/
structure TrapIn where
  /-- Error code (R405). -/
  code : Nat := 0
  /-- TRAPADDR; none where no rule gives one (R382). -/
  addr : Option W64 := none
  /-- TRAPINFO (R382). -/
  info : W64 := 0
  /-- An asynchronous event (R382). -/
  async : Bool := false
  /-- The report of the failed matrix state, which taking it clears (R263). -/
  mat : Bool := false
  deriving DecidableEq, Repr

/-- An access that waits at the home of its granules (R169, R170). -/
structure SyncWait where
  /-- SYNC mode (R169). -/
  sync : Sync := .plain
  /-- Its granules (R170). -/
  gs : List Nat := []
  deriving DecidableEq, Repr

/-- A stream held at its instruction (R75, R129): what it waits for and since when. -/
structure Wait where
  /-- The waiting instruction (R129). -/
  instr : Instr := .udf
  /-- CYC at issue (R129). -/
  c0 : Nat := 0
  /-- WALL at issue (R129). -/
  w0 : Nat := 0
  /-- What it waits for (R75, R129). -/
  why : WaitWhy := .room
  /-- 1 once a waiting HBAR has arrived (R300). -/
  aux : Nat := 0
  /-- VIEWV as it stood when the instruction issued (R81). -/
  viewV : BitVec 32 := 0
  /-- Bytes read when the instruction issued (R203). -/
  data : List Byte := []
  /-- The access that waits at its granules (R170). -/
  sync : Option SyncWait := none
  /-- Place of its arrival at their home (R170). -/
  arr : Nat := 0
  deriving DecidableEq, Repr

/-- One instruction stream of a core (R66). -/
structure Stream where
  /-- Program counter (R67). -/
  pc : W64 := 0
  /-- Scalar registers s0 to s63 (R77). -/
  s : Vector W64 64 := Vector.replicate 64 0
  /-- Predicates k0 to k7 (k0 reads true) (R77). -/
  k : Vector Bool 8 := Vector.replicate 8 false
  /-- The stream has stopped in this activation (R114). -/
  stopped : Bool := true
  /-- The instruction it is held at (R75, R129). -/
  wait : Option Wait := none
  /-- STATUS.PP: a prefix is pending (R141). -/
  pp : Bool := false
  /-- PFXV.PMOD: MOD of the last PFX (R141). -/
  pfxv : BitVec 16 := 0
  /-- STATUS.GEAR (R141). -/
  gear : Bool := false
  /-- TOC.LIMIT, cyc (R128). -/
  toc : W64 := 0
  /-- TOW.LIMIT, ns (R128). -/
  tow : W64 := 0
  /-- PWIDTH.WIDTH (R249). -/
  pwidth : BitVec 5 := 8
  /-- RMODE.MODE (R217). -/
  rmode : BitVec 3 := 0
  /-- FPFLAGS: NV, DZ, OF, UF, IX (R252). -/
  fpflags : BitVec 5 := 0
  /-- FPTRAP enables (R252). -/
  fptrap : BitVec 5 := 0
  /-- TCR0: V and TAB (R358). -/
  tcr0 : Option (BitVec 32) := none
  /-- TCR1: V and TAB (R358). -/
  tcr1 : Option (BitVec 32) := none
  /-- TAB bits of TCR0 [31:0] and TCR1 [63:32] while V = 0 (R358). -/
  tcrPad : BitVec 64 := 0
  /-- TLAST: V and TAB (R358). -/
  tlast : Option (BitVec 32) := none
  /-- Prefix shadow: PP (R381). -/
  shPp : Bool := false
  /-- Prefix shadow: PFXV (R381). -/
  shPfxv : BitVec 16 := 0
  /-- Lines served to the stream and not yet passed (R68). -/
  buf : List FetchLine := []
  /-- The YLD hint ages its requests until its next taken branch (R76). -/
  yld : Bool := false
  /-- Issues left before an instruction is marked (R417). -/
  sampleLeft : Nat := 0
  /-- An instruction is marked (R417). -/
  marked : Bool := false
  /-- PC of the marked instruction (R417). -/
  markPc : W64 := 0
  /-- Graph of the marked instruction (R417). -/
  markGid : Nat := 0
  /-- Logical core of the marked instruction (R417). -/
  markLc : BitVec 16 := 0
  /-- The marked instruction has completed, trapped or been abandoned (R417). -/
  markDone : Bool := false
  /-- TLAST as it stood at trap entry, which TRET restores (R154). -/
  shTlast : Option (BitVec 32) := none
  /-- SFLAGS [3:1] of the marked instruction, once it has ended (R417). -/
  markFlags : BitVec 4 := 0
  /-- WALL at which the marked instruction ended (R417). -/
  markWall : Nat := 0
  /-- The number of issues has been drawn (R417). -/
  sampleArmed : Bool := false
  /-- The marked instruction is in an engine and has not ended (R417). -/
  markEng : Bool := false
  deriving DecidableEq, Repr

/-- A vault grant (R27) as loaded for a berth. -/
structure Grant where
  /-- GOFS (R27). -/
  ofs : BitVec 23 := 0
  /-- GVLT, or OWNV for an OWN grant (R27, R28). -/
  vault : BitVec 7 := 0
  /-- GLEN (R27). -/
  len : BitVec 32 := 0
  /-- RD (R27). -/
  rd : Bool := false
  /-- WR (R27). -/
  wr : Bool := false
  /-- OWN (R27). -/
  own : Bool := false
  deriving DecidableEq, Repr

/-- One entry of a berth accounting table (R414). -/
structure AcctEnt where
  /-- Sender LCORE (R413). -/
  sender : BitVec 16 := 0
  /-- Messages counted (R414). -/
  count : Nat := 0
  /-- Sum of transit, ns (R414). -/
  transit : Nat := 0
  /-- Sum of queue wait, ns (R414). -/
  queue : Nat := 0
  /-- Sum of run time, cyc (R414). -/
  runc : Nat := 0
  /-- Sum of run time, ns (R414). -/
  runn : Nat := 0
  deriving DecidableEq, Repr

/-- An asynchronous event for a berth (R380, R384). -/
structure Event where
  /-- Error code (R405). -/
  code : Nat := 0
  /-- ADDR of its record (R402). -/
  addr : W64 := 0
  /-- PC of its record (R402). -/
  pc : W64 := 0
  /-- DETAIL (R402). -/
  detail : List Byte := []
  /-- ENGINE (R402). -/
  engine : Nat := 0
  /-- EID (R402). -/
  eid : Nat := 0
  /-- Address space of FLAGS (R402). -/
  space : Nat := 0
  /-- CYC of its arrival at the berth (R384). -/
  cyc : Nat := 0
  /-- WALL at which it arose (R402). -/
  wall : Nat := 0
  deriving DecidableEq, Repr

/-- An asynchronous event on its way to a berth (R385). -/
structure AsyncEv where
  /-- Graph (R385). -/
  gid : Nat := 0
  /-- Task (R385). -/
  task : Nat := 0
  /-- The task is an ordered task (R385). -/
  ord : Bool := false
  /-- The event (R385). -/
  ev : Event := {}
  deriving DecidableEq, Repr

/-- One of the four berths of a core: its bind record (R49), the tables LOADING put into the core (R50), its messages and what persists between activations. -/
structure Berth where
  /-- GID (R49). -/
  gid : Nat := 0
  /-- TASK: task index, or spawn index (R49). -/
  task : Nat := 0
  /-- LCORE (R49). -/
  lcore : BitVec 16 := 0
  /-- STATE (R49). -/
  state : BerthState := .free
  /-- BFLAGS effective priority (R49). -/
  prio : BitVec 2 := 0
  /-- BFLAGS.DET (R49). -/
  det : Bool := false
  /-- BFLAGS.PRE (R49). -/
  pre : Bool := false
  /-- BFLAGS.COLL (R49). -/
  coll : Bool := false
  /-- BFLAGS.SLICED (R49). -/
  sliced : Bool := false
  /-- REGB, KiB (R49). -/
  regB : Nat := 0
  /-- REGN, KiB (R49). -/
  regN : Nat := 0
  /-- SPB, 2 KiB rows (R49). -/
  spB : Nat := 0
  /-- SPN, rows (R49). -/
  spN : Nat := 0
  /-- TDESC (R49). -/
  tdesc : W64 := 0
  /-- PASIDB (R49). -/
  pasid : BitVec 20 := 0
  /-- OWNV (R49). -/
  ownV : BitVec 7 := 0
  /-- The berth runs an ordered task (R329). -/
  ordered : Bool := false
  /-- Handler table, 16 entries (R11, R50). -/
  handlers : List W64 := []
  /-- Region list (R24, R50). -/
  regions : List W64 := []
  /-- Vault grants (R27, R50). -/
  grants : List Grant := []
  /-- VIEWV of the kernel header (R20). -/
  viewV0 : BitVec 32 := 0
  /-- VIEWT of the kernel header (R20). -/
  viewT0 : BitVec 32 := 0
  /-- VIEWA of the kernel header (R20). -/
  viewA0 : BitVec 32 := 0
  /-- Channels c0 to c7, oldest first (R109). -/
  chans : Vector (List Msg) 8 := Vector.replicate 8 []
  /-- Handler park, 8 entries (R116). -/
  park : List Parked := []
  /-- Window store, 64 messages (R304). -/
  winStore : List Msg := []
  /-- USED, cyc (R110). -/
  used : Nat := 0
  /-- QUANTUM, cyc (R82). -/
  quantum : Nat := 20000
  /-- Activations run (R112, R402). -/
  acts : Nat := 0
  /-- SEED.STATE (R221). -/
  seed : W64 := 1
  /-- ACCSAT.SAT (R212). -/
  accsat : Bool := false
  /-- Arrival counts ROW, COL, QUAD, ROWCOL (R298). -/
  hbar : Vector (BitVec 32) 4 := Vector.replicate 4 0
  /-- Phases whose completion has reached the core (R298). -/
  hdone : Vector (BitVec 32) 4 := Vector.replicate 4 0
  /-- POSTED (R369). -/
  posted : W64 := 0
  /-- Section count of each CHECKED region (R291). -/
  sects : AMap Nat := []
  /-- GEN of the last arming of a governing async barrier whose completion was observed (R291). -/
  gens : AMap Nat := []
  /-- FAILMARK: the code that marked the task (R385, R399). -/
  failMark : Option Nat := none
  /-- Pending events, at most 8 (R384). -/
  pend : List Event := []
  /-- STATUS.QRES of the next activation (R115). -/
  qres : Bool := false
  /-- STATUS.CRES of the next activation (R115). -/
  cres : Bool := false
  /-- STATUS.DLMISS of the next activation (R132). -/
  dlmiss : Bool := false
  /-- Timestamp of its last TSPAWN (R328). -/
  lastSpawn : Option Nat := none
  /-- WALL of the bind (R47). -/
  bindWall : Nat := 0
  /-- WALL of its last activation start (R47). -/
  actWall : Option Nat := none
  /-- Levels it has been raised since (R47). -/
  raised : Nat := 0
  /-- WALL of its last migration or restore (R60). -/
  moveWall : Option Nat := none
  /-- Why it is STOPPING (R50, R397). -/
  stopFor : Option StopWhy := none
  /-- Save slot LOADING reads instead of initialising (R401). -/
  restore : Option Nat := none
  /-- Accounting table (R413). -/
  acct : List AcctEnt := []
  /-- Activations counted (R414). -/
  acctActs : Nat := 0
  deriving DecidableEq, Repr

/-- The running activation of a core (R112, R113). -/
structure Act where
  /-- Berth that runs (R109). -/
  berth : BitVec 2 := 0
  /-- Channel of its message (R113). -/
  chan : BitVec 3 := 0
  /-- Its message (R112). -/
  msg : Msg := {}
  /-- Payload cursor (R113). -/
  cursor : Nat := 0
  /-- Handler entry it runs under (R112). -/
  handler : W64 := 0
  /-- CYC at its start (R412). -/
  startCyc : Nat := 0
  /-- WALL at its start (R412). -/
  startWall : Nat := 0
  /-- A stream executed FINISH (R114). -/
  finish : Bool := false
  deriving DecidableEq, Repr

/-- A cached instruction line (R68). -/
structure Line where
  /-- PASID (R68). -/
  pasid : BitVec 20 := 0
  /-- Line address / 64 (R68). -/
  addr : Nat := 0
  /-- 64 bytes (R68). -/
  bytes : List Byte := []
  deriving DecidableEq, Repr

/-- An outstanding fetch request (R68). -/
structure FetchReq where
  /-- Fetch-stream number (R66). -/
  fs : Nat := 0
  /-- PASID (R68). -/
  pasid : BitVec 20 := 0
  /-- Line address / 64 (R68). -/
  line : Nat := 0
  /-- Cyc at which it counts as made (R68). -/
  made : Nat := 0
  deriving DecidableEq, Repr

/-- A vector operation in the command queue (R233), with its operands as resolved at issue (R81, R231). -/
structure VCmd where
  /-- The instruction (R233). -/
  instr : Instr := .udf
  /-- Its PC (R255). -/
  pc : W64 := 0
  /-- MOD after a prefix, DYN resolved (R139, R216). -/
  m : VecMod := {}
  /-- Plane width (R249). -/
  width : Nat := 8
  /-- Generator state drawn at issue (R221). -/
  st : W64 := 0
  /-- OPA (R231). -/
  a : VSrc := .none
  /-- OPB (R231). -/
  b : VSrc := .none
  /-- OPD (R232). -/
  d : VDst := .none
  /-- Held in a trap window (R254). -/
  win : Bool := false
  /-- FPTRAP at issue (R254). -/
  en : BitVec 5 := 0
  /-- Issued by the supervisor routine (R383). -/
  sup : Bool := false
  /-- Place among the operations of both engines (R267). -/
  ord : Nat := 0
  /-- SEED advances when its trap window ends, unless it was written meanwhile (R156, R254). -/
  draws : Bool := false
  /-- It is the marked instruction of its stream (R417). -/
  mark : Bool := false
  deriving DecidableEq, Repr

/-- A matrix-engine operation (R270, R271, R275), with what was resolved at issue. -/
structure MOp where
  /-- Operation (R268). -/
  kind : MKind := .mzero
  /-- Descriptor, control or selector (R264). -/
  desc : W64 := 0
  /-- MOD of a product (R103). -/
  m : MatMod := {}
  /-- Home address of the first accumulator register (R265). -/
  acc : Nat := 0
  /-- Home address of the tile (R265). -/
  tile : Nat := 0
  /-- SP address of MDRAIN (R271). -/
  sp : Nat := 0
  /-- Registers of MZERO, rows of MDRAIN (R271). -/
  count : Nat := 0
  /-- Scale bytes of SCLSEND (R275). -/
  src : VSrc := .none
  /-- It has started (R266). -/
  started : Bool := false
  /-- Tile bytes read at the start (R266). -/
  tileB : List Byte := []
  /-- Planes read at the start (R266). -/
  planes : List Byte := []
  /-- ASCL, BLO and BHI read at the start (R276). -/
  scales : List Byte := []
  /-- WALL at which it reached the head (R263, R276). -/
  headWall : Option Nat := none
  /-- GLIM or scale limit, ns (R263, R276). -/
  lim : Nat := 0
  /-- Gang width it was issued under (R262). -/
  gang : Nat := 1
  /-- Its number among the gang operations since the join (R262). -/
  gj : Nat := 0
  /-- ABASE is used: at a leader or at width 1 (R264). -/
  aUse : Bool := false
  /-- Members of the gang product at its start (R262). -/
  peers : List Nat := []
  /-- Issuing berth (R212). -/
  berth : BitVec 2 := 0
  /-- Place among the operations of both engines (R267). -/
  ord : Nat := 0
  /-- Scratchpad base of the berth (R165). -/
  spB : Nat := 0
  /-- Graph of the issuer (R275). -/
  gid : Nat := 0
  /-- Activation count of the issuer (R275). -/
  acts : Nat := 0
  /-- It is the marked instruction of its stream (R417). -/
  mark : Bool := false
  deriving DecidableEq, Repr

/-- A scale delivery that waits at its target (R275). -/
structure ScaleDel where
  /-- SLOT (R275). -/
  slot : Nat := 0
  /-- Scale bytes (R275). -/
  bytes : List Byte := []
  /-- WALL of its arrival (R275). -/
  wall : Nat := 0
  /-- Issuing core (R275). -/
  src : Nat := 0
  /-- Scale limit, ns (R276). -/
  lim : Nat := 0
  /-- Issuing berth (R275). -/
  berth : BitVec 2 := 0
  /-- Graph of the issuer (R275). -/
  gid : Nat := 0
  /-- Activation count of the issuer (R275). -/
  acts : Nat := 0
  deriving DecidableEq, Repr

/-- The matrix slice of a core (R257 to R276). -/
structure Mat where
  /-- Gang width joined (R260). -/
  width : Nat := 1
  /-- The gang is formed and has not ended (R260, R263). -/
  formed : Bool := false
  /-- Width with which the core waits on the row gang line (R260). -/
  arrive : Option Nat := none
  /-- WALL of that arrival (R260). -/
  arriveWall : Nat := 0
  /-- GLIM, ns (R260). -/
  glim : Nat := 100000
  /-- Gang operations issued since the join (R262). -/
  gangCount : Nat := 0
  /-- Matrix queue and the operation in the engine, oldest first (R270). -/
  queue : List MOp := []
  /-- Failed state: code and detail (R263, R276). -/
  failed : Option (Nat × Nat) := none
  /-- Operations discarded (R263). -/
  discarded : Nat := 0
  /-- Slot ASCL, 128 bytes when full (R274). -/
  ascl : Option (List Byte) := none
  /-- Slot BLO, 256 bytes when full (R274). -/
  blo : Option (List Byte) := none
  /-- Slot BHI, 256 bytes when full (R274). -/
  bhi : Option (List Byte) := none
  /-- Deliveries waiting at this core, oldest first (R275). -/
  deliver : List ScaleDel := []
  deriving DecidableEq, Repr

/-- A gauge (R391). -/
structure Gauge where
  /-- Configuration, item 20 of GREAD (R391). -/
  cfg : W64 := 0
  /-- MIN (R391). -/
  min : W64 := 0
  /-- MAX (R391). -/
  max : W64 := 0
  /-- COUNT (R391). -/
  count : Nat := 0
  /-- SUM (R391). -/
  sum : Nat := 0
  /-- Bins 0 to 15 (R391). -/
  bins : List Nat := []
  /-- Berth that last armed a core gauge (R391). -/
  berth : Option (BitVec 2) := none
  /-- WALL of the last sample of a device gauge (R416). -/
  last : Option Nat := none
  deriving DecidableEq, Repr

/-- An abort of a region that waits for room in a full queue (R320). -/
structure Abort where
  /-- Cause (R320). -/
  cause : W64 := 0
  /-- It arose at ACOMMIT (R320). -/
  atCommit : Bool := false
  /-- The trap that is taken once the region has aborted (R326). -/
  trap : Option TrapIn := none
  deriving DecidableEq, Repr

/-- An open atomic region (R319 to R327) or the implicit region of an ordered task (R329). -/
structure Region where
  /-- The region of an ordered task (R329). -/
  implicit : Bool := false
  /-- Graph (R319). -/
  gid : Nat := 0
  /-- Abort target (R319). -/
  target : W64 := 0
  /-- Instruction after AREG (R327). -/
  restart : W64 := 0
  /-- Checkpoint of s0 to s63 (R319). -/
  cpS : Vector W64 64 := Vector.replicate 64 0
  /-- Checkpoint of k0 to k7 (R319). -/
  cpK : Vector Bool 8 := Vector.replicate 8 false
  /-- Destination of AREG (R320). -/
  opd : Operand := .none
  /-- Read set, per byte (R322). -/
  reads : List ReadByte := []
  /-- Buffered stores in program order (R322). -/
  stores : List RStore := []
  /-- Load slots (R323). -/
  slots : List LSlot := []
  /-- Constraints (R323). -/
  cons : List Con := []
  /-- Held messages (R322). -/
  held : List Msg := []
  /-- Tag (slot, c) of a tagged register (R323). -/
  tags : AMap (Nat × W64) := []
  /-- Irrevocable mode (R327). -/
  irrevocable : Bool := false
  /-- Waits for the commit point after a capacity overflow (R327). -/
  overflow : Bool := false
  /-- CYC at its start (R326). -/
  startCyc : Nat := 0
  /-- Asks for commit (R325). -/
  commit : Bool := false
  /-- PRED of its ACOMMIT (R319). -/
  pred : BitVec 3 := 0
  /-- An abort that waits for room in the queue of OPD (R320). -/
  aborting : Option Abort := none
  deriving DecidableEq, Repr

/-- An entry of the map store (R200). -/
structure MapEnt where
  /-- GID (R200). -/
  gid : Nat := 0
  /-- Map index (R200). -/
  idx : Nat := 0
  /-- The 64-byte map (R200). -/
  map : List Byte := []
  /-- The 32-byte record (R200). -/
  trec : List Byte := []
  deriving DecidableEq, Repr

/-- A line of the contention predictor (R313). -/
structure PredEnt where
  /-- Line address (R313). -/
  line : Nat := 0
  /-- WALL of recent losses of ownership (R313). -/
  losses : List Nat := []
  /-- Contested (R313). -/
  contested : Bool := false
  deriving DecidableEq, Repr

/-- One core (R2). -/
structure Core where
  /-- Berths 0 to 3 (R49). -/
  berths : Vector Berth 4 := Vector.replicate 4 {}
  /-- The running activation (R109). -/
  act : Option Act := none
  /-- Execute stream (R66). -/
  ex : Stream := {}
  /-- Pilot stream (R66). -/
  pi : Stream := {}
  /-- Queues q0 to q15, oldest first (R119). -/
  q : Vector (List QEnt) 16 := Vector.replicate 16 []
  /-- Deadline slots DL0 to DL3 (R131). -/
  dl : Vector W64 4 := Vector.replicate 4 0
  /-- Order in which the slots fired (R144). -/
  dlAt : Vector Nat 4 := Vector.replicate 4 0
  /-- TABEXP.NS (R358). -/
  tabexp : BitVec 24 := 50000
  /-- VIEWV (R79). -/
  viewV : BitVec 32 := 0
  /-- VIEWT (R79). -/
  viewT : BitVec 32 := 0
  /-- VIEWA (R79). -/
  viewA : BitVec 32 := 0
  /-- TRAPCAUSE (R382). -/
  tcause : W64 := 0
  /-- TRAPPC (R382). -/
  tpc : W64 := 0
  /-- TRAPADDR (R382). -/
  taddr : W64 := 0
  /-- TRAPINFO (R382). -/
  tinfo : W64 := 0
  /-- TRAPSTREAM: true for the pilot (R382). -/
  tstream : Bool := false
  /-- WALL latched at trap entry (R395). -/
  twall : Nat := 0
  /-- PC of a trapping instruction inside a region (R326). -/
  rpc : W64 := 0
  /-- STATUS.SUP of the execute stream (R141). -/
  sup : Bool := false
  /-- Program counter of the supervisor routine (R383). -/
  supPc : W64 := 0
  /-- Supervisor bank s0 to s63 (R383). -/
  supS : Vector W64 64 := Vector.replicate 64 0
  /-- Supervisor bank k1 to k7 (R383). -/
  supK : Vector Bool 8 := Vector.replicate 8 false
  /-- The supervisor instruction the execute stream is held at (R383). -/
  supWait : Option Wait := none
  /-- Step mask armed by SUPSTEP (R396). -/
  step : BitVec 2 := 0
  /-- Streams that still have a step to take (R396). -/
  stepping : BitVec 2 := 0
  /-- Standing-arrival marks, one per SHAPE (R300). -/
  marks : BitVec 4 := 0
  /-- Vector command queue, oldest first (R233). -/
  vq : List VCmd := []
  /-- Matrix slice (R257). -/
  mat : Mat := {}
  /-- Core gauges 0 to 3 (R391). -/
  gauges : Vector Gauge 4 := Vector.replicate 4 {}
  /-- The open region (R319). -/
  region : Option Region := none
  /-- Map store, 8 entries, oldest first (R200). -/
  maps : List MapEnt := []
  /-- Held messages of a committed region that wait for a slot (R325). -/
  handoff : List Msg := []
  /-- Place of the next vector or matrix operation (R267). -/
  opNext : Nat := 0
  /-- Streams that have issued in the current cyc (R147, R83). -/
  issued : BitVec 2 := 0
  /-- Entries of each queue pushed in the current cyc (R119). -/
  qnew : Vector Nat 16 := Vector.replicate 16 0
  /-- Deadline slots written in the current cyc (R131). -/
  dlNew : BitVec 4 := 0
  /-- Streams that have taken their step and whose STEP is due (R396). -/
  stepped : BitVec 2 := 0
  /-- Contention predictor, 32 lines (R313). -/
  pred : List PredEnt := []
  deriving DecidableEq, Repr

/-- One cluster (R2). -/
structure Cluster where
  /-- CYC.COUNT (R123). -/
  cyc : Nat := 0
  /-- RATIO (R125). -/
  ratio : W64 := 0
  /-- Cyc counted in the current window (R125). -/
  winCyc : Nat := 0
  /-- The current window overlaps a gear stop (R125). -/
  winGear : Bool := false
  /-- Instruction cache, at most 1,024 lines (R68). -/
  icache : List Line := []
  /-- Outstanding requests (R68). -/
  reqs : List FetchReq := []
  /-- Lines it owns for NEAR atomics (R313). -/
  owned : List Nat := []
  /-- WALL at its last cyc edge (R126). -/
  edgeWall : Nat := 0
  /-- Number of the window of 1,024 ns that is being counted (R125). -/
  win : Nat := 0
  deriving DecidableEq, Repr

/-- One stacked pair (R2). -/
structure Pair where
  /-- A gear stop is in progress (R126). -/
  stopped : Bool := false
  /-- WALL at which it began (R126). -/
  stopWall : Nat := 0
  /-- WALL of the last start of a stop (R126). -/
  lastStop : Option Nat := none
  /-- GEAR_STOP has been raised for this stop (R126). -/
  stopLong : Bool := false
  /-- Reported upper-layer current, mA (R57). -/
  upMA : Nat := 0
  /-- Reported lower-layer current, mA (R57). -/
  loMA : Nat := 0
  /-- Mid-rail shunt current, mA (R57). -/
  shuntMA : Nat := 0
  /-- Budget grant, 10 mA (R58). -/
  grant : Nat := 0
  /-- WALL since which the imbalance exceeds 10 % at step 4 (R57). -/
  imbSince : Option Nat := none
  /-- Balancing step in force, 0 to 4 (R57). -/
  measure : Nat := 0
  /-- LAYER_IMBALANCE: nothing more is bound to the pair (R405). -/
  noBind : Bool := false
  deriving DecidableEq, Repr

/-- A fault-buffer entry of a station (R178). -/
structure FaultEnt where
  /-- KIND (R178). -/
  kind : Nat := 0
  /-- WAITERS (R178). -/
  waiters : Nat := 0
  /-- VPAGE (R178). -/
  vpage : Nat := 0
  /-- PASID (R178). -/
  pasid : BitVec 20 := 0
  /-- CLUSTER (R178). -/
  cluster : Nat := 0
  /-- FWALL (R178). -/
  fwall : Nat := 0
  deriving DecidableEq, Repr

/-- A cached translation (R177). -/
structure Tlb where
  /-- PASID (R177). -/
  pasid : BitVec 20 := 0
  /-- 4 KiB page (R177). -/
  vpage : Nat := 0
  /-- Leaf entry (R174). -/
  pte : W64 := 0
  /-- Level of the leaf (R173). -/
  level : Nat := 3
  deriving DecidableEq, Repr

/-- One translation station (R178). -/
structure Station where
  /-- VECTOR (R178). -/
  vector : BitVec 11 := 0
  /-- IRQEN (R178). -/
  irqen : Bool := false
  /-- DROPPED (R178). -/
  dropped : Bool := false
  /-- Fault entries, at most 8 (R178). -/
  faults : List FaultEnt := []
  /-- Parked requests, oldest first (R177). -/
  parked : List ParkedReq := []
  /-- IPASID (R178). -/
  ipasid : BitVec 20 := 0
  /-- IVA (R178). -/
  iva : BitVec 64 := 0
  /-- ICNT (R178). -/
  icnt : BitVec 32 := 0
  /-- IBUSY (R178). -/
  ibusy : Bool := false
  /-- PTBASE (R178). -/
  ptbase : BitVec 64 := 0
  /-- PTLIM (R178). -/
  ptlim : BitVec 20 := 0
  /-- Translation cache, at most 4,096 entries (R177). -/
  tlb : List Tlb := []
  deriving DecidableEq, Repr

/-- A launch packet in a queue (R42) with the source it came from (R41). -/
structure LaunchPkt where
  /-- 64 bytes (R40). -/
  bytes : List Byte := []
  /-- It came from the host (R41). -/
  host : Bool := false
  /-- The PASID that a LAUNCH must carry (R41). -/
  pasid : Option (BitVec 20) := none
  /-- The rack endpoint that sent it (R41). -/
  rack : Option Nat := none
  deriving DecidableEq, Repr

/-- One launch context (R42). -/
structure LaunchCtx where
  /-- STAGE (R42). -/
  stage : List Byte := List.replicate 64 0
  /-- Launch queue of 64-byte packets, at most 256 (R42). -/
  queue : List LaunchPkt := []
  /-- FULLSEEN (R42). -/
  fullseen : Bool := false
  /-- DROP (R42). -/
  drop : Bool := false
  /-- ENABLE (R42). -/
  enable : Bool := false
  /-- VECTOR (R42). -/
  vector : BitVec 11 := 0
  /-- IRQEN (R42). -/
  irqen : Bool := false
  /-- CPASID (R42). -/
  cpasid : BitVec 20 := 0
  /-- ANYPASID (R42). -/
  anypasid : Bool := false
  deriving DecidableEq, Repr

/-- A tile task of an admitted graph (R7, R23). -/
structure Task where
  /-- LCORE (R20). -/
  lcore : Nat := 0
  /-- Descriptor address (R20). -/
  tdesc : W64 := 0
  /-- Start counter (R23). -/
  counter : Nat := 0
  /-- Successors and COUNTs (R23). -/
  succ : List (Nat × Nat) := []
  /-- REGREQ (R20). -/
  regreq : Nat := 0
  /-- SPREQ (R20). -/
  spreq : Nat := 0
  /-- Waiting, eligible, bound, saved, finished, failed (R23, R46). -/
  st : TaskState := .waiting
  /-- Its STARTCNT is 0 (R64). -/
  start0 : Bool := false
  /-- It has received START (R64). -/
  started : Bool := false
  /-- WALL since which it waits eligible (R46). -/
  since : Nat := 0
  /-- Effective priority (R46). -/
  prio : BitVec 2 := 0
  /-- Levels it has fallen (R46). -/
  aged : Nat := 0
  /-- Save slot that holds it (R400). -/
  slot : Option Nat := none
  /-- The code of its FAILMARK while it is saved (R385). -/
  markCode : Nat := 0
  /-- QRES, CRES and DLMISS of its next activation while it is saved (R115). -/
  last : BitVec 3 := 0
  /-- It holds an OWN grant (R60). -/
  ownGrant : Bool := false
  /-- Arrival counts while it is saved (R298). -/
  hbar : Vector (BitVec 32) 4 := Vector.replicate 4 0
  /-- Phases whose completion had reached its core when it was saved (R298). -/
  hdone : Vector (BitVec 32) 4 := Vector.replicate 4 0
  /-- GEN of the last observed armings while it is saved (R291). -/
  gens : AMap Nat := []
  /-- Timestamp of its last TSPAWN while it is saved (R328). -/
  lastSpawn : Option Nat := none
  deriving DecidableEq, Repr

/-- An ordered task (R328 to R332). -/
structure OTask where
  /-- Timestamp (R328). -/
  ts : Nat := 0
  /-- LCORE of the spawner (R329). -/
  spawner : BitVec 16 := 0
  /-- Payload (R328). -/
  payload : List Byte := []
  /-- Spawn index of an ordered spawner (R331). -/
  parent : Option Nat := none
  /-- Earlier runs that ended without commit (R329). -/
  runs : Nat := 0
  /-- Accepted, running, awaiting, committed, discarded (R329, R330). -/
  st : OState := .accepted
  /-- Its region while it awaits commit (R330). -/
  region : Option Region := none
  /-- Core on which it last ran (R325). -/
  core : Nat := 0
  /-- Its next run is irrevocable (R332). -/
  irrev : Bool := false
  /-- Code with which it failed (R65). -/
  code : Nat := 0
  deriving DecidableEq, Repr

/-- An interlocking entry (R32). -/
structure ILock where
  /-- BASE (R32). -/
  base : Nat := 0
  /-- LENGTH (R32). -/
  len : Nat := 0
  /-- SPACE (R32). -/
  space : Nat := 0
  /-- MODE (R32). -/
  mode : Nat := 0
  /-- PATTERN (R32). -/
  pattern : BitVec 8 := 0
  /-- ATTR.EMUL (R32). -/
  emul : Bool := false
  /-- ATTR.ORDRED (R32). -/
  ordred : Bool := false
  /-- WRITER logical core (R32). -/
  wcore : Nat := 0
  /-- WRITER engine (R32). -/
  weng : Nat := 0
  /-- GOV kind (R32). -/
  gov : Nat := 0
  /-- GOV SHAPE (R32). -/
  shape : Nat := 0
  /-- GOV region number (R32). -/
  govReg : Nat := 0
  /-- GOV offset (R32). -/
  govOfs : Nat := 0
  deriving DecidableEq, Repr

/-- A sender set (R37). -/
structure Senders where
  /-- Task index (R37). -/
  task : Nat := 0
  /-- Channel (R37). -/
  chan : BitVec 3 := 0
  /-- Logical cores (R37). -/
  set : List Nat := []
  deriving DecidableEq, Repr

/-- Delivery-window state of one channel of one task (R304, R400). -/
structure WinState where
  /-- Task index (R400). -/
  task : Nat := 0
  /-- Channel (R304). -/
  chan : BitVec 3 := 0
  /-- Current window (R304). -/
  cur : Nat := 0
  /-- Marks received of each sender (R304). -/
  marks : AMap Nat := []
  deriving DecidableEq, Repr

/-- An admitted graph: what the dispatcher read of its packet (R40) and descriptor (R18), and its progress. -/
structure Graph where
  /-- GID (R40). -/
  gid : Nat := 0
  /-- PASID (R40). -/
  pasid : BitVec 20 := 0
  /-- PRIO (R40). -/
  prio : BitVec 2 := 0
  /-- LFLAGS.DET (R40). -/
  det : Bool := false
  /-- LFLAGS.PRE (R40). -/
  pre : Bool := false
  /-- LFLAGS.COLL (R40). -/
  coll : Bool := false
  /-- LTAG (R40). -/
  ltag : BitVec 32 := 0
  /-- CADDR (R40). -/
  caddr : W64 := 0
  /-- SAVE (R40). -/
  save : W64 := 0
  /-- Rack endpoint that launched it (R63). -/
  rack : Option Nat := none
  /-- Launch context (R41). -/
  ctx : Nat := 0
  /-- Prerequisites not yet satisfied (R45). -/
  prereq : List Nat := []
  /-- GRIDW (R18). -/
  gridw : Nat := 1
  /-- GRIDH (R18). -/
  gridh : Nat := 1
  /-- CODE (R18). -/
  code : W64 := 0
  /-- CODESIZE (R18). -/
  codesize : W64 := 0
  /-- POOL (R18). -/
  pool : W64 := 0
  /-- POOLN (R18). -/
  pooln : Nat := 0
  /-- TMAPTAB (R18). -/
  tmaptab : W64 := 0
  /-- TMAPN (R18). -/
  tmapn : Nat := 0
  /-- Interlocking table (R32, R50). -/
  ilock : List ILock := []
  /-- Sender sets (R37). -/
  senders : List Senders := []
  /-- DET_OK (R18). -/
  detOk : Bool := false
  /-- HASORD (R18). -/
  hasOrd : Bool := false
  /-- OTASK (R18). -/
  otask : Nat := 0xFFFFFFFF
  /-- OCAP (R18). -/
  ocap : Nat := 0
  /-- Descriptor of the ordered-task kernel (R36). -/
  okern : W64 := 0
  /-- Active (R45). -/
  active : Bool := false
  /-- WALL at which it became active (R46). -/
  activeWall : Nat := 0
  /-- Tile tasks by index (R7). -/
  tasks : List Task := []
  /-- Entries with V = 1: berth and physical core (R51). -/
  remap : AMap (Nat × Nat) := []
  /-- Home quadrant of each logical block (R52). -/
  homes : AMap Nat := []
  /-- Ordered tasks by spawn index (R328). -/
  ords : List OTask := []
  /-- Residency report written (R64). -/
  resident : Bool := false
  /-- Complete (R65). -/
  complete : Bool := false
  /-- WALL of completion (R63). -/
  completeWall : Nat := 0
  /-- Code that failed the graph (R63). -/
  failCode : Nat := 0
  /-- First failed task (R63). -/
  failTask : Option Nat := none
  /-- FAIL-GRAPH in progress (R65). -/
  failing : Bool := false
  /-- Fault records written (R63). -/
  faults : Nat := 0
  /-- Sequence number of each (task, DEST, CHAN) (R203, R400). -/
  seqs : AMap Nat := []
  /-- Delivery-window state (R304, R400). -/
  wins : List WinState := []
  /-- Float atomics held at ORDRED regions (R293). -/
  ordreds : List HeldAtomic := []
  /-- Core that holds the commit point (R327). -/
  commitPt : Option Nat := none
  deriving DecidableEq, Repr

/-- A store or atomic issued and not yet performed at its home (R186, R310). -/
structure Posted where
  /-- Issuing core (R284). -/
  core : Nat := 0
  /-- Issuing stream (R284). -/
  pilot : Bool := false
  /-- Issuing berth (R166). -/
  berth : BitVec 2 := 0
  /-- Graph (R166). -/
  gid : Nat := 0
  /-- Home address and bytes (R186). -/
  pieces : List (Nat × List Byte) := []
  /-- Leave the granules full (R169). -/
  fill : Bool := false
  /-- Releasing (R284). -/
  rel : Bool := false
  /-- Address as issued (R402). -/
  addr : W64 := 0
  /-- PC (R402). -/
  pc : W64 := 0
  /-- SPX address still to be resolved at the target (R166). -/
  spx : Option W64 := none
  /-- The atomic to perform (R310). -/
  atom : Option Atom := none
  /-- The ORDRED region a float atomic goes to (R293). -/
  ordred : Option Nat := none
  /-- 64-byte lines at which it is performed NEAR (R313). -/
  near : List Nat := []
  /-- It reaches an ATOMIC region (R327). -/
  region : Bool := false
  /-- Task that issued it (R166). -/
  task : Nat := 0
  /-- The task is an ordered task (R166). -/
  ord : Bool := false
  deriving DecidableEq, Repr

/-- A chunk of a copy (R194). -/
structure Chunk where
  /-- Source address in its space (R194). -/
  src : Nat := 0
  /-- Destination address in its space (R194). -/
  dst : Nat := 0
  /-- Bytes (R194). -/
  len : Nat := 0
  /-- Destination logical core of an MCAST (R198). -/
  dest : Nat := 0
  /-- Landed (R194). -/
  landed : Bool := false
  /-- Remote stores that carry its bytes to a page of a peer (R194). -/
  ops : List Nat := []
  /-- Its bytes as they were read, once it was sent to a peer (R194). -/
  data : List Byte := []
  deriving DecidableEq, Repr

/-- A copy, MCAST or PCE request in flight (R192 to R202). -/
structure Copy where
  /-- Identity (R287). -/
  id : Nat := 0
  /-- Issuing core (R192). -/
  core : Nat := 0
  /-- Issuing berth (R195). -/
  berth : BitVec 2 := 0
  /-- Issuing stream (R192). -/
  pilot : Bool := false
  /-- Graph (R195). -/
  gid : Nat := 0
  /-- Kind (R192). -/
  kind : CopyKind := .cpy
  /-- Source space (R192). -/
  srcSp : Space := .sp
  /-- Destination space (R192). -/
  dstSp : Space := .sp
  /-- FILL (R192). -/
  fill : Bool := false
  /-- SP address of the barrier (R190). -/
  bar : Nat := 0
  /-- Chunks in order (R194). -/
  chunks : List Chunk := []
  /-- Source ranges (R288). -/
  rd : List (Nat × Nat) := []
  /-- Destination ranges (R288). -/
  wr : List (Nat × Nat) := []
  /-- Running, parked or failed (R195). -/
  st : CopyState := .running
  /-- WALL at issue (R416). -/
  wall : Nat := 0
  /-- PC (R402). -/
  pc : W64 := 0
  /-- Tensor map of a CPYT (R200). -/
  map : List Byte := []
  /-- Its record (R200). -/
  trec : List Byte := []
  /-- ORG0 to ORG4 (R201). -/
  org : List Int := []
  /-- Package copy engine that serves a PCE request (R199, R402). -/
  unit : Nat := 0
  deriving DecidableEq, Repr

/-- A network request posted and not ended (R365, R369). -/
structure NetReq where
  /-- Request number (R369). -/
  id : Nat := 0
  /-- Core (R369). -/
  core : Nat := 0
  /-- Berth (R369). -/
  berth : BitVec 2 := 0
  /-- Graph (R367). -/
  gid : Nat := 0
  /-- The 64-byte request (R365). -/
  bytes : List Byte := []
  /-- PC (R402). -/
  pc : W64 := 0
  /-- Remote stores that carry its bytes to a page of a peer (R367). -/
  ops : List Nat := []
  deriving DecidableEq, Repr

/-- A link port (R343). -/
structure Port where
  /-- Lanes: 0, 1, 2 or 4 (R343). -/
  width : Nat := 0
  /-- UP (R343). -/
  up : Bool := false
  /-- PEER (R343). -/
  peer : Nat := 0
  /-- LOSSES (R343). -/
  losses : Nat := 0
  /-- MAXW (R343). -/
  maxw : Nat := 3
  /-- Planned width, lanes (R346). -/
  planned : Option Nat := none
  /-- Retraining (R345). -/
  retrain : Bool := false
  /-- Working lanes (R345). -/
  lanes : Nat := 4
  /-- Packet part-way across the link (R346). -/
  partway : Option Pkt := none
  /-- Output queue (R347). -/
  queue : List Pkt := []
  deriving DecidableEq, Repr

/-- The source end of a delivery context (R349). -/
structure Ctx where
  /-- Destination device (R349). -/
  dst : Nat := 0
  /-- Next sequence number (R349). -/
  next : BitVec 24 := 0
  /-- Packets sent and not acknowledged, oldest first (R349). -/
  unacked : List SentPkt := []
  /-- WALL of the last acknowledgement, or of the first outstanding packet (R351). -/
  ackWall : Nat := 0
  /-- WALL of the last traffic (R349). -/
  traffic : Nat := 0
  /-- WALL of the close (R349). -/
  closed : Option Nat := none
  /-- WALL at which the context was opened, which tells it from an earlier one (R349). -/
  born : Nat := 0
  deriving DecidableEq, Repr

/-- A store in the siding (R361). -/
structure Held where
  /-- The store (R361). -/
  pkt : Pkt := {}
  /-- Issuing device (R361). -/
  src : Nat := 0
  /-- WALL of its arrival (R362). -/
  arr : Nat := 0
  deriving DecidableEq, Repr

/-- The destination end of a delivery context (R349). -/
structure RCtx where
  /-- Source device (R349). -/
  src : Nat := 0
  /-- Next sequence number to perform (R349). -/
  next : BitVec 24 := 0
  /-- Reorder window, and packets that wait behind a held store (R361) (R349). -/
  window : List Held := []
  /-- WALL of the close, while its last sequence number is kept (R349). -/
  closed : Option Nat := none
  /-- Which context of the source it is (R349). -/
  born : Nat := 0
  /-- Packets that were taken in and wait behind a held store (R361). -/
  behind : List Held := []
  deriving DecidableEq, Repr

/-- An entry of the tablet rack (R359). -/
structure RackEnt where
  /-- FREE, PENDING, LANDED, DEAD (R359). -/
  st : RackState := .free
  /-- Generation (R359). -/
  gen : BitVec 12 := 0
  /-- Holder devices (R360). -/
  holders : List Nat := []
  /-- Holders that have not acknowledged their CLEAR (R359). -/
  acks : List Nat := []
  /-- Device of its store (R359). -/
  dst : Nat := 0
  /-- Sequence number of its store (R359). -/
  seq : BitVec 24 := 0
  /-- WALL of entering DEAD (R359). -/
  deadWall : Nat := 0
  /-- Graph (R375). -/
  gid : Nat := 0
  deriving DecidableEq, Repr

/-- A SYNC access waiting in a retry list (R356). -/
structure Retry where
  /-- The access (R356). -/
  pkt : Pkt := {}
  /-- Issuer (R356). -/
  src : Nat := 0
  /-- WALL of its arrival (R356). -/
  arr : Nat := 0
  /-- Place of its arrival at the home of its granules (R170, R356). -/
  no : Nat := 0
  /-- SYNC mode (R169). -/
  sync : Sync := .plain
  /-- Its granules (R170). -/
  gs : List Nat := []
  deriving DecidableEq, Repr

/-- Junction, delivery contexts, tablets and siding (R342 to R364). -/
structure Fabric where
  /-- X (R343). -/
  x : BitVec 4 := 0
  /-- Y (R343). -/
  y : BitVec 4 := 0
  /-- GXM1 (R343). -/
  gxm1 : BitVec 4 := 0
  /-- GYM1 (R343). -/
  gym1 : BitVec 4 := 0
  /-- REACHTO, ns (R343). -/
  reachto : BitVec 32 := 200000
  /-- Ports 0 to 31 (R343). -/
  ports : AMap Port := []
  /-- Contexts this device is the source of (R349). -/
  out : List Ctx := []
  /-- Contexts this device is the destination of (R349). -/
  inn : List RCtx := []
  /-- Unreachable devices (R351). -/
  unreach : List Nat := []
  /-- Tablet rack, 4,096 entries (R359). -/
  rack : AMap RackEnt := []
  /-- Next entry of the round robin (R359). -/
  rackNext : Nat := 0
  /-- Siding, 1,024 stores (R361). -/
  siding : List Held := []
  /-- Tablets cleared (true) or dropped (false), newest first, 1,024 (R361). -/
  cache : List (BitVec 32 × Bool) := []
  /-- Retry list of each memory station (R356). -/
  retry : AMap (List Retry) := []
  /-- Remote operations without their reply or report (R355). -/
  rops : List ROp := []
  /-- Identity of the next remote operation (R355). -/
  ropNext : Nat := 0
  /-- Packets the device sends itself, oldest first (R352). -/
  loop : List Pkt := []
  /-- Packets given to the links, newest first (an output) (R349). -/
  sent : List Pkt := []
  /-- Issuer and operation of stores that ended here unperformed (R359). -/
  lost : List (Nat × Nat) := []
  deriving DecidableEq, Repr

/-- A record ring (R403, R415). -/
structure Ring where
  /-- BASE (R403, R415). -/
  base : BitVec 64 := 0
  /-- LOG (R403, R415). -/
  log : BitVec 5 := 0
  /-- EN (R403, R415). -/
  en : Bool := false
  /-- PARAM (R415). -/
  param : BitVec 32 := 0
  /-- VECTOR (R403). -/
  vector : BitVec 11 := 0
  /-- IRQEN (R403). -/
  irqen : Bool := false
  /-- HEAD (R403, R415). -/
  head : BitVec 32 := 0
  /-- TAIL (R403, R415). -/
  tail : BitVec 32 := 0
  /-- DROPS (R403, R415). -/
  drops : BitVec 32 := 0
  deriving DecidableEq, Repr

/-- Substation, rail and clocks (R57 to R62, R423). -/
structure Power where
  /-- Stack rail, mV (R4, R59). -/
  railMV : Nat := 1450
  /-- Firmware maximum, MHz (R58, R420). -/
  fwmax : Nat := 780
  /-- Budget request, MHz (R58). -/
  budget : Nat := 780
  /-- Thermal request, MHz (R61). -/
  thermal : Nat := 780
  /-- Slack request, MHz (R62). -/
  slack : Nat := 780
  /-- Temperature of each cluster, 0.1 degree C (R60). -/
  temps : AMap Int := []
  /-- Part of a ns carried by the clock, in units of 1/MHz (R4). -/
  wallFrac : Nat := 0
  /-- WALL since which the rail is out of band (R127). -/
  outSince : Option Nat := none
  /-- SUPPLY_OUT_OF_BAND raised for it (R127). -/
  outRaised : Bool := false
  /-- The thermal request is being lowered (R61). -/
  cooling : Bool := false
  /-- WALL of the last 1 µs tick (R58). -/
  tickWall : Option Nat := none
  /-- WALL of the last thermal step (R61). -/
  thermWall : Option Nat := none
  /-- WALL of the last slack reading (R62). -/
  slackWall : Option Nat := none
  /-- RAILMV (R423). -/
  tRail : BitVec 16 := 0
  /-- SETMV (R423). -/
  tSet : BitVec 16 := 0
  /-- FWMAX, BUDGET, THERMAL, SLACK (R423). -/
  tReq : W64 := 0
  /-- UPMA, LOMA, SHUNTMA, GRANT of each pair (R423). -/
  tPair : AMap W64 := []
  /-- TEMP of each cluster (R423). -/
  tTemp : AMap (BitVec 16) := []
  /-- Filtered collective slack, in units of 10^-12 (R62). -/
  slackF : Nat := 0
  deriving DecidableEq, Repr

/-- Firmware, mailbox, boot and post-mortem (R406, R420 to R426). -/
structure Fw where
  /-- DEVSTATE.PHASE (R424). -/
  phase : Nat := 1
  /-- RESETCAUSE.FIRST (R406). -/
  first : Nat := 1
  /-- RESETCAUSE.ALSO (R406). -/
  also : BitVec 8 := 0
  /-- RESETCAUSE.CODE (R406). -/
  rcode : BitVec 16 := 0
  /-- OP (R420). -/
  op : BitVec 16 := 0
  /-- BUSY (R420). -/
  busy : Bool := false
  /-- RESULT (R420). -/
  result : BitVec 8 := 0
  /-- VECTOR (R420). -/
  vector : BitVec 11 := 0
  /-- IRQEN (R420). -/
  irqen : Bool := false
  /-- ARG0 to ARG31 (R420). -/
  arg : List W64 := List.replicate 32 0
  /-- RESP0 to RESP31 (R420). -/
  resp : List W64 := List.replicate 32 0
  /-- RACKCTX (R420). -/
  rackctx : Nat := 15
  /-- TMIG (R420). -/
  tmig : Nat := 95
  /-- S0 (R420). -/
  s0 : Nat := 3
  /-- UBTOW (R420). -/
  ubtow : Nat := 100000
  /-- RLLIM (R420). -/
  rllim : Nat := 1000000
  /-- LOCKTAB as set; none until Limman has chosen it (R420). -/
  locktab : Option W64 := none
  /-- Launch-source filter: entries with V = 1 (R41, R420). -/
  allow : AMap Nat := []
  /-- Rack packets discarded (R41). -/
  rackDrops : Nat := 0
  /-- PMBASE (R422). -/
  pmbase : BitVec 64 := 0
  /-- PMSTAT.VALID (R422). -/
  pmvalid : Bool := false
  /-- PMSTAT.LOST (R422). -/
  pmlost : BitVec 8 := 0
  /-- WALL of the last report (R424). -/
  reportWall : Nat := 0
  /-- Image installed at the next reset (R420). -/
  staged : Option (Nat × Nat) := none
  /-- Identity of the installed image (R425). -/
  image : Nat := 0
  /-- SPDM responses given (an output) (R426). -/
  spdm : List (Nat × List Byte) := []
  /-- GID and CODE of the last 4,096 completions, newest first (R45). -/
  done : List (Nat × Nat) := []
  /-- A post-mortem image is being written (R422). -/
  imaging : Bool := false
  /-- WALL is to be set in phase 4 (R407, R424). -/
  setWall : Bool := true
  /-- The Druny links are to be trained in phase 4 (R407, R424). -/
  train : Bool := true
  /-- Cause and code of a reset that waits for its post-mortem image (R421, R422). -/
  waiting : Option (Nat × Nat) := none
  /-- The measurement register, 64 bytes (R425). -/
  meas : List W64 := List.replicate 8 0
  /-- The device identity key, once it has been derived (R426). -/
  key : Option Nat := none
  deriving DecidableEq, Repr

/-- Network engine tables (R366). -/
structure NetEng where
  /-- EPBASE (R366). -/
  epbase : BitVec 64 := 0
  /-- WINBASE (R366). -/
  winbase : BitVec 64 := 0
  /-- IIDX (R366). -/
  iidx : BitVec 12 := 0
  /-- IWIN (R366). -/
  iwin : Bool := false
  /-- IALL (R366). -/
  iall : Bool := false
  /-- IBUSY (R366). -/
  ibusy : Bool := false
  /-- Cached endpoint entries (R366). -/
  eps : AMap (List Byte) := []
  /-- Cached window entries (R366). -/
  wins : AMap (List Byte) := []
  /-- Requests posted and not ended (R369). -/
  reqs : List NetReq := []
  /-- Packets given to the Ethernet ports (an output) (R365). -/
  sent : List (List Byte) := []
  /-- Copies of reports sent back to their rack endpoints (an output) (R63). -/
  reports : List (Nat × List Byte) := []
  deriving DecidableEq, Repr

/-- A report whose bytes are on their way to a peer (R63, R168). -/
structure RepPend where
  /-- Remote stores that carry its bytes (R63). -/
  ops : List Nat := []
  /-- Launch context (R63). -/
  ctx : Nat := 0
  /-- GID (R63). -/
  gid : Nat := 0
  /-- KIND (R63). -/
  kind : Nat := 0
  /-- CODE (R63). -/
  code : Nat := 0
  /-- It is a completion that the dispatcher remembers (R45). -/
  done : Bool := false
  deriving DecidableEq, Repr

/-- The whole machine. -/
structure State where
  /-- SP, register stores, vaults, GDDR-7, LPDDR-6 and host memory, flat (Addr) (R164, R371). -/
  mem : Memory := {}
  /-- Full/empty bits: byte 1 at granule address when full (R169). -/
  fe : Memory := {}
  /-- Uncorrectable granules: byte 1 when uncorrectable (R181). -/
  bad : Memory := {}
  /-- WALL.NS (R124). -/
  wall : Nat := 0
  /-- Cores that differ from a core after reset (R2). -/
  cores : AMap Core := []
  /-- Physical cores not present (R53). -/
  absent : List Nat := []
  /-- Clusters (R2). -/
  clusters : AMap Cluster := []
  /-- Stacked pairs (R2). -/
  pairs : AMap Pair := []
  /-- Translation stations 0 to 15 (R177). -/
  stations : AMap Station := []
  /-- Launch contexts 0 to 15 (R42). -/
  ctxs : AMap LaunchCtx := []
  /-- WALL of the last migration of each quadrant (R60). -/
  quadMove : AMap Nat := []
  /-- Context served last by the round robin (R44). -/
  lastCtx : Nat := 15
  /-- Admitted graphs, oldest first (R44). -/
  graphs : List Graph := []
  /-- Stores and atomics not yet performed, oldest first (R284). -/
  posted : List Posted := []
  /-- Copies in flight, parked or failed with chunks in flight (R194). -/
  copies : List Copy := []
  /-- Identity of the next copy (R287). -/
  copyNext : Nat := 0
  /-- Messages in transit (R204). -/
  transit : List Msg := []
  /-- Window marks in transit (R304). -/
  marksT : List Mark := []
  /-- Device park, 1,024 entries (R116). -/
  devPark : List Parked := []
  /-- Messages held for a task that is being moved or is saved (R55). -/
  heldMsgs : List Msg := []
  /-- Asynchronous events on their way to their berths (R385). -/
  asyncs : List AsyncEv := []
  /-- Fabric (R342). -/
  fabric : Fabric := {}
  /-- Network engine (R365). -/
  net : NetEng := {}
  /-- Fault log (R403). -/
  flog : Ring := {}
  /-- Accounting ring (R415). -/
  rAcct : Ring := {}
  /-- Trace ring (R415). -/
  rTrace : Ring := {}
  /-- Sample ring (R415). -/
  rSample : Ring := {}
  /-- The last 256 fault records, newest first (R421). -/
  lastFaults : List (List Byte) := []
  /-- Supply and clocks (R59). -/
  power : Power := {}
  /-- Firmware, mailbox, boot (R420). -/
  fw : Fw := {}
  /-- Device gauges 0 to 63 (R391). -/
  dgauges : AMap Gauge := []
  /-- MSI-X vectors signalled, newest first (an output) (R178, R404). -/
  msix : List Nat := []
  /-- Data returned to the host; none: poisoned (an output) (R371). -/
  hostOut : List (Option (List Byte)) := []
  /-- The stream that issues: core, and true for the pilot (the model's own) (-). -/
  cur : Nat × Bool := (0, false)
  /-- What moves next, in order (the model's own) (-). -/
  agenda : List Move := []
  /-- Round-robin place of the default schedule (the model's own) (-). -/
  turn : Nat := 0
  /-- Counter of the free values drawn so far (the model's own) (-). -/
  fresh : Nat := 0
  /-- Bytes of GDDR-7 fitted (R1, R5, R176). -/
  gddr : Nat := 2 ^ 37
  /-- Bytes of LPDDR-6 fitted (R1, R5, R176). -/
  lpddr : Nat := 2 ^ 40
  /-- Place of the next arrival at a home (R170). -/
  arrNext : Nat := 0
  /-- Dirty 64-byte lines of the station caches (flat address / 64), newest first (R5, R407). -/
  dirty : List Nat := []
  /-- Reports on their way to a peer, oldest first (R63). -/
  repPend : List RepPend := []
  deriving DecidableEq, Repr

/-- The machine right after power-on reset (R407): every field at its reset value. -/
def State.reset : State := {}

end Sys2Proof.Machine
end

