-- ==== Sys2Proof/Machine/Ops.lean ====
section
/-! DEFINITION. The named operations over the state that every family shares: units, streams, registers, queues, the
rings of records, events, the ends of activations and tasks, and taking a trap. -/

namespace Sys2Proof.Machine

/- Units (R2). -/

def coreOf (s : State) (c : Nat) : Core := amGet {} s.cores c
def setCore (s : State) (c : Nat) (x : Core) : State := { s with cores := amSet s.cores c x }
def updCore (s : State) (c : Nat) (f : Core → Core) : State := setCore s c (f (coreOf s c))

/-- The cluster, stacked pair, quadrant and translation station of a core (R2, R168). -/
def clusterNo (c : Nat) : Nat := c / 8
def pairNo (c : Nat) : Nat := c / 16
def quadNo (c : Nat) : Nat := c / 256
def stationNo (c : Nat) : Nat := c / 64

def clusterOf (s : State) (n : Nat) : Cluster := amGet {} s.clusters n
def setCluster (s : State) (n : Nat) (x : Cluster) : State := { s with clusters := amSet s.clusters n x }
def pairOf (s : State) (n : Nat) : Pair := amGet {} s.pairs n
def setPair (s : State) (n : Nat) (x : Pair) : State := { s with pairs := amSet s.pairs n x }
def stationOf (s : State) (n : Nat) : Station := amGet {} s.stations n
def setStation (s : State) (n : Nat) (x : Station) : State := { s with stations := amSet s.stations n x }
def ctxOf (s : State) (n : Nat) : LaunchCtx := amGet {} s.ctxs n
def setCtx (s : State) (n : Nat) (x : LaunchCtx) : State := { s with ctxs := amSet s.ctxs n x }

/-- CYC of a core (R123). -/
def cycOf (s : State) (c : Nat) : Nat := (clusterOf s (clusterNo c)).cyc

/-- WALL at the last cyc edge of a core, which belongs to its CYC (R126, R144). -/
def edgeOf (s : State) (c : Nat) : Nat := (clusterOf s (clusterNo c)).edgeWall

def berthAt (c : Core) (b : BitVec 2) : Berth := c.berths[b.toNat]'(by have := b.isLt; omega)
def setBerth (c : Core) (b : BitVec 2) (x : Berth) : Core :=
  { c with berths := c.berths.set b.toNat x (by have := b.isLt; omega) }
def updBerth (s : State) (c : Nat) (b : BitVec 2) (f : Berth → Berth) : State :=
  updCore s c (fun k => setBerth k b (f (berthAt k b)))

def streamOf (c : Core) (pilot : Bool) : Stream := if pilot then c.pi else c.ex
def setStream (c : Core) (pilot : Bool) (x : Stream) : Core :=
  if pilot then { c with pi := x } else { c with ex := x }
def updStream (s : State) (c : Nat) (pilot : Bool) (f : Stream → Stream) : State :=
  updCore s c (fun k => setStream k pilot (f (streamOf k pilot)))

/-- The graph of a GID that is admitted. -/
def findGraph (s : State) (gid : Nat) : Option Graph := s.graphs.find? (fun g => g.gid == gid)
def graphOf (s : State) (gid : Nat) : Graph := (findGraph s gid).getD {}
def updGraph (s : State) (gid : Nat) (f : Graph → Graph) : State :=
  { s with graphs := s.graphs.map (fun g => if g.gid = gid then f g else g) }

/-- The berth whose activation a core runs, and that berth's number. -/
def actBerthNo (c : Core) : BitVec 2 := match c.act with | some a => a.berth | none => 0
def actBerth (c : Core) : Berth := berthAt c (actBerthNo c)

/- The stream that issues. -/

def curCore (s : State) : Core := coreOf s s.cur.1
def curStream (s : State) : Stream := streamOf (curCore s) s.cur.2
def curBerth (s : State) : Berth := actBerth (curCore s)
def curGraph (s : State) : Graph := graphOf s (curBerth s).gid
def updCur (s : State) (f : Stream → Stream) : State := updStream s s.cur.1 s.cur.2 f
def updCurCore (s : State) (f : Core → Core) : State := updCore s s.cur.1 f
def updCurBerth (s : State) (f : Berth → Berth) : State := updBerth s s.cur.1 (actBerthNo (curCore s)) f

/-- The stream that issues runs the supervisor routine (R381). -/
def supNow (s : State) : Bool := !s.cur.2 && (curCore s).sup

def sGet (v : Vector W64 64) (n : BitVec 6) : W64 := v[n.toNat]'(by have := n.isLt; omega)
def sSet (v : Vector W64 64) (n : BitVec 6) (x : W64) : Vector W64 64 :=
  v.set n.toNat x (by have := n.isLt; omega)

/-- k0 reads true and discards what is written to it (R74, R77). -/
def kGet (v : Vector Bool 8) (n : BitVec 3) : Bool :=
  if n = 0 then true else v[n.toNat]'(by have := n.isLt; omega)
def kSet (v : Vector Bool 8) (n : BitVec 3) (x : Bool) : Vector Bool 8 :=
  if n = 0 then v else v.set n.toNat x (by have := n.isLt; omega)

/-- The scalar register of the stream that issues, in the supervisor bank in supervisor mode (R77, R383). -/
def readS (s : State) (n : BitVec 6) : W64 :=
  if supNow s then sGet (curCore s).supS n else sGet (curStream s).s n

/-- A region's tag of a register that takes an untagged value is dropped (R323). -/
def dropTag (c : Core) (n : BitVec 6) : Core :=
  { c with region := c.region.map (fun r => { r with tags := amDel r.tags n.toNat }) }

/-- A result that an earlier vector operation has still to write to a scalar register of a bank is not written any more: a later
instruction of the stream has written the register (R147). -/
def dropResult (c : Core) (sup : Bool) (n : BitVec 6) : Core :=
  { c with vq := c.vq.map (fun v => if v.d = .scalar n ∧ v.sup = sup then { v with d := .none } else v) }

def writeS (s : State) (n : BitVec 6) (v : W64) : State :=
  if supNow s then updCurCore s (fun c => dropResult { c with supS := sSet c.supS n v } true n)
  else if s.cur.2 then updCur s (fun t => { t with s := sSet t.s n v })
  else updCurCore s (fun c => dropResult (dropTag { c with ex := { c.ex with s := sSet c.ex.s n v } } n) false n)

def readK (s : State) (n : BitVec 3) : Bool :=
  if supNow s then kGet (curCore s).supK n else kGet (curStream s).k n
def writeK (s : State) (n : BitVec 3) (v : Bool) : State :=
  if supNow s then updCurCore s (fun c => { c with supK := kSet c.supK n v })
  else updCur s (fun t => { t with k := kSet t.k n v })

/-- The program counter of the stream that issues (R67, R383). -/
def pcNow (s : State) : W64 := if supNow s then (curCore s).supPc else (curStream s).pc
def setPc (s : State) (v : W64) : State :=
  if supNow s then updCurCore s (fun c => { c with supPc := v }) else updCur s (fun t => { t with pc := v })

def waitNow (s : State) : Option Wait := if supNow s then (curCore s).supWait else (curStream s).wait
def setWait (s : State) (w : Option Wait) : State :=
  if supNow s then updCurCore s (fun c => { c with supWait := w }) else updCur s (fun t => { t with wait := w })

/- Queues (R119). -/

def qGet (c : Core) (q : BitVec 4) : List QEnt := c.q[q.toNat]'(by have := q.isLt; omega)
def qSet (c : Core) (q : BitVec 4) (l : List QEnt) : Core :=
  { c with q := c.q.set q.toNat l (by have := q.isLt; omega) }

/-- How many entries a queue holds at most (R119). -/
def qDepth (q : BitVec 4) : Nat := if q.toNat < 8 then 8 else if q.toNat < 12 then 4 else 2

/-- Entries of a queue that vector operations have still to push (R232). -/
def pendingPush (k : Core) (q : BitVec 4) : Nat := (k.vq.filter (fun v => decide (v.d = .queue q))).length

def qFull (s : State) (q : BitVec 4) : Bool :=
  decide (qDepth q ≤ (qGet (curCore s) q).length + pendingPush (curCore s) q)

/-- How many entries of a queue were pushed in the current cyc. -/
def qNew (c : Core) (q : BitVec 4) : Nat := c.qnew[q.toNat]'(by have := q.isLt; omega)

/-- How many entries of a queue may be popped: those of earlier cyc (R119). -/
def qReady (c : Core) (q : BitVec 4) : Nat := (qGet c q).length - qNew c q

/-- A queue takes an entry, which may be popped from the next cyc onward (R119). -/
def qAdd (c : Core) (q : BitVec 4) (e : QEnt) : Core :=
  { qSet c q (qGet c q ++ [e]) with qnew := c.qnew.set q.toNat (qNew c q + 1) (by have := q.isLt; omega) }

def qPush (s : State) (q : BitVec 4) (e : QEnt) : State := updCurCore s (fun c => qAdd c q e)
def qPop (s : State) (q : BitVec 4) : State := updCurCore s (fun c => qSet c q (qGet c q).tail)

/- Route tags (R10). -/

def tagDest (r : BitVec 32) : Nat := r.toNat / 2 ^ 16
def tagChan (r : BitVec 32) : BitVec 3 := BitVec.ofNat 3 (fieldAt r.toNat 13 3)
def tagHidx (r : BitVec 32) : Nat := fieldAt r.toNat 9 4
def tagUtag (r : BitVec 32) : Nat := fieldAt r.toNat 0 9

def chanGet (b : Berth) (c : BitVec 3) : List Msg := b.chans[c.toNat]'(by have := c.isLt; omega)
def chanSet (b : Berth) (c : BitVec 3) (l : List Msg) : Berth :=
  { b with chans := b.chans.set c.toNat l (by have := c.isLt; omega) }

/- Records and rings (R402 to R405, R415). -/

/-- The contents of a fault record (R402). -/
structure RecIn where
  code : Nat
  action : Nat
  engine : Nat := 0
  eid : Nat := 0
  gid : Nat := 0
  task : Nat := 0
  lcore : Nat := 0
  berth : Nat := 0
  flags : Nat := 0
  acts : Nat := 0
  addr : W64 := 0
  pc : W64 := 0
  wall : Nat := 0
  detail : List Byte := []
  deriving DecidableEq, Repr

/-- SEVERITY, fixed by the action (R402). -/
def severityOf (action : Nat) : Nat := if action < 2 then 0 else action - 1

/-- The 64 bytes of a fault record (R402). -/
def recBytes (r : RecIn) : List Byte :=
  leBytes 1 1 ++ leBytes 1 (r.action + 16 * severityOf r.action) ++ leBytes 2 r.code ++ leBytes 1 r.engine ++ leBytes 1 0
    ++ leBytes 2 r.eid ++ leBytes 4 r.gid ++ leBytes 4 r.task ++ leBytes 2 r.lcore ++ leBytes 1 r.berth
    ++ leBytes 1 r.flags ++ leBytes 4 r.acts ++ leBytes 8 r.addr.toNat ++ leBytes 8 r.pc.toNat ++ leBytes 8 r.wall
    ++ sliceZ r.detail 0 16

/-- A record put into a ring whose entries take size bytes, or dropped (R404, R415). True: written. -/
def ringPut (r : Ring) (m : Memory) (size : Nat) (bs : List Byte) : Ring × Memory × Bool :=
  if r.en = true ∧ (r.head - r.tail).toNat < 2 ^ r.log.toNat then
    let a := gddrBase + r.base.toNat / 4096 * 4096 + r.head.toNat % 2 ^ r.log.toNat * size
    ({ r with head := r.head + 1 }, wrBytes m a bs, true)
  else ({ r with drops := if r.drops.toNat = 2 ^ 32 - 1 then r.drops else r.drops + 1 }, m, false)

/-- A fault record is written or dropped, with its count in the graph (R63, R404). -/
def writeRec (s : State) (r : RecIn) : State × Bool :=
  let bs := recBytes r
  let (ring, mem, ok) := ringPut s.flog s.mem 64 bs
  let s1 := { s with flog := ring, mem := mem, lastFaults := (bs :: s.lastFaults).take 256,
                     msix := if ok = true ∧ ring.irqen = true then ring.vector.toNat :: s.msix else s.msix }
  (if r.gid = 0 then s1 else updGraph s1 r.gid (fun g => { g with faults := g.faults + 1 }), ok)

def putRec (s : State) (r : RecIn) : State := (writeRec s r).1

/-- The action of each error code (R405): 0 RESUME, 1 RETRY, 2 FAIL-TASK, 3 FAIL-GRAPH, 4 RESET-DEVICE. -/
def actionOf (code : Nat) : Nat :=
  if code ∈ [0x0113, 0x0115, 0x0116, 0x0305, 0x0502, 0x0505, 0x0603, 0x0606, 0x0607, 0x0701, 0x0702, 0x0704, 0x0801,
      0x0802, 0x0902] then 0
  else if code = 0x0401 then 1
  else if code ∈ [0x0114, 0x0605, 0x0604] then 3
  else if code ∈ [0x0703, 0x0803, 0x0901, 0x0903] then 4
  else 2

/-- A device record: it belongs to no graph (R380). -/
def deviceRec (s : State) (code engine eid : Nat) (detail : List Byte) : State :=
  putRec s { code := code, action := actionOf code, engine := engine, eid := eid, wall := s.wall, detail := detail }

/-- The fields of a record that name a berth of a core (R402). -/
def berthRec (s : State) (c : Nat) (b : BitVec 2) (code : Nat) : RecIn :=
  let k := berthAt (coreOf s c) b
  { code := code, action := actionOf code, eid := c, gid := k.gid, task := k.task, lcore := k.lcore.toNat,
    berth := b.toNat, acts := k.acts, wall := s.wall }

/-- An asynchronous event leaves for the berth of a task; WALL of its record is that of the fault (R380, R385, R402). -/
def raiseAsync (s : State) (gid task : Nat) (ord : Bool) (e : Event) : State :=
  { s with asyncs := s.asyncs ++ [{ gid := gid, task := task, ord := ord, ev := { e with wall := s.wall } }] }

def raiseBerth (s : State) (c : Nat) (b : BitVec 2) (e : Event) : State :=
  let k := berthAt (coreOf s c) b
  raiseAsync s k.gid k.task k.ordered e

/- Gauges (R391, R416). -/

def gSource (g : Gauge) : Nat := fieldAt g.cfg.toNat 0 6
def gUnit (g : Gauge) : Nat := fieldAt g.cfg.toNat 8 7

/-- The bin of a sample (R391). -/
def gaugeBin (cfg v : Nat) : Nat :=
  let low := fieldAt cfg 16 32
  let wid := fieldAt cfg 48 16
  if v < low then 0
  else if bitAt cfg 6 then min 15 (bitLen (v - low + 1) - 1)
  else min 15 ((v - low) / wid)

/-- A gauge after a sample; true: the sample raises the alarm (R391, R416). -/
def gaugeAdd (g : Gauge) (v : Nat) : Gauge × Bool :=
  let b := gaugeBin g.cfg.toNat v
  let bins := g.bins ++ List.replicate (16 - g.bins.length) 0
  ({ g with min := if v < g.min.toNat then BitVec.ofNat 64 v else g.min,
            max := if g.max.toNat < v then BitVec.ofNat 64 v else g.max,
            count := g.count + 1, sum := min (g.sum + v) (2 ^ 64 - 1),
            bins := updAt bins b (· + 1) },
   b == 15 && bitAt g.cfg.toNat 15)

/-- The detail of GAUGE_ALARM (R416). -/
def alarmDetail (idx : Nat) (dev : Bool) (v : Nat) : List Byte :=
  leBytes 1 (idx + 64 * bitNat dev) ++ leBytes 7 0 ++ leBytes 8 v

def gaugeGet (c : Core) (i : BitVec 2) : Gauge := c.gauges[i.toNat]'(by have := i.isLt; omega)
def gaugeSet (c : Core) (i : BitVec 2) (g : Gauge) : Core :=
  { c with gauges := c.gauges.set i.toNat g (by have := i.isLt; omega) }

/-- A core gauge samples a value (R391). -/
def sampleCoreGauge (s : State) (c : Nat) (i : BitVec 2) (v : Nat) : State :=
  let k := coreOf s c
  let (g, al) := gaugeAdd (gaugeGet k i) v
  let s1 := setCore s c (gaugeSet k i g)
  match al, g.berth with
  | true, some b => raiseBerth s1 c b { code := 0x0606, detail := alarmDetail i.toNat false v, eid := c }
  | _, _ => s1

/-- A device gauge samples a value (R391). -/
def sampleDevGauge (s : State) (i v : Nat) : State :=
  let (g, al) := gaugeAdd (amGet {} s.dgauges i) v
  let s1 := { s with dgauges := amSet s.dgauges i { g with last := some s.wall } }
  if al then deviceRec s1 0x0606 12 i (alarmDetail i true v) else s1

/-- The device gauges that follow a source of a unit sample a value (R416). UNIT counts for sources 7 to 10 alone (R391). -/
def sampleDevSource (s : State) (src unit v : Nat) : State :=
  s.dgauges.foldl (fun t p => if gSource p.2 = src ∧ (src < 7 ∨ gUnit p.2 = unit) then sampleDevGauge t p.1 v else t) s

/-- The gauges of a core that follow a source of a berth, and the device gauges that follow it, sample a value (R391,
R416). -/
def sampleSource (s : State) (c : Nat) (b : BitVec 2) (src v : Nat) : State :=
  [0, 1, 2, 3].foldl (fun t i =>
    let g := gaugeGet (coreOf t c) i
    if g.berth = some b ∧ gSource g = src then sampleCoreGauge t c i v else t) (sampleDevSource s src 0 v)

/- Parks (R116, R117, R410). -/

/-- The task bound at a logical core of a graph, or all ones (R116). -/
def taskAt (s : State) (gid lcore : Nat) : Nat :=
  match amFind (graphOf s gid).remap lcore with
  | some (b, c) => (berthAt (coreOf s c) (BitVec.ofNat 2 b)).task
  | none => 0xFFFFFFFF

/-- An UNBOUND_HANDLER record (R116). -/
def unboundRec (s : State) (m : Msg) (eid detail : Nat) : State :=
  putRec s { code := 0x0601, action := if detail = 0 then 0 else 3, engine := 11, eid := eid, gid := m.gid,
             task := taskAt s m.gid (tagDest m.route), lcore := tagDest m.route, wall := s.wall,
             detail := leBytes 4 detail ++ leBytes 4 m.route.toNat ++ leBytes 2 m.sender.toNat ++ leBytes 2 m.seq.toNat
               ++ leBytes 4 m.sendt.toNat }

/-- Every berth of a graph, with its core. -/
def berthsOf (s : State) (gid : Nat) : List (Nat × BitVec 2) :=
  s.cores.flatMap (fun p => ([0, 1, 2, 3] : List (BitVec 2)).filterMap (fun b =>
    let k := berthAt p.2 b
    if k.gid = gid ∧ k.state ≠ .free then some (p.1, b) else none))

/-- FAIL-GRAPH (R65): the berths of the graph go to STOPPING, its uncommitted ordered tasks are discarded. -/
def failGraph (s : State) (gid code : Nat) (task : Option Nat) : State :=
  let s1 := (berthsOf s gid).foldl (fun t p => updBerth t p.1 p.2 (fun k =>
    { k with state := .stopping, stopFor := some .failGraph })) s
  updGraph s1 gid (fun g =>
    { g with failing := true, failCode := if g.failCode = 0 then code else g.failCode,
             failTask := if g.failCode = 0 ∧ g.failTask = none then task else g.failTask,
             ords := g.ords.map (fun o => if o.st = .committed then o else { o with st := .discarded, region := none }),
             remap := g.remap.filter (fun e => !(berthsOf s gid).any (fun p => p.1 = e.2.2 ∧ p.2.toNat = e.2.1)) })

/-- A message goes to the device park, or is discarded when that is full (R116, R117). -/
def parkDevice (s : State) (m : Msg) : State :=
  if s.devPark.length < 1024 then
    unboundRec { s with devPark := s.devPark ++ [{ msg := { m with slot := false }, since := s.wall }] } m 0xFFFF 0
  else failGraph (unboundRec s m 0xFFFF 2) m.gid 0x0601 none

/-- A parked message moves from the park of a berth to the device park: it has its record already, and its time runs on
(R116, R117, R410). -/
def moveParked (s : State) (p : Parked) : State :=
  if s.devPark.length < 1024 then { s with devPark := s.devPark ++ [p] }
  else failGraph (unboundRec s p.msg 0xFFFF 2) p.msg.gid 0x0601 none

/-- A message goes to the park of a berth, or is discarded when that is full (R116, R117). -/
def parkBerth (s : State) (c : Nat) (b : BitVec 2) (m : Msg) : State :=
  if (berthAt (coreOf s c) b).park.length < 8 then
    unboundRec (updBerth s c b (fun k => { k with park := k.park ++ [{ msg := { m with slot := false }, since := s.wall }] })) m c 0
  else failGraph (unboundRec s m c 2) m.gid 0x0601 none

/- The ends of activations and tasks (R115, R386, R409 to R418). -/

def satAdd64 (a b : Nat) : Nat := min (a + b) (2 ^ 64 - 1)

/-- Transit of a message (R412). -/
def transitOf (m : Msg) : Nat :=
  let t := (m.arr % 2 ^ 32 + 2 ^ 32 - m.sendt.toNat) % 2 ^ 32
  if 2 ^ 31 ≤ t then 0 else t

/-- The accounting table after an activation (R412, R413). -/
def acctAdd (l : List AcctEnt) (sender : BitVec 16) (tr qu rc rn : Nat) : List AcctEnt :=
  let add (e : AcctEnt) : AcctEnt :=
    { e with count := min (e.count + 1) (2 ^ 32 - 1), transit := satAdd64 e.transit tr, queue := satAdd64 e.queue qu,
             runc := satAdd64 e.runc rc, runn := satAdd64 e.runn rn }
  match (l.take 64).findIdx? (fun e => e.sender == sender) with
  | some i => updAt l i add
  | none => if l.length < 64 then l ++ [add { sender := sender }]
            else if l.length = 64 then l ++ [add { sender := 0xFFFF }] else updAt l 64 add

def acctEntBytes (e : AcctEnt) : List Byte :=
  leBytes 2 e.sender.toNat ++ leBytes 2 0 ++ leBytes 4 e.count ++ leBytes 8 e.transit ++ leBytes 8 e.queue
    ++ leBytes 8 e.runc ++ leBytes 8 e.runn

/-- The accounting record of a berth (R414). KIND: 1 FINISH, 2 saved, 3 failed. -/
def acctRec (s : State) (k : Berth) (kind : Nat) : List Byte :=
  let h := leBytes 4 k.gid ++ leBytes 4 k.task ++ leBytes 2 k.lcore.toNat ++ leBytes 1 kind ++ leBytes 1 k.acct.length
    ++ leBytes 4 k.acctActs ++ leBytes 8 s.wall
  sliceZ (sliceZ h 0 0x40 ++ k.acct.flatMap acctEntBytes) 0 4096

/-- The accounting record is written (R413, R414). -/
def writeAcct (s : State) (c : Nat) (b : BitVec 2) (kind : Nat) : State :=
  let (r, m, _) := ringPut s.rAcct s.mem 4096 (acctRec s (berthAt (coreOf s c) b) kind)
  { s with rAcct := r, mem := m }

/-- A graph is traced (R418). -/
def traced (s : State) (gid : Nat) : Bool := s.rTrace.param.toNat = 0 || s.rTrace.param.toNat = gid

/-- A trace record (R418). -/
def writeTrace (s : State) (c : Nat) (b : BitVec 2) (kind route entry cycs wall : Nat) : State :=
  let k := berthAt (coreOf s c) b
  if traced s k.gid then
    let g := graphOf s k.gid
    let x := if k.lcore = 0xFFFF then 0xFFFF else k.lcore.toNat % g.gridw
    let y := if k.lcore = 0xFFFF then 0xFFFF else k.lcore.toNat / g.gridw
    let bs := leBytes 1 kind ++ leBytes 1 b.toNat ++ leBytes 2 x ++ leBytes 2 y ++ leBytes 2 c ++ leBytes 4 k.gid
      ++ leBytes 4 route ++ leBytes 4 entry ++ leBytes 4 cycs ++ leBytes 8 wall
    let (r, m, _) := ringPut s.rTrace s.mem 32 bs
    { s with rTrace := r, mem := m }
  else s

def dlGet (c : Core) (i : BitVec 2) : W64 := c.dl[i.toNat]'(by have := i.isLt; omega)
def dlSet (c : Core) (i : BitVec 2) (v : W64) : Core :=
  { c with dl := c.dl.set i.toNat v (by have := i.isLt; omega) }
/-- A deadline slot is written by an instruction; its firing waits for a later edge (R131, R144). -/
def dlWrite (c : Core) (i : BitVec 2) (v : W64) : Core :=
  { dlSet c i v with dlNew := c.dlNew ||| BitVec.ofNat 4 (2 ^ i.toNat) }
def dlAtGet (c : Core) (i : BitVec 2) : Nat := c.dlAt[i.toNat]'(by have := i.isLt; omega)
def dlAtSet (c : Core) (i : BitVec 2) (v : Nat) : Core :=
  { c with dlAt := c.dlAt.set i.toNat v (by have := i.isLt; omega) }

/-- ARMED, FIRED and SEEN of a deadline slot (R131). -/
def dlArmed (v : W64) : Bool := v.getLsbD 63
def dlFired (v : W64) : Bool := v.getLsbD 62
def dlSeen (v : W64) : Bool := v.getLsbD 60

/-- The slots that were missed (R132). -/
def missedMask (c : Core) : Nat :=
  ([0, 1, 2, 3] : List (BitVec 2)).foldl (fun a i =>
    let v := dlGet c i
    a + bitNat (dlArmed v && dlFired v && !dlSeen v) * 2 ^ i.toNat) 0

/-- The instruction at which a stream stands is marked and has not ended (R417). -/
def atMark (t : Stream) : Bool := t.marked && !t.markDone && !t.markEng

/-- The marked instruction at which a stream stands ends (R417). flags, as in SFLAGS: 0 it completes, 2 its guard is false, 4 it traps,
8 it is abandoned. -/
def endMark (wall : Nat) (flags : BitVec 4) (t : Stream) : Stream :=
  if atMark t then { t with markDone := true, markFlags := flags, markWall := wall } else t

/-- The marked instruction of a stream ends in its engine (R417). -/
def endEngine (wall : Nat) (flags : BitVec 4) (t : Stream) : Stream :=
  if t.markEng then { t with markEng := false, markDone := true, markFlags := flags, markWall := wall } else t

/-- A stream at the end of an activation. -/
def stopStream (wall : Nat) (t : Stream) : Stream :=
  { endEngine wall 8 (endMark wall 8 t) with stopped := true, wait := none, pp := false, buf := [] }

/-- A command of the execute stream that is marked stands in an engine of a core (R417). -/
def markQueued (k : Core) : Bool := k.vq.any (·.mark) || k.mat.queue.any (·.mark)

/-- The marked command of a core was taken out of its engine before it completed (R417). -/
def loseMark (wall : Nat) (k : Core) : Core :=
  if k.ex.markEng && !markQueued k then { k with ex := endEngine wall 8 k.ex } else k

/- Gangs (R258, R261, R263). -/

/-- The logical cores of the gang of width g of a logical core, in member order; none where it can never form (R258). -/
def gangLcores (w lc g : Nat) : List Nat :=
  let x0 := lc % w / g * g
  if x0 + g ≤ w then (List.range g).map (fun i => lc - lc % w + x0 + i) else []

/-- The cores that are members of the formed gang of a core, in member order. -/
def gangMembers (s : State) (c : Nat) : List Nat :=
  let k := coreOf s c
  let b := actBerth k
  if k.mat.formed = false then []
  else
    (gangLcores (graphOf s b.gid).gridw b.lcore.toNat k.mat.width).filterMap (fun l =>
      (s.cores.find? (fun p => p.2.act.isSome && p.2.mat.formed && decide (p.2.mat.width = k.mat.width)
        && decide ((actBerth p.2).gid = b.gid) && decide ((actBerth p.2).lcore.toNat = l))).map (·.1))

def updMat (s : State) (c : Nat) (f : Mat → Mat) : State := updCore s c (fun k => { k with mat := f k.mat })

/-- The failed matrix state: what is queued and not started is discarded; the earlier report stays (R263). -/
def failMat (code detail : Nat) (m : Mat) : Mat :=
  { m with failed := match m.failed with | some x => some x | none => some (code, detail),
           discarded := m.discarded + (m.queue.filter (fun o => !o.started)).length,
           queue := m.queue.filter (·.started), formed := false }

/-- A gang breaks (R263). -/
def breakGang (s : State) (ms : List Nat) (detail : Nat) : State :=
  ms.foldl (fun t d => updCore (updMat t d (failMat 0x0405 detail)) d (loseMark s.wall)) s

/-- A gang operation is queued and has not started. -/
def gangQueued (m : Mat) : Bool := m.queue.any (fun o => !o.started && decide (1 < o.gang))

/-- A core leaves its gang (R261): the gang ends for every member, and breaks where a gang operation is queued and not
started. -/
def leaveGang (s : State) (c : Nat) : State :=
  let ms := gangMembers s c
  let s1 :=
    if ms.any (fun d => gangQueued (coreOf s d).mat) then
      breakGang s (ms.filter (fun d => decide (d ≠ c) || gangQueued (coreOf s d).mat)) 2
    else ms.foldl (fun t d => updMat t d (fun m => { m with formed := false, width := 1 })) s
  updMat s1 c (fun m => { m with formed := false, width := 1, gangCount := 0 })

/-- An activation ends (R115): what is left is discarded, the deadline slots are checked and disarmed, the accounting
entry is added, USED grows, the core leaves its gang (R261) and gives up the commit point (R327). -/
def closeActivation (s0 : State) (c : Nat) : State :=
  match (coreOf s0 c).act with
  | none => s0
  | some a =>
    let s := leaveGang s0 c
    let k := coreOf s c
    let b := a.berth
    let miss := missedMask k
    let runc := cycOf s c - a.startCyc
    let runn := s.wall - a.startWall
    let s1 := if miss = 0 then s
      else putRec s { berthRec s c b 0x0603 with engine := 11, detail := leBytes 1 miss }
    let s2 := sampleSource (sampleSource s1 c b 3 runc) c b 4 runn
    let s3 := writeTrace s2 c b 1 a.msg.route.toNat (4 * fieldAt a.handler.toNat 0 26) (min runc (2 ^ 32 - 1)) a.startWall
    let s4 := updCore s3 c (fun x =>
      { x with act := none, ex := stopStream s.wall x.ex, pi := stopStream s.wall x.pi, q := Vector.replicate 16 [],
               qnew := Vector.replicate 16 0, dl := Vector.replicate 4 0, marks := 0, sup := false, supWait := none,
               stepping := 0, stepped := 0,
               region := none, mat := { x.mat with arrive := none, failed := none, discarded := 0, deliver := [] } })
    let s5 := updGraph s4 (berthAt k b).gid (fun g => if g.commitPt = some c then { g with commitPt := none } else g)
    updBerth s5 c b (fun x =>
      { x with used := x.used + runc, acts := x.acts + 1,
               qres := k.q.toList.any (fun l => !l.isEmpty), cres := decide (a.cursor < a.msg.len), dlmiss := decide (miss ≠ 0),
               acct := acctAdd x.acct a.msg.sender (transitOf a.msg) (a.startWall - a.msg.arr) runc runn,
               acctActs := x.acctActs + 1 })

/-- BFLAGS.SLICED of the berths of a core: another berth of the core holds the same graph (R49, R53). -/
def reslice (s : State) (c : Nat) : State :=
  let k := coreOf s c
  let shared (b : BitVec 2) : Bool := ([0, 1, 2, 3] : List (BitVec 2)).any (fun d =>
    decide (d ≠ b ∧ (berthAt k d).state ≠ .free ∧ (berthAt k d).gid = (berthAt k b).gid))
  ([0, 1, 2, 3] : List (BitVec 2)).foldl (fun t b => updBerth t c b (fun x => { x with sliced := x.state != .free && shared b })) s

/-- A berth becomes FREE (R50, R409, R410): its gauges are disarmed, the remap entry cleared, and messages that still wait
go to the device park. -/
def releaseBerth (s : State) (c : Nat) (b : BitVec 2) : State :=
  let k := berthAt (coreOf s c) b
  let s1 := updCore s c (fun x =>
    { x with gauges := x.gauges.map (fun g => if g.berth = some b then { g with berth := none, cfg := 0 } else g) })
  let s2 := updGraph s1 k.gid (fun g =>
    { g with remap := g.remap.filter (fun e => !(e.2.2 = c ∧ e.2.1 = b.toNat)) })
  let s3 := updBerth s2 c b (fun x => { x with state := .free, stopFor := none, chans := Vector.replicate 8 [], park := [],
                                               winStore := [] })
  k.winStore.foldl parkDevice (k.park.foldl moveParked (k.chans.toList.flatten.foldl parkDevice (reslice s3 c)))

def setTask (g : Graph) (i : Nat) (f : Task → Task) : Graph := { g with tasks := updAt g.tasks i f }
def setOrd (g : Graph) (i : Nat) (f : OTask → OTask) : Graph := { g with ords := updAt g.ords i f }

/-- The events still pending for a berth are logged after its failure (R385). -/
def logPending (s : State) (c : Nat) (b : BitVec 2) : State :=
  (berthAt (coreOf s c) b).pend.foldl (fun t e =>
    if e.code = 0x0305 then t
    else putRec t { berthRec t c b e.code with engine := e.engine, eid := e.eid, addr := e.addr, pc := e.pc,
                                               flags := 1 + 4 * e.space, detail := e.detail, wall := e.wall })
    (updBerth s c b (fun k => { k with pend := [] }))
  |> fun t => updBerth t c b (fun k => { k with pend := [] })

/- Abandoned instructions (R130, R300). -/

/-- The phase of a barrier that has reached the core (R298). -/
def hGet (v : Vector (BitVec 32) 4) (h : Shape) : BitVec 32 := v[shapeCode h]'(by cases h <;> decide)
def hSet (v : Vector (BitVec 32) 4) (h : Shape) (x : BitVec 32) : Vector (BitVec 32) 4 :=
  v.set (shapeCode h) x (by cases h <;> decide)

/-- p ≥ n modulo 2^32 (R300). -/
def phaseGe (p n : BitVec 32) : Bool := decide ((p - n).toNat < 2 ^ 31)

/-- What abandoning an instruction undoes: an HBAR withdraws its arrival while its phase is incomplete, and otherwise
leaves a standing-arrival mark; the mark that it consumed as it issued (aux 2) stands again (R300). -/
def abandonHbar (s : State) (c : Nat) (w : Wait) : State :=
  match w.instr with
  | .hbar _ m =>
    if w.aux = 1 then
      let k := actBerth (coreOf s c)
      let n := hGet k.hbar m.shape
      if phaseGe (hGet k.hdone m.shape) n then
        updCore s c (fun x => { x with marks := x.marks ||| BitVec.ofNat 4 (2 ^ shapeCode m.shape) })
      else updBerth s c (actBerthNo (coreOf s c)) (fun x => { x with hbar := hSet x.hbar m.shape (n - 1) })
    else if w.aux = 2 then updCore s c (fun x => { x with marks := x.marks ||| BitVec.ofNat 4 (2 ^ shapeCode m.shape) })
    else s
  | _ => s

/-- What abandoning takes out of the engines: a command held in a trap window, and the arrival of a GANG (R130, R254,
R260). -/
def abandonEngine (s : State) (c : Nat) (w : Wait) : State :=
  match w.why, w.instr with
  | .window, _ => updCore s c (fun x => { x with vq := x.vq.filter (fun v => !v.win) })
  | _, .gang _ => updMat s c (fun m => { m with arrive := none })
  | _, _ => s

/-- A stream's waiting instruction is abandoned without effect (R130). Of a remote operation only its reply is
forgotten, and of a stalled access the parked request is dropped. -/
def abandonWait (s : State) (c : Nat) (pilot : Bool) : State :=
  match (streamOf (coreOf s c) pilot).wait with
  | none => s
  | some w =>
    let s1 := abandonEngine (abandonHbar s c w) c w
    let s2 := { s1 with
      fabric := { s1.fabric with rops := s1.fabric.rops.map (fun r =>
        if r.core = c ∧ r.pilot = pilot then { r with held := false } else r) },
      stations := s1.stations.map (fun p => (p.1, { p.2 with parked := p.2.parked.filter (fun r => r.who != .stream c pilot) })) }
    updStream s2 c pilot (fun t => { endMark s.wall 8 t with wait := none })

/- Taking a trap (R381, R383, R107). -/

/-- TRAPCAUSE (R382). -/
def causeOf (t : TrapIn) (inreg : Bool) : W64 :=
  BitVec.ofNat 64 (t.code + bitNat t.async * 2 ^ 16 + bitNat inreg * 2 ^ 17)

/-- A stream's part of trap entry: the prefix, and TLAST (R154, DEDUCED, log entry 67), go to its shadow and PP is cleared
(R381). -/
def shadowPrefix (t : Stream) : Stream := { t with shPp := t.pp, shPfxv := t.pfxv, shTlast := t.tlast, pp := false }

/-- The marked instruction of a stream traps in its own right: at a STEP or an asynchronous event none does (R396, R417). -/
def markTrap (s : State) (c : Nat) (pilot : Bool) (t : TrapIn) : State :=
  if t.async ∨ t.code = 0x0115 then s else updStream s c pilot (endMark s.wall 4)

/-- TRAPADDR at trap entry (R381, R382): the address the rule of the trap gives; a free value where none gives one. -/
def trapAddr (s : State) (t : TrapIn) : W64 := t.addr.getD (BitVec.ofNat 64 (Config.freeNat s.fresh))

/-- The report of the failed matrix state is cleared: the core stands at width 1 with an empty matrix queue (R263). -/
def clearMat (s : State) (c : Nat) : State :=
  updMat (leaveGang s c) c (fun m => { m with failed := none, discarded := 0, width := 1 })

/-- An event that is taken leaves the pending list of the berth that runs (R384). -/
def dropPend (e : TrapIn) (k : Core) : Core :=
  if e.async then
    setBerth k (actBerthNo k)
      { actBerth k with pend := (actBerth k).pend.eraseP (fun x => decide (x.code = e.code ∧ some x.addr = e.addr)) }
  else k

/-- Entry to the supervisor routine (R381): pc is the resume PC and rpc the PC of the trapping instruction. A step is
disarmed, and only the entry of one STEP leaves the other stream's STEP due (R396); an abort that waited for room is abandoned with
its instruction (R130). -/
def enterSup (s : State) (c : Nat) (pilot : Bool) (pc rpc : W64) (t : TrapIn) (inreg : Bool) : State :=
  let s0 := abandonWait (abandonWait s c false) c true
  let s1 := if t.mat then clearMat s0 c else s0
  updCore { s1 with fresh := s1.fresh + bitNat t.addr.isNone } c (fun x =>
    { dropPend t x with
      tcause := causeOf t inreg, tpc := pc, taddr := trapAddr s t, tinfo := t.info, tstream := pilot, twall := s.wall,
      rpc := rpc, ex := shadowPrefix x.ex, pi := shadowPrefix x.pi, sup := true, supPc := Config.supEntry, supWait := none,
      step := 0, stepping := 0, stepped := if t.code = 0x0115 then x.stepped else 0, region := x.region.map (fun r => { r with aborting := none }) })

/-- The read set of a region stands in memory as the region saw it (R326). -/
def readsHold (s : State) (r : Region) : Bool := r.reads.all (fun x => rdByte s.mem x.addr == x.val)

/-- The value written to the OPD of AREG reaches its destination (R319, R320): none when its queue is full. -/
def putOpd (k : Core) (o : Operand) (v : W64) : Option Core :=
  match o with
  | .s n => some { k with ex := { k.ex with s := sSet k.ex.s n v } }
  | .q n => if (qGet k n).length < qDepth n ∧ pendingPush k n = 0 then some (qAdd k n (.word v)) else none
  | _ => some k

/-- The checkpoint of a region is restored; a scalar that a vector operation of the region has still to write is not
written any more (R233, R320). -/
def restoreCp (k : Core) (r : Region) : Core :=
  { k with ex := { k.ex with s := r.cpS, k := r.cpK },
           vq := k.vq.map (fun v => match v.d with | .scalar _ => if v.sup then v else { v with d := .none } | _ => v) }

/-- An explicit region aborts (R320): the checkpoint is restored, the cause written, and the stream continues at the abort
target. None while a full queue holds the cause back. atCommit: the abort arises at ACOMMIT. -/
def abortRegion (s : State) (c : Nat) (r : Region) (cause : W64) (atCommit : Bool) : Option State :=
  match putOpd (restoreCp (coreOf s c) r) r.opd cause with
  | none => none
  | some k1 =>
    let kk := if atCommit then kSet k1.ex.k r.pred false else k1.ex.k
    some (setCore s c { k1 with ex := { endMark s.wall (if atCommit then 0 else 8) k1.ex with k := kk, pc := r.target, wait := none, buf := [] },
                                region := none })

/-- The wait of an execute stream whose region aborts into a full queue (R75, R320). -/
def abortWait (s : State) (c : Nat) (r : Region) : Wait :=
  { instr := match (coreOf s c).ex.wait with | some w => w.instr | none => .udf, c0 := cycOf s c, w0 := edgeOf s c,
    why := match r.opd with | .q n => .queue n | _ => .room }

/-- A region aborts, and a trap that brought the abort is taken at the abort target (R320, R326). While the queue of OPD is
full the stream waits under R75. -/
def tryAbort (s : State) (c : Nat) (r : Region) (a : Abort) : State :=
  match abortRegion s c r a.cause a.atCommit with
  | none => updCore s c (fun k => { k with region := some { r with aborting := some a },
                                           ex := { k.ex with wait := some (abortWait s c r) } })
  | some s1 => match a.trap with
    | some t => enterSup s1 c false r.target (coreOf s c).ex.pc t true
    | none => s1

/-- An ordered task's run ends without commit and the task waits to be run again (R331): its stores, held messages and
children are discarded, and the tasks that read its forwarded bytes through a pinned slot or without a slot abort too. -/
def childrenOf : Nat → List OTask → List Nat → List Nat
  | 0, _, seen => seen
  | fuel + 1, l, seen =>
    childrenOf fuel l (seen ++ ((List.range l.length).filter (fun i =>
      match l[i]? with
      | some o => (match o.parent with | some p => seen.contains p && !seen.contains i | none => false)
      | none => false)))

/-- The region read, through a pinned slot or without a slot, a byte that run n of an ordered task forwarded (R331). -/
def readsForwarded (r : Region) (spawn n : Nat) : Bool :=
  r.reads.any (fun x => decide (x.fwd = some (spawn, n)) && (match x.slot with
    | none => true
    | some i => (match r.slots[i]? with | some sl => sl.pinned | none => true)))

/-- The berth and core on which an ordered task runs. -/
def ordBerth (s : State) (gid spawn : Nat) : Option (Nat × BitVec 2) :=
  (berthsOf s gid).find? (fun p => (berthAt (coreOf s p.1) p.2).ordered && (berthAt (coreOf s p.1) p.2).task == spawn)

/-- The region of an ordered task, running or awaiting commit. -/
def ordRegion (s : State) (gid spawn : Nat) : Option Region :=
  match ordBerth s gid spawn with
  | some (c, _) => (coreOf s c).region
  | none => ((graphOf s gid).ords[spawn]?).bind (·.region)

/-- What the engines of a core have not started is discarded (R331, R386). -/
def dropQueued (k : Core) : Core := { k with vq := [], mat := { k.mat with queue := k.mat.queue.filter (·.started) } }

/-- One ordered task loses its run: its activation ends, its berth is freed, and it stands again as st (R331). -/
def endRun (s : State) (gid spawn : Nat) (st : OState) : State :=
  let s1 := match ordBerth s gid spawn with
    | some (c, b) =>
      let t := closeActivation (updCore s c dropQueued) c
      reslice (updBerth t c b (fun x => { x with state := .free, stopFor := none, chans := Vector.replicate 8 [], park := [], winStore := [], pend := [] })) c
    | none => s
  updGraph s1 gid (fun g => setOrd g spawn (fun o => { o with st := st, region := none, runs := o.runs + 1 }))

/-- The abort of an ordered task with what follows from it (R331), at most fuel tasks deep: its children are removed, and
the tasks that read its forwarded bytes through a pinned slot or without a slot abort too. own: how the task itself stands
after its run ends; none: its run has already ended. -/
def abortOrdered : Nat → State → Nat → Nat → Option OState → State
  | 0, s, _, _, _ => s
  | fuel + 1, s, gid, spawn, own =>
    let g := graphOf s gid
    let run := ((g.ords[spawn]?).getD {}).runs
    let kids := (childrenOf g.ords.length g.ords [spawn]).filter (· != spawn)
    let s1 := kids.foldl (fun t i => match (graphOf t gid).ords[i]? with
      | some o => if o.st = .committed ∨ o.st = .discarded then t else endRun t gid i .discarded
      | none => t) s
    let s2 := match own with
      | some st => endRun s1 gid spawn st
      | none => s1
    (List.range (graphOf s2 gid).ords.length).foldl (fun t i =>
      if i = spawn then t
      else
        match ordRegion t gid i with
        | some r => if readsForwarded r spawn run then abortOrdered fuel t gid i (some .accepted) else t
        | none => t) s2

/-- A bound on the depth of a chain of aborts: each ends a run of another of the graph's ordered tasks. -/
def abortDepth (s : State) (gid : Nat) : Nat := (graphOf s gid).ords.length + 1

/-- An ordered task is aborted and stands to be run again (R331). -/
def abortRun (s : State) (gid spawn : Nat) : State := abortOrdered (abortDepth s gid) s gid spawn (some .accepted)

/-- FAIL-TASK on the running activation of a core (R386): it ends at once, what has not started is discarded, the task
ends as failed and its berth becomes FREE. An ordered task is discarded as for an abort (R65). -/
def failTask (s : State) (c : Nat) (code : Nat) : State :=
  match (coreOf s c).act with
  | none => s
  | some a =>
    let b := a.berth
    let k := berthAt (coreOf s c) b
    let s0 := updCore s c dropQueued
    let s1 := closeActivation (logPending s0 c b) c
    let s2 := writeAcct s1 c b 3
    let s3 := updGraph s2 k.gid (fun g =>
      { (if k.ordered then setOrd g k.task (fun o => { o with st := .discarded, region := none, code := code })
         else setTask g k.task (fun t => { t with st := .failed })) with
        failCode := if g.failCode = 0 then code else g.failCode,
        failTask := if g.failCode = 0 then some k.task else g.failTask })
    let s4 := releaseBerth s3 c b
    if k.ordered then abortOrdered (abortDepth s4 k.gid) s4 k.gid k.task none else s4

/-- FAIL-GRAPH on the running activation of a core (R386, R65). -/
def failBerthGraph (s : State) (c : Nat) (code : Nat) : State :=
  let k := actBerth (coreOf s c)
  let s1 := failTask s c code
  failGraph s1 k.gid code (some k.task)

/-- DOUBLE_TRAP: a synchronous trap in supervisor mode (R383). -/
def doubleTrap (s : State) (c : Nat) (second : Nat) : State :=
  let k := coreOf s c
  let s1 := putRec s { berthRec s c (actBerthNo k) 0x0114 with
    flags := 4 * 0, pc := k.supPc, detail := leBytes 2 (k.tcause.toNat % 2 ^ 16) ++ leBytes 2 second }
  failBerthGraph s1 c 0x0114

/-- A synchronous trap or an asynchronous event is taken by a stream whose instruction stands at pc (R107, R326, R381,
R383). pc is also the PC at which the stream resumes, but for the abort of an explicit region, which resumes at its
target. -/
def takeTrap (s : State) (c : Nat) (pilot : Bool) (pc : W64) (t : TrapIn) : State :=
  let k := coreOf s c
  let enter := enterSup (markTrap s c pilot t) c pilot pc pc t false
  if k.sup then doubleTrap s c t.code
  else
    match k.region with
    | some r =>
      if pilot || r.irrevocable then enter
      else if r.implicit then
        if readsHold s r then enter
        else
          let b := actBerth k
          abortRun s b.gid b.task
      else if readsHold s r then tryAbort (abandonWait (markTrap s c false t) c false) c r { cause := 4, trap := some t }
      else tryAbort (abandonWait s c false) c r { cause := 1 }
    | none => enter

/-- A stream's part of the return from the supervisor routine (R389, DEDUCED, log entry 67): what trap entry saved comes back. -/
def restorePrefix (t : Stream) : Stream := { t with pp := t.shPp, pfxv := t.shPfxv, tlast := t.shTlast }

/-- TRET (R389): the prefix and TLAST of both streams come back from the shadow (R154), user mode is restored, and the trapped stream
continues at TRAPPC. A step that was armed begins, unless the other stream's STEP is still due: that one traps first, and its entry
disarms the step (R396). -/
def returnTrap (s : State) (c : Nat) : State :=
  updCore s c (fun x =>
    let ex := restorePrefix x.ex
    let pi := restorePrefix x.pi
    { x with sup := false, supWait := none, stepping := if x.stepped = 0 then x.step else 0, step := 0,
             ex := if x.tstream then ex else { ex with pc := x.tpc, buf := [] },
             pi := if x.tstream then { pi with pc := x.tpc, buf := [] } else pi })

end Sys2Proof.Machine
end

