-- ==== Sys2Proof/Machine/Operands.lean ====
section
/-! DEFINITION. Every operand form: scalar sources and destinations, channels, views and vector operands
(R71 to R83, R113, R134, R146, R231). -/

namespace Sys2Proof.Machine

/-- Bytes of the activation's payload at its cursor, which moves on, up to 256 (R113). A channel other than the
activation's own reads 0 and moves nothing. -/
def readChan (s : State) (c : BitVec 3) (n : Nat) : List Byte × State :=
  match (curCore s).act with
  | some a =>
    if a.chan = c then
      (sliceZ (a.msg.payload.take a.msg.len) a.cursor n,
       updCurCore s (fun k => { k with act := some { a with cursor := min 256 (a.cursor + n) } }))
    else (List.replicate n 0, s)
  | none => (List.replicate n 0, s)

/-- The 64-bit value of a scalar source and the state after its entry is consumed (R71, R75, R113, R146). zx: a 32-bit
literal is zero-extended. w: a channel gives 4 bytes, sign-extended. The entry is there: queueWait has seen to it. -/
def readSrcW (op : Operand) (zx w : Bool) (s : State) : W64 × State :=
  match op with
  | .s n => (readS s n, s)
  | .i v => (v.signExtend 64, s)
  | .l32 v => (if zx then v.setWidth 64 else v.signExtend 64, s)
  | .l64 v => (v, s)
  | .q n =>
    match (qGet (curCore s) n).head? with
    | some (.word v) => (v, qPop s n)
    | _ => (0, s)
  | .c n =>
    if w then let r := readChan s n 4; (sextTo64 32 (leNat r.1), r.2)
    else let r := readChan s n 8; (leW64 r.1, r.2)
  | _ => (0, s)

def readSrc (op : Operand) (s : State) : W64 × State := readSrcW op false false s

/-- write_dst(op, v): a register takes the value, a queue receives an entry, NONE discards (R74, R134). -/
def writeDst (op : Operand) (v : W64) (s : State) : State :=
  match op with
  | .s n => writeS s n v
  | .q n => qPush s n (.word v)
  | _ => s

/-- A predicate source or destination (R157). -/
def readPred (op : Operand) (s : State) : Bool :=
  match op with
  | .k n => readK s n
  | _ => false
def writePred (op : Operand) (v : Bool) (s : State) : State :=
  match op with
  | .k n => writeK s n v
  | _ => s

/-- Stores of the core's other stream have still to be performed: an entry that it has pushed is popped after them (R283). -/
def pusherStores (s : State) : Bool := s.posted.any (fun p => p.core == s.cur.1 && p.pilot != s.cur.2)

/-- What a stream waits for under R75 before an instruction issues: an entry of an earlier cyc (R119) in each queue it reads,
room in each queue it writes. An entry is popped after the stores that precede its push (R283). dRead: OPD is a source. -/
def queueWait (o : Ops) (dRead : Bool) (s : State) : Option WaitWhy :=
  let k := curCore s
  let srcs := (if dRead then [o.a, o.b, o.d] else [o.a, o.b]).filterMap (fun x => match x with | .q n => some n | _ => none)
  match srcs.find? (fun n => decide (qReady k n < (srcs.filter (· == n)).length)) with
  | some n => some (.queue n)
  | none =>
    if !srcs.isEmpty && pusherStores s then some .room
    else
      match o.d with
      | .q n => if !dRead && qFull s n then some (.queue n) else none
      | _ => none

/- Views of the register store (R79, R80). -/

def viewBase (v : BitVec 32) : Nat := fieldAt v.toNat 0 8
def viewVCount (v : BitVec 32) : Nat := fieldAt v.toNat 8 9
def viewTCount (v : BitVec 32) : Nat := fieldAt v.toNat 8 6
def viewACount (v : BitVec 32) : Nat := fieldAt v.toNat 8 4

/-- The value of a view register is legal (R79). -/
def viewVOk (v : Nat) : Bool := decide (v < 2 ^ 17 ∧ fieldAt v 8 9 ≤ 256)
def viewTOk (v : Nat) : Bool := decide (v < 2 ^ 14 ∧ fieldAt v 8 6 ≤ 32)
def viewAOk (v : Nat) : Bool := decide (v < 2 ^ 12 ∧ fieldAt v 8 4 ≤ 8)

/-- The offset in the allocation of register n of a view, if every byte of it lies within COUNT and REGN (R80). -/
def viewOfs (base count size n regN : Nat) : Option Nat :=
  let ofs := base * 256 + n * size
  if n < count ∧ ofs + size ≤ regN * 1024 then some ofs else none

/-- The home address of an offset in the register store of the running berth (R80). -/
def rsHome (s : State) (ofs : Nat) : Nat := rsAddr s.cur.1 ((curBerth s).regB * 1024 + ofs)

def vReg (s : State) (n : BitVec 8) : Option Nat :=
  (viewOfs (viewBase (curCore s).viewV) (viewVCount (curCore s).viewV) 256 n.toNat (curBerth s).regN).map (rsHome s)
def tReg (s : State) (n : BitVec 5) : Option Nat :=
  viewOfs (viewBase (curCore s).viewT) (viewTCount (curCore s).viewT) 2048 n.toNat (curBerth s).regN
def aReg (s : State) (n : Nat) : Option Nat :=
  viewOfs (viewBase (curCore s).viewA) (viewACount (curCore s).viewA) 8192 n (curBerth s).regN

/-- A V operand lies beyond its view: VIEW_BOUNDS when it is accessed (R80). -/
def vBad (s : State) (op : Operand) : Bool :=
  match op with
  | .v n => (vReg s n).isNone
  | _ => false

/-- A source of class VS as bytes or as a broadcast scalar, and the state after its entry is consumed (R231). -/
def readVS (op : Operand) (s : State) : VSrc × State :=
  match op with
  | .v n => (match vReg s n with | some a => .reg a | none => .none, s)
  | .q n =>
    match (qGet (curCore s) n).head? with
    | some (.block bs) => (.data bs, qPop s n)
    | _ => (.data (List.replicate 256 0), s)
  | .c n => let r := readChan s n 256; (.data r.1, r.2)
  | .s _ | .i _ | .l32 _ | .l64 _ => let r := readSrc op s; (.scalar r.1, r.2)
  | _ => (.none, s)

/-- The bytes of a vector source, read in elements of e bytes (R231). -/
def srcBytes (s : State) (x : VSrc) (e : Nat) : List Byte :=
  match x with
  | .none => List.replicate 256 0
  | .reg a => rdBytes s.mem a 256
  | .data bs => sliceZ bs 0 256
  | .scalar v => elemBytes e (List.replicate (256 / e) (v.toNat % 2 ^ (8 * e)))

/-- The 256 bytes of OPD read as data by a block store: NONE is zeros (R183). -/
def readVD (op : Operand) (s : State) : List Byte × State :=
  match op with
  | .none => (List.replicate 256 0, s)
  | _ => let r := readVS op s; (srcBytes r.2 r.1 1, r.2)

/-- A block written to OPD of class VD (R232). -/
def writeVD (op : Operand) (bs : List Byte) (s : State) : State :=
  match op with
  | .v n => match vReg s n with | some a => { s with mem := wrBytes s.mem a bs } | none => s
  | .q n => qPush s n (.block bs)
  | _ => s

end Sys2Proof.Machine
end

