-- ==== Sys2Proof/Machine/Flags.lean ====
section
/-! DEFINITION. Every flag computation: FPFLAGS and the trap window (R252 to R255), ACCSAT (R211), SEED (R221), and the
prefix that changes a vector instruction (R139). -/

namespace Sys2Proof.Machine

/-- FPFLAGS ← FPFLAGS or raised, in the execute stream (R252, R253). -/
def raiseFlags (s : State) (c : Nat) (raised : Nat) : State :=
  updStream s c false (fun t => { t with fpflags := t.fpflags ||| BitVec.ofNat 5 raised })

/-- The highest-priority enabled flag that was raised (R255): its bit number. -/
def topFlag (en raised : Nat) : Nat :=
  if bitAt (en &&& raised) 0 then 0 else if bitAt (en &&& raised) 1 then 1 else if bitAt (en &&& raised) 2 then 2
  else if bitAt (en &&& raised) 3 then 3 else 4

/-- TRAPINFO and TRAPADDR of FP_TRAP from the flags of each element (R255). e: bytes of a destination element, 0 when the
result is a scalar or comes from tree nodes. -/
def fpTrapIn (en raised e : Nat) (fl : List Nat) : TrapIn :=
  let top := topFlag en raised
  let hits := (List.range fl.length).filter (fun i => bitAt (fl.getD i 0) top)
  let elem := if e = 0 then 0 else hits.headD 0
  let mask := if e = 0 then 1 else hits.foldl (fun a i => a ||| 2 ^ (i * e / 4)) 0
  { code := 0x0120, addr := some (BitVec.ofNat 64 mask), info := BitVec.ofNat 64 (elem + raised * 2 ^ 8 + top * 2 ^ 13) }

/-- SEED after one advance: the state that an instruction under RSR draws from (R221). -/
def nextSeed (b : Berth) : W64 := xorshift64 b.seed

/-- The prefix in force, as the MOD of the last PFX (R139, R141). -/
def prefixOf (s : State) : Option PfxMod :=
  if (curStream s).pp then (match modOf .pfx (curStream s).pfxv.toNat with | some (.pfx m) => some m | _ => none) else none

/-- A vector instruction's MOD after its prefix (R139). -/
def effMod (s : State) (m : VecMod) : VecMod :=
  match prefixOf s with
  | some p => { m with ty := p.ty, rnd := p.rnd, sat := p.sat }
  | none => m

/-- The plane width: of a consumed prefix when not 0, otherwise PWIDTH (R249). -/
def effWidth (s : State) : Nat :=
  match prefixOf s with
  | some p => if p.width = 0 then (curStream s).pwidth.toNat else p.width.toNat
  | none => (curStream s).pwidth.toNat

/-- The rounding mode, DYN resolved from RMODE (R216, R217). -/
def resolveRnd (s : State) (r : Rnd) : Rnd :=
  match r with
  | .dyn => (rndOf (curStream s).rmode.toNat).getD .rne
  | r => r

/-- The instructions that take a plane width (R139). -/
def isPlane (c : Opc) : Bool :=
  match c with
  | .padd | .psub | .pmul | .pcmp | .vpln | .vunpln => true
  | _ => false

/-- PREFIX_MISUSE (R139). -/
def prefixBad (s : State) (i : Instr) : Bool :=
  if (curStream s).pp then
    match modOf .pfx (curStream s).pfxv.toNat, partsOf i with
    | some (.pfx p), some (c, _, .vec m) =>
      (decide (p.width ≠ 0) && !isPlane c) || !modOk c (.vec { m with ty := p.ty, rnd := p.rnd, sat := p.sat })
    | some (.pfx p), some (.vrand, _, _) => decide (p ≠ {})
    | _, _ => true
  else false

end Sys2Proof.Machine
end

