-- ==== Sys2Proof/Machine/Issue.lean ====
section
/-! DEFINITION. How an instruction word issues (R106, R107, R72, R75, R129): the checks of steps 6 to 8, the guard, the
wait of a held stream, its completion, and the shared timed wait. -/

namespace Sys2Proof.Machine

/-- The streams an instruction is permitted to (R91, R92). -/
inductive Perm where
  | both | execute | pilot | supervisor
  deriving DecidableEq, Repr

/-- Why a meaning is run: at issue, because a held stream's wait may be over, or because its limit may be due (R129). -/
inductive Phase where
  | issue | resume | timeout
  deriving DecidableEq, Repr

/-- What a meaning comes to. fin: done, and the stream goes on at the PC given, or at the next instruction. hold: the
stream waits at the instruction; data is what it has read at issue, q the access that waits at its granules. trap: a precise trap, with the state it leaves. ended: the
meaning has itself decided where the stream goes. -/
inductive Body where
  | fin (s : State) (npc : Option W64)
  | hold (s : State) (why : WaitWhy) (aux : Nat) (data : List Byte := []) (q : Option SyncWait := none)
  | trap (s : State) (t : TrapIn)
  | ended (s : State)

/-- The directions of R78. -/
def canRead (pilot : Bool) (q : BitVec 4) : Bool :=
  let n := q.toNat
  if pilot then decide ((4 ≤ n ∧ n < 8) ∨ n = 11 ∨ 12 ≤ n) else decide (n < 4 ∨ (8 ≤ n ∧ n < 11))
def canWrite (pilot : Bool) (q : BitVec 4) : Bool :=
  let n := q.toNat
  if pilot then decide (n < 4 ∨ (8 ≤ n ∧ n < 11)) else decide ((4 ≤ n ∧ n < 8) ∨ n = 11 ∨ 12 ≤ n)

/-- A source whose direction R78 denies. The supervisor routine may name no queue and no channel (R383). -/
def srcDenied (pilot sup : Bool) : Operand → Bool
  | .q n => sup || !canRead pilot n
  | .c _ => sup || pilot
  | _ => false
def dstDenied (pilot sup : Bool) : Operand → Bool
  | .q n => sup || !canWrite pilot n
  | _ => false

/-- Step 6 of R106: the code and FIELD of the first check that fails. -/
def check6 (s : State) (o : Ops) (p : Perm) (dRead : Bool) : Option (Nat × Nat) :=
  let pilot := s.cur.2
  let sup := supNow s
  let streamBad := match p with
    | .both => false
    | .execute | .supervisor => pilot
    | .pilot => !pilot
  if streamBad || srcDenied pilot sup o.a || srcDenied pilot sup o.b
      || (if dRead then srcDenied pilot sup o.d else dstDenied pilot sup o.d) then some (0x0104, 10)
  else if p = .supervisor ∧ sup = false then some (0x0105, 11)
  else none

/-- The guard is true (R72). -/
def guardOk (s : State) (g : Guard) : Bool := readK s g.prd != g.neg

/-- The PC of the next instruction (R71). -/
def nextPc (s : State) (o : Ops) : W64 := pcNow s + BitVec.ofNat 64 (instrLen o)

/-- The marked instruction at which a stream stands is done with at issue: it has completed, or it goes on in an engine, where it
ends later (R417). -/
def passMark (s : State) (t : Stream) : Stream :=
  if atMark t && !s.cur.2 && markQueued (curCore s) then { t with markEng := true } else endMark s.wall 0 t

/-- A stream goes on at a PC: its wait is over, lines it has passed are dropped, a taken branch ends YLD (R68, R76). -/
def goOn (s : State) (o : Ops) (npc : Option W64) (pc : W64) : State :=
  let s1 := setPc (setWait s none) pc
  let keep := fun (l : FetchLine) => decide (l.line = pc.toNat / 64 ∨ l.line = pc.toNat / 64 + 1)
  if supNow s then s1
  else updCur s1 (fun t => { passMark s t with buf := t.buf.filter keep, yld := if npc.isSome then false else t.yld || o.h.yld,
                                                     sampleLeft := t.sampleLeft - 1 })

/-- The bit of a stream in a step mask (R396). -/
def stepBit (pilot : Bool) : BitVec 2 := if pilot then 2 else 1

/-- The stream whose STEP is taken next: each selected stream that has not stopped has taken its step, and the execute
stream comes first (R396). -/
def stepDue (k : Core) : Option Bool :=
  let toGo (pilot : Bool) : Bool := decide (k.stepping &&& stepBit pilot ≠ 0) && !(streamOf k pilot).stopped
  if k.sup || k.act.isNone || k.stepped = 0 || toGo false || toGo true then none
  else some (decide (k.stepped &&& 1 = 0))

/-- The STEP that is due is taken (R396). A second STEP stays due until the first routine returns. -/
def takeStep (s : State) (c : Nat) : State :=
  match stepDue (coreOf s c) with
  | some pilot =>
    takeTrap (updCore s c (fun x => { x with stepped := x.stepped &&& ~~~(stepBit pilot) })) c pilot
      (streamOf (coreOf s c) pilot).pc { code := 0x0115 }
  | none => s

/-- After an instruction of a stepped stream: its step is over (R396). -/
def afterStep (s : State) : State :=
  let k := curCore s
  let b := stepBit s.cur.2
  if supNow s || k.sup || k.stepping &&& b = 0 then s
  else takeStep (updCurCore s (fun x => { x with stepping := x.stepping &&& ~~~b, stepped := x.stepped ||| b })) s.cur.1

/-- Waits for an event, at which a step is abandoned (R130, R396). -/
def waitsOnEvent (w : WaitWhy) : Bool :=
  match w with
  | .queue _ | .timed | .count | .gang => true
  | _ => false

/-- Waits whose limit or count runs from their first cyc (R129, R137, R144, R260, R394). -/
def countsTime (w : WaitWhy) : Bool :=
  match w with
  | .timed | .count | .idle | .gang => true
  | _ => false

/-- The instruction has issued and waits for what it set out to do: not for a queue (R75), nor for room before it issues. -/
def hasIssued (w : Wait) : Bool :=
  match w.why with
  | .queue _ => false
  | .room => decide (w.aux ≠ 0)
  | _ => true

/-- An RST waits for an entry of the tablet rack (R359). -/
def rackWait (w : WaitWhy) (aux : Nat) : Bool := decide (w = .room ∧ 2 ≤ aux)

/-- A held stream keeps its instruction: CYC and WALL from the start of the wait that counts them (R129), VIEWV and
the bytes it had when it issued (R81, R203), and its place at the home of its granules (R170). -/
def holdAt (s : State) (i : Instr) (why : WaitWhy) (aux : Nat) (data : List Byte) (q : Option SyncWait) : State :=
  let new : Wait := { instr := i, c0 := cycOf s s.cur.1, w0 := edgeOf s s.cur.1, why := why, aux := aux, viewV := (curCore s).viewV,
                      data := data, sync := q, arr := s.arrNext }
  let s1 := { s with arrNext := s.arrNext + 1 }
  match waitNow s with
  | none => setWait s1 (some new)
  | some w =>
    let timed := decide (w.instr = i) && ((countsTime w.why && countsTime why) || (rackWait w.why w.aux && rackWait why aux))
    let seen := decide (w.instr = i) && hasIssued w
    setWait s1 (some { new with
      c0 := if timed then w.c0 else new.c0, w0 := if timed then w.w0 else new.w0,
      viewV := if seen then w.viewV else new.viewV, data := if seen ∧ w.data ≠ [] then w.data else data,
      arr := if timed ∧ w.sync.isSome = true then w.arr else new.arr })

/-- A stepped stream whose instruction waits for an event abandons it, and its step is over (R396). -/
def holdStep (s : State) (why : WaitWhy) : State :=
  if supNow s || (curCore s).stepping &&& stepBit s.cur.2 = 0 || !waitsOnEvent why then s
  else afterStep (abandonWait s s.cur.1 s.cur.2)

/-- The prefix of a stream is consumed (R139). -/
def usePrefix (s0 s : State) : State :=
  if (curStream s0).pp then updCur s (fun t => { t with pp := false }) else s

/-- The state a trap of the stream that issues leaves (R107). -/
def trapNow (s : State) (t : TrapIn) : State := takeTrap s s.cur.1 s.cur.2 (pcNow s) t

/- Tags of a region (R323). -/

/-- The tag of a scalar register of the stream that issues: it has one only in a speculative region of the execute
stream. -/
def tagOf (s : State) (op : Operand) : Option (Nat × W64) :=
  match op with
  | .s n =>
    if s.cur.2 || supNow s then none
    else (curCore s).region.bind (fun r => if r.irrevocable then none else amFind r.tags n.toNat)
  | _ => none

/-- A load slot is pinned. -/
def pinSlot (s : State) (k : Nat) : State :=
  updCurCore s (fun c => { c with region := c.region.map (fun r =>
    { r with slots := updAt r.slots k (fun x => { x with pinned := true }) }) })

/-- The slot of a register that was read as s0 had it is pinned. -/
def pinOp (s0 : State) (op : Operand) (s : State) : State :=
  match tagOf s0 op with
  | some (k, _) => pinSlot s k
  | none => s

/-- A register takes a tag. -/
def setTag (s : State) (op : Operand) (t : Nat × W64) : State :=
  match op with
  | .s n => updCurCore s (fun c => { c with region := c.region.map (fun r => { r with tags := amSet r.tags n.toNat t }) })
  | _ => s

/-- The instructions that treat tags themselves. -/
def ownTags : Instr → Bool
  | .add _ _ | .sub _ _ | .mov _ | .cmp _ _ | .stg _ _ | .stv _ _ | .stx _ _ => true
  | _ => false

/-- Every other instruction pins the slots of the tagged registers it reads. -/
def notePins (i : Instr) (o : Ops) (dRead : Bool) (s0 s : State) : State :=
  if ownTags i then s
  else
    let s1 := pinOp s0 o.b (pinOp s0 o.a s)
    if dRead then pinOp s0 o.d s1 else s1

/-- A meaning's outcome becomes the next state. s is the state it was run on. -/
def runBody (i : Instr) (o : Ops) (dRead : Bool) (s : State) (b : Body) : State :=
  match b with
  | .fin s1 npc => afterStep (goOn (usePrefix s (notePins i o dRead s s1)) o npc (npc.getD (nextPc s o)))
  | .hold s1 why aux data q => holdStep (holdAt s1 i why aux data q) why
  | .trap s1 t => trapNow s1 t
  | .ended s1 => s1

/- Values that the vector engine has still to write (R147, R232, R233). -/

def pendingScalar (s : State) (op : Operand) (next : Bool) : Bool :=
  match op with
  | .s n => (curCore s).vq.any (fun v => decide (v.d = .scalar (if next then n + 1 else n)) && v.sup == supNow s)
  | _ => false

/-- The instruction goes to the vector engine (R91). -/
def isVector (i : Instr) : Bool :=
  match partsOf i with
  | some (_, _, .vec _) => true
  | some (.vrand, _, _) => true
  | _ => false

/-- OPD of an instruction is a scalar register that it reads (R105). -/
def readsOpd (i : Instr) : Bool :=
  match partsOf i with
  | some (c, _, v) => decide ((slotCls c v).1 = .sRead ∨ (slotCls c v).1 = .sOnly)
  | none => false

/-- An instruction of the execute stream waits at issue: it reads a scalar register, or pushes to a queue, that an earlier
vector operation has still to write. One that only writes the register issues past it (R147). -/
def engineWait (s : State) (i : Instr) (o : Ops) : Bool :=
  if s.cur.2 then false
  else if (curCore s).vq.isEmpty then false
  else
    match i with
    | .areg _ | .ctxsv _ | .ctxld _ => (curCore s).vq.any (fun v => match v.d with | .scalar _ => true | _ => false)
    | .acas _ _ => pendingScalar s o.a false || pendingScalar s o.b false || pendingScalar s o.d false || pendingScalar s o.d true
    | _ =>
      pendingScalar s o.a false || pendingScalar s o.b false
        || (readsOpd i && pendingScalar s o.d false)
        || (!isVector i && (match o.d with | .q n => decide (0 < pendingPush (curCore s) n) | _ => false))

/-- The execute stream waits for the commit point after a capacity overflow of its region (R327). -/
def overflowWaits (s : State) : Bool :=
  !s.cur.2 && !supNow s && (match (curCore s).region with | some r => r.overflow && !r.irrevocable | none => false)

/-- A meaning, after the wait for the commit point and for values of the vector engine. -/
def bodyNow (i : Instr) (o : Ops) (body : Phase → State → Body) (ph : Phase) (s : State) : Body :=
  if overflowWaits s then .hold s .commit 0 else if engineWait s i o then .hold s .room 0 else body ph s

/-- Steps 6 to 9 of R106. A word whose guard is false only consumes a prefix and passes (R72, R139). -/
def issue (i : Instr) (o : Ops) (p : Perm) (dRead : Bool) (body : Phase → State → Body) (s : State) :
    Host.Outcome State Fault Refusal :=
  .next (match check6 s o p dRead with
    | some (code, field) => trapNow s { code := code, addr := some (pcNow s), info := BitVec.ofNat 64 field }
    | none =>
      if guardOk s o.g then
        if prefixBad s i then trapNow (usePrefix s s) { code := 0x0111, addr := some (pcNow s), info := 12 }
        else runBody i o dRead s (bodyNow i o body .issue s)
      else afterStep (goOn (updCur (usePrefix s s) (endMark s.wall 2)) o none (nextPc s o)))

/-- A meaning that waits under R75 for its queues before it does anything. -/
def onReady (o : Ops) (dRead : Bool) (s : State) (k : Body) : Body :=
  match queueWait o dRead s with
  | some w => .hold s w 0
  | none => k

/-- The first failing check of a list decides the trap (R185). -/
def firstTrap : List (Bool × TrapIn) → Option TrapIn
  | [] => none
  | (b, t) :: l => if b then some t else firstTrap l

def orTrap (l : List (Bool × TrapIn)) (s : State) (k : Body) : Body :=
  match firstTrap l with
  | some t => .trap s t
  | none => k

/- Timed waits (R128, R129). -/

/-- CYC and WALL at the start of the wait that counts them: those of the last cyc edge, unless the stream is held in such a wait
(R126, R129, R144). -/
def waitStart (s : State) : Nat × Nat :=
  match waitNow s with
  | some w => if countsTime w.why then (w.c0, w.w0) else (cycOf s s.cur.1, edgeOf s s.cur.1)
  | none => (cycOf s s.cur.1, edgeOf s s.cur.1)

/-- The bytes that the instruction at which the stream is held read when it issued; none if it has not issued yet. -/
def heldData (s : State) : Option (List Byte) :=
  match waitNow s with
  | some w => if hasIssued w then some w.data else none
  | none => none

/-- The limit of a trio is due: WALL is taken at the cyc edges of the core (R126, R129). -/
def limitDue (s : State) (m : Trio) : Bool :=
  let st := waitStart s
  if m.tb then decide ((curStream s).tow ≠ 0 ∧ (curStream s).tow.toNat ≤ edgeOf s s.cur.1 - st.2)
  else decide ((curStream s).toc ≠ 0 ∧ (curStream s).toc.toNat ≤ cycOf s s.cur.1 - st.1)

/-- k[PRED] under TRES = 1 (R129). -/
def trioPred (m : Trio) (v : Bool) (s : State) : State := if m.tres then writeK s m.pred v else s

/-- timed_wait (R129): the condition is tested before the limit; satisfied goes on with k; otherwise the stream waits, or
traps, or writes its predicate false and ends without effect. undo is what a timeout takes back. -/
def timedWait (ph : Phase) (cond : Bool) (m : Trio) (code : Nat) (aux : Nat) (s : State) (undo : State → State) (k : Body)
    (data : List Byte := []) (q : Option SyncWait := none) : Body :=
  let late : Body :=
    if limitDue s m then
      if m.tres then .fin (writeK (undo s) m.pred false) none else .trap (undo s) { code := code }
    else .hold s .timed aux data q
  match ph with
  | .issue => if cond then k else late
  | .resume => if cond then k else .hold s .timed aux data q
  | .timeout => if cond then .hold s .timed aux data q else late

end Sys2Proof.Machine
end

