-- ==== Sys2Proof/Machine/Control.lean ====
section
/-! DEFINITION. The control group (R114, R133 to R139): branches, steering, the ends of a stream, REALIGN, TRAP and PFX.
LAUNCH stands with the dispatcher. -/

namespace Sys2Proof.Machine

/-- UDF always traps ILLEGAL_OPCODE (R90, R106). -/
def execUdf (s : State) : Host.Outcome State Fault Refusal := .next (trapNow s { code := 0x0101, addr := some (pcNow s), info := 1 })

/-- NOP reads none of its operands (R133). -/
def nopBody (_o : Ops) (_ : Phase) (s : State) : Body := .fin s none
def execNop (o : Ops) (s : State) : Host.Outcome State Fault Refusal := issue (.nop o) o .both false (nopBody o) s

/-- PC + 4 × offset (R134). -/
def relTarget (s : State) (ofs : W64) : W64 := pcNow s + 4 * ofs

def brBody (o : Ops) (_ : Phase) (s : State) : Body :=
  onReady o false s (let r := readSrc o.a s; .fin r.2 (some (relTarget s r.1)))
def execBr (o : Ops) (s : State) : Host.Outcome State Fault Refusal := issue (.br o) o .both false (brBody o) s

/-- A jump to an address: MISALIGNED unless it is a multiple of 4 (R134). -/
def jumpTo (o : Ops) (s : State) : Body :=
  let r := readSrc o.a s
  if r.1.toNat % 4 ≠ 0 then .trap s { code := 0x0206, info := r.1 } else .fin r.2 (some r.1)

def brxBody (o : Ops) (_ : Phase) (s : State) : Body := onReady o false s (jumpTo o s)
def execBrx (o : Ops) (s : State) : Host.Outcome State Fault Refusal := issue (.brx o) o .both false (brxBody o) s

def retBody (o : Ops) (_ : Phase) (s : State) : Body := onReady o false s (jumpTo o s)
def execRet (o : Ops) (s : State) : Host.Outcome State Fault Refusal := issue (.ret o) o .both false (retBody o) s

def callBody (o : Ops) (_ : Phase) (s : State) : Body :=
  onReady o false s
    (let r := readSrc o.a s
     .fin (writeDst o.d (nextPc s o) r.2) (some (relTarget s r.1)))
def execCall (o : Ops) (s : State) : Host.Outcome State Fault Refusal := issue (.call o) o .both false (callBody o) s

/-- BRDEC (R134). The offset is read, and its entry consumed, whether the branch is taken or not (R75). -/
def brdecBody (o : Ops) (_ : Phase) (s : State) : Body :=
  onReady o false s
    (let r := readSrc o.a s
     let v := (readSrc o.d s).1 - 1
     .fin (pinOp s o.d (writeDst o.d v r.2)) (if v ≠ 0 then some (relTarget s r.1) else none))
def execBrdec (o : Ops) (s : State) : Host.Outcome State Fault Refusal := issue (.brdec o) o .both false (brdecBody o) s

/-- STEER pushes the token CODE + 4 × offset (R135). -/
def steerBody (o : Ops) (_ : Phase) (s : State) : Body :=
  onReady o false s
    (let r := readSrc o.a s
     match o.d with
     | .q n => .fin (qPush r.2 n (.token ((curGraph s).code + 4 * r.1))) none
     | _ => .fin r.2 none)
def execSteer (o : Ops) (s : State) : Host.Outcome State Fault Refusal := issue (.steer o) o .execute false (steerBody o) s

/-- FOLLOW pops a token and continues there (R135). -/
def followBody (o : Ops) (_ : Phase) (s : State) : Body :=
  match o.a with
  | .q n =>
    if qReady (curCore s) n = 0 then .hold s (.queue n) 0
    else if pusherStores s then .hold s .room 0
    else
      match (qGet (curCore s) n).head? with
      | some (.token pc) => .fin (qPop s n) (some pc)
      | _ => .fin (qPop s n) none
  | _ => .fin s none
def execFollow (o : Ops) (s : State) : Host.Outcome State Fault Refusal := issue (.follow o) o .pilot false (followBody o) s

/-- TRAPINFO of REGION_MODE (R292, R321): detail, engine 1, region number or 0xFF. -/
def regionMode (detail region : Nat) : TrapIn :=
  { code := 0x0304, info := BitVec.ofNat 64 (region + 2 ^ 16 + detail * 2 ^ 24) }

/-- An explicit region is open in the stream that issues (R319). -/
def explicitOpen (s : State) : Bool :=
  !s.cur.2 && !supNow s && (match (curCore s).region with | some r => !r.implicit | none => false)

/-- A region, explicit or of an ordered task, is open in the stream that issues. -/
def regionOpen (s : State) : Bool := !s.cur.2 && !supNow s && (curCore s).region.isSome

/-- Every vector and matrix operation issued in the activation has completed (R114). -/
def enginesIdle (s : State) : Bool := (curCore s).vq.isEmpty && (curCore s).mat.queue.isEmpty

/-- Every scale delivery that a core has sent has ended (R275). -/
def sendsDone (s : State) (c : Nat) : Bool := s.cores.all (fun p => p.2.mat.deliver.all (fun d => decide (d.src ≠ c)))

/-- The trap of the failed matrix state. Taking it clears that state (R263). -/
def matFailure (s : State) : Option TrapIn :=
  match (curCore s).mat.failed with
  | some (code, detail) =>
    some { code := code, info := BitVec.ofNat 64 ((curCore s).mat.discarded % 2 ^ 16 + detail * 2 ^ 16), mat := true }
  | none => none

/-- RETIRE and FINISH (R114, R329): the stream stops. RETIRE in an ordered task acts as FINISH. -/
def endStream (fin : Bool) (s : State) : Body :=
  if explicitOpen s then .trap s (regionMode 4 0xFF)
  else if !s.cur.2 && !(enginesIdle s && sendsDone s s.cur.1) then .hold s .room 0
  else
   match (if s.cur.2 then none else matFailure s) with
   | some t => .trap s t
   | none =>
    let s1 := updCur s (fun t => { t with stopped := true })
    if fin || (curBerth s).ordered then
      .fin (updCurCore s1 (fun k => { k with act := k.act.map (fun a => { a with finish := true }) })) none
    else .fin s1 none

def retireBody (_o : Ops) (_ : Phase) (s : State) : Body := endStream false s
def execRetire (o : Ops) (s : State) : Host.Outcome State Fault Refusal := issue (.retire o) o .both false (retireBody o) s

def finishBody (_o : Ops) (_ : Phase) (s : State) : Body := endStream true s
def execFinish (o : Ops) (s : State) : Host.Outcome State Fault Refusal := issue (.finish o) o .both false (finishBody o) s

/- REALIGN (R137). -/

/-- The other streams of the cluster of a stream that REALIGN waits for: same number, same graph, not stopped. -/
def realignPeers (s : State) (c : Nat) (pilot : Bool) : List Nat :=
  let gid := (actBerth (coreOf s c)).gid
  ((List.range 8).map (· + c / 8 * 8)).filter (fun d =>
    decide (d ≠ c) && (coreOf s d).act.isSome && decide ((actBerth (coreOf s d)).gid = gid)
      && !(streamOf (coreOf s d) pilot).stopped)

/-- The stream that runs at a core is held at a REALIGN at a PC. -/
def heldAtRealign (s : State) (c : Nat) (pilot : Bool) (pc : W64) : Bool :=
  let k := coreOf s c
  let t := streamOf k pilot
  decide ((if k.sup then k.supPc else t.pc) = pc) && (match (if k.sup then k.supWait else t.wait) with
    | some w => decide (w.why = .count) && (match w.instr with | .realign _ => true | _ => false)
    | none => false)

/-- The count of a REALIGN has passed. -/
def realignDue (s : State) (o : Ops) : Bool :=
  decide (min (readSrc o.a s).1.toNat 65535 ≤ cycOf s s.cur.1 - (waitStart s).1)

def realignDone (o : Ops) (s : State) : Body := .fin (readSrc o.a s).2 none

def realignBody (o : Ops) (ph : Phase) (s : State) : Body :=
  onReady o false s
    (let free := (realignPeers s s.cur.1 s.cur.2).isEmpty
     if realignDue s o ∨ (ph = .issue ∧ free = true) then realignDone o s else .hold s .count 0)
def execRealign (o : Ops) (s : State) : Host.Outcome State Fault Refusal :=
  issue (.realign o) o .both false (realignBody o) s

/-- TRAP (R138). -/
def trapBody (o : Ops) (_ : Phase) (s : State) : Body :=
  onReady o false s (.trap s { code := 0x0112, info := (readSrc o.a s).1 })
def execTrap (o : Ops) (s : State) : Host.Outcome State Fault Refusal := issue (.trap o) o .both false (trapBody o) s

/-- PFX (R139, R141). -/
def pfxBody (_o : Ops) (m : PfxMod) (_ : Phase) (s : State) : Body :=
  .fin (updCur s (fun t => { t with pp := true, pfxv := BitVec.ofNat 16 (modCode (.pfx m)) })) none
def execPfx (o : Ops) (m : PfxMod) (s : State) : Host.Outcome State Fault Refusal :=
  issue (.pfx o m) o .both false (pfxBody o m) s

end Sys2Proof.Machine
end

