-- ==== Sys2Proof/Machine/Access.lean ====
section
/-! DEFINITION. Accesses to memory: translation (R173 to R180), records (R31), the reach of each space (R164 to R168), the
interlocking table and the engine windows (R288 to R292), full/empty bits (R169, R170) and uncorrectable data (R181). -/

namespace Sys2Proof.Machine

/-- Why an access is not made: a precise trap, a replayable fault at a page (R176, R177), or an uncorrectable granule at an
address (R181). -/
inductive Stop where
  | trap (t : TrapIn)
  | stall (kind : Nat) (pasid : BitVec 20) (vpage : Nat)
  | unc (granule : Nat) (addr : W64)
  deriving DecidableEq, Repr

/-- A trap at an address. -/
def trapAt (code : Nat) (addr : W64) (info : Nat) : TrapIn := { code := code, addr := some addr, info := BitVec.ofNat 64 info }

/- Uncorrectable data (R181). -/

/-- The granules of pieces, as flat granule numbers. -/
def granules (ps : List (Nat × Nat)) : List Nat :=
  ps.flatMap (fun p => (List.range ((p.1 + p.2 + 15) / 16 - p.1 / 16)).map (· + p.1 / 16))

def isBad (s : State) (g : Nat) : Bool := (rdByte s.bad g).getLsbD 0
def setBad (s : State) (g : Nat) (v : Bool) : State := { s with bad := wrBytes s.bad g [if v then 1 else 0] }

/-- The memory station of a flat address in a DRAM tier (R168). -/
def homeStation (a : Nat) : Nat := (fieldAt a 6 4) ^^^ (fieldAt a 10 4) ^^^ (fieldAt a 14 4) ^^^ (fieldAt a 18 4)

/-- ADDR of the record of an uncorrectable granule (R402): the SP address in the allocation of the berth, or in the
scratchpad of another core; the VLT address; the tier physical address (DEDUCED, log entry 68). -/
def uncAddr (s : State) (c : Nat) (b : BitVec 2) (a : Nat) : Nat :=
  if vaultBase ≤ a ∧ a < spBase then a - vaultBase
  else if spBase ≤ a ∧ a < rsBase then
    (if (a - spBase) / 2 ^ 17 = c then (a - spBase) % 2 ^ 17 - (berthAt (coreOf s c) b).spB * 2048 else (a - spBase) % 2 ^ 17)
  else if lpddrBase ≤ a ∧ a < vaultBase then a - lpddrBase else a - gddrBase

/-- The record of uncorrectable data (R181, R405): SRAM below the host's memory and above the DRAM tiers, else DRAM. eng: the
engine that read it (R402). -/
def uncRec (s : State) (c : Nat) (b : BitVec 2) (g : Nat) (eng : Nat := 0) (eid : Nat := c) : State :=
  let a := 16 * g
  let addr : W64 := BitVec.ofNat 64 (uncAddr s c b a)
  if vaultBase ≤ a ∧ a < hostBase then
    putRec s { berthRec s c b 0x0801 with engine := eng, eid := eid, addr := addr, flags := 4 * (if a < spBase then 2 else 1) }
  else putRec s { berthRec s c b 0x0802 with engine := 7, eid := homeStation a, addr := addr, flags := 4 * 6 }

/- Translation. -/

/-- What the metadata carve-out leaves of a DRAM tier as fitted (R1, R171, R371). -/
def usable (size : Nat) : Nat := size - size / 128

/-- A tier address in the flat space; peer pages have none. -/
def tierFlat (tier p : Nat) : Nat :=
  match tier with
  | 0 => gddrBase + p
  | 1 => lpddrBase + p
  | _ => hostBase + p

/-- What a walk comes to (R176). -/
inductive Walk where
  | leaf (pte level : Nat)
  | miss
  | bad
  deriving DecidableEq, Repr

/-- The pages of a leaf at a level (R173). -/
def leafPages (level : Nat) : Nat := 512 ^ (3 - level)

/-- A leaf is legal (R174, R176). -/
def leafOk (s : State) (e level : Nat) : Bool :=
  let ppn := fieldAt e 12 36
  let tier := fieldAt e 7 3
  let last := (ppn + leafPages level) * 4096
  decide (level ≠ 0) && decide (tier < 4) && decide (ppn % leafPages level = 0)
    && (decide (2 ≤ tier) || decide (last ≤ usable (if tier = 0 then s.gddr else s.lpddr)))

/-- A walk from the table at a tier physical address (R173, R174). shifts: the shift of each level still to come. An
uncorrectable entry is not used (R181); that it ends the walk as an invalid one is DEDUCED (log entry 68). -/
def walk (s : State) (va : Nat) : List Nat → Nat → Nat → Walk
  | [], _, _ => .bad
  | sh :: rest, level, table =>
    let a := gddrBase + table + 8 * fieldAt va sh 9
    let e := rdNat s.mem a 8
    if isBad s (a / 16) then .bad
    else if bitAt e 0 = false then (if bitAt e 5 then .bad else .miss)
    else if fieldAt e 10 2 ≠ 0 ∨ fieldAt e 48 16 ≠ 0 then .bad
    else if bitAt e 1 then (if leafOk s e level then .leaf e level else .bad)
    else if level = 3 ∨ usable s.gddr < (fieldAt e 12 36 + 1) * 4096 then .bad
    else walk s va rest (level + 1) (fieldAt e 12 36 * 4096)

/-- The walk of a PASID's table (R173, R176, R178). -/
def walkPasid (s : State) (st : Nat) (pasid : BitVec 20) (va : Nat) : Walk :=
  let k := stationOf s st
  if k.ptlim.toNat < pasid.toNat then .bad
  else
    let a := gddrBase + k.ptbase.toNat / 4096 * 4096 + 16 * pasid.toNat
    let e := rdNat s.mem a 16
    if isBad s (a / 16) ∨ bitAt e 0 = false ∨ fieldAt e 1 11 ≠ 0 ∨ fieldAt e 48 80 ≠ 0
        ∨ usable s.gddr < (fieldAt e 12 36 + 1) * 4096 then .bad
    else walk s va [39, 30, 21, 12] 0 (fieldAt e 12 36 * 4096)

/-- The cached translation of a page (R177). -/
def tlbHit (k : Station) (pasid : BitVec 20) (va : Nat) : Option Tlb :=
  k.tlb.find? (fun t => decide (t.pasid = pasid) && decide (t.vpage / leafPages t.level = va / 4096 / leafPages t.level))

/-- The translation of an address; one beyond 48 bits has none (R168). -/
def lookup (s : State) (st : Nat) (pasid : BitVec 20) (va : Nat) : Walk :=
  if 2 ^ 48 ≤ va then .bad else
  match tlbHit (stationOf s st) pasid va with
  | some t => .leaf t.pte.toNat t.level
  | none => walkPasid s st pasid va

/-- What an access needs of a page (R174). -/
structure Need where
  rd : Bool := false
  wr : Bool := false
  ex : Bool := false
  kind : Nat := 0
  deriving DecidableEq, Repr

/-- The tier and tier physical address of a 48-bit address (R173 to R176). -/
def translate (s : State) (st : Nat) (pasid : BitVec 20) (va : Nat) (n : Need) : Except Stop (Nat × Nat) :=
  match lookup s st pasid va with
  | .miss => .error (.stall n.kind pasid (va / 4096))
  | .bad => .error (.trap { code := 0x0204, addr := some (BitVec.ofNat 64 va) })
  | .leaf e level =>
    if (n.rd && !bitAt e 2) || (n.wr && !bitAt e 3) || (n.ex && !bitAt e 4) then
      .error (.trap { code := 0x0205, addr := some (BitVec.ofNat 64 va) })
    else .ok (fieldAt e 7 3, fieldAt e 12 36 * 4096 + va % (4096 * leafPages level))

/-- A translation enters the cache of the station (R177). An entry with V = 0 never does. -/
def noteTlb (s : State) (st : Nat) (pasid : BitVec 20) (va : Nat) : State :=
  let k := stationOf s st
  match tlbHit k pasid va, walkPasid s st pasid va with
  | none, .leaf e level =>
    setStation s st { k with tlb := ({ pasid := pasid, vpage := va / 4096, pte := BitVec.ofNat 64 e, level := level } :: k.tlb).take 4096 }
  | _, _ => s

/-- [va, va + n) cut at page boundaries. -/
def pageCuts : Nat → Nat → Nat → List (Nat × Nat)
  | 0, _, _ => []
  | fuel + 1, va, n =>
    if n = 0 then [] else
      let k := min n (4096 - va % 4096)
      (va, k) :: pageCuts fuel (va + k) (n - k)

/-- The pages a GLB access reaches, translated in order (R176): tier, tier physical address and bytes. -/
def translateAll (s : State) (st : Nat) (pasid : BitVec 20) (nd : Need) : List (Nat × Nat) → Except Stop (List (Nat × Nat × Nat))
  | [] => .ok []
  | (va, k) :: t =>
    match translate s st pasid va nd with
    | .error e => .error e
    | .ok (tier, p) =>
      match translateAll s st pasid nd t with
      | .error e => .error e
      | .ok r => .ok ((tier, p, k) :: r)

/-- The bytes of a piece as the device reads them for itself. Bytes on a peer's page are the peer's: free values. -/
def pieceBytes (s : State) (x : Nat × Nat × Nat) : List Byte :=
  if x.1 = 3 then (List.range x.2.2).map (fun i => Config.freeByte s.fresh (x.2.1 + i))
  else rdBytes s.mem (tierFlat x.1 x.2.1) x.2.2

/-- A range widened to whole granules. -/
def granFrom (lo : Nat) : Nat := lo / 16 * 16
def granTo (lo n : Nat) : Nat := (lo + n + 15) / 16 * 16

/-- The first uncorrectable granule of pieces that lie at addresses, with its address. -/
def firstBad (s : State) : List ((Nat × Nat) × (Nat × Nat × Nat)) → Option (Nat × Nat)
  | [] => none
  | ((va, k), (tier, p, _)) :: t =>
    let flat := tierFlat tier p
    match (if tier = 3 then none else (granules [(flat, k)]).find? (isBad s)) with
    | some g => some (g, granFrom va + (16 * g - granFrom flat))
    | none => firstBad s t

/-- The bytes of a GLB range as the device reads them for itself; none of them uncorrectable (R181). -/
def glbBytes (s : State) (st : Nat) (pasid : BitVec 20) (va n : Nat) (nd : Need) : Except Stop (List Byte) :=
  let cuts := pageCuts (n / 4096 + 2) va n
  match translateAll s st pasid nd cuts with
  | .error e => .error e
  | .ok l =>
    match firstBad s (cuts.zip l) with
    | some (g, a) => .error (.unc g (BitVec.ofNat 64 a))
    | none => .ok (l.flatMap (pieceBytes s))

/- Records (R29 to R31). -/

/-- A buffer record as read (R29). -/
structure Rcd where
  base : Nat
  ext : Nat
  space : Space
  fepol : Nat
  rd : Bool
  wr : Bool
  ilreg : Option Nat
  deriving DecidableEq, Repr

/-- A record from its 32 bytes: none when it holds a reserved value (R29, R31). -/
def rcdOf (bs : List Byte) : Option Rcd :=
  let fmt := leAt bs 0x11 1
  let acc := leAt bs 0x13 1
  let il := leAt bs 0x14 2
  let bind := leAt bs 0x16 2
  match spaceOf (leAt bs 0x10 1) with
  | none => none
  | some spc =>
    if 13 < fmt ∨ 2 < leAt bs 0x12 1 ∨ 3 < acc ∨ (255 < il ∧ il ≠ 0xFFFF) ∨ (4095 < bind ∧ bind ≠ 0xFFFF) ∨ leAt bs 0x18 8 ≠ 0
    then none
    else some { base := leAt bs 0 8, ext := leAt bs 8 8, space := spc, fepol := leAt bs 0x12 1, rd := bitAt acc 0,
                wr := bitAt acc 1, ilreg := if il = 0xFFFF then none else some il }

/-- The bytes of record n of the graph of a berth, with POOL_BOUNDS where there is none (R31). -/
def rcdBytes (s : State) (c : Nat) (b : Berth) (n : Nat) : Except Stop (List Byte) :=
  let g := graphOf s b.gid
  if g.pooln ≤ n then .error (.trap { code := 0x0203 })
  else glbBytes s (stationNo c) b.pasid ((g.pool.toNat + 32 * n) % 2 ^ 48) 32 { rd := true, kind := 0 }

/-- Steps 2 and 3 of R31 and the extent of step 1, for an access of n bytes at an offset (R31). TRAPINFO of step 3 holds the
section count of the record's region (R292). -/
def rcdCheck (sects : AMap Nat) (r : Option Rcd) (addr : W64) (ofs n : Nat) (load store : Bool) (sync : Sync) (eng : Nat) : Option TrapIn :=
  match r with
  | none => some { code := 0x0203, addr := some addr }
  | some r =>
    if r.ext < ofs + n then some { code := 0x0203, addr := some addr }
    else if (store && !r.wr) || (load && !r.rd) then some { code := 0x0205, addr := some addr }
    else if (r.fepol = 1 ∧ sync ≠ .plain) ∨ (r.fepol = 2 ∧ sync = .plain) then
      some { code := 0x0304, addr := some addr, info := BitVec.ofNat 64
               (r.ilreg.getD 0xFF + (match r.ilreg with | some i => amGet 0 sects i | none => 0) % 256 * 2 ^ 8 + eng * 2 ^ 16) }
    else none

/- Accesses. -/

/-- How an access counts in the tables of R288 and R290. -/
inductive AKind where
  | ld | ldf | st | stf | atom | cr | cw | cwf
  deriving DecidableEq, Repr

def AKind.writes : AKind → Bool
  | .st | .stf | .atom | .cw | .cwf => true
  | _ => false
def AKind.reads : AKind → Bool
  | .ld | .ldf | .cr => true
  | _ => false

/-- An access of n bytes at an address. eng: the engine of R32. only: the region its record names (R31). -/
structure Acc where
  c : Nat
  b : BitVec 2
  sup : Bool := false
  eng : Nat := 1
  space : Space
  addr : W64
  n : Nat
  kind : AKind
  sync : Sync := .plain
  only : Option Nat := none
  /-- The stream is the execute stream inside an atomic region (R322). -/
  inReg : Bool := false
  deriving DecidableEq, Repr

def accBerth (s : State) (x : Acc) : Berth := berthAt (coreOf s x.c) x.b

/-- A named region of a berth (R24): offset, size and REMOTE. -/
def regionOf (b : Berth) (num : Nat) : Option (Nat × Nat × Bool) :=
  (b.regions.find? (fun r => decide (fieldAt r.toNat 35 5 = num))).map
    (fun r => (fieldAt r.toNat 0 17, 16 * fieldAt r.toNat 17 14, bitAt r.toNat 33))

/-- The target of an SPX access (R164, R166): core, berth and berth-relative SP address, or the reason of SPX_DENIED. -/
def spxTarget (s : State) (gid : Nat) (addr : W64) (n : Nat) : Except Nat (Nat × BitVec 2 × Nat) :=
  let g := graphOf s gid
  let lc := fieldAt addr.toNat 48 16
  let ofs := fieldAt addr.toNat 0 17
  match (if lc < g.gridw * g.gridh then amFind g.remap lc else none) with
  | none => .error 1
  | some (b, c) =>
    match regionOf (berthAt (coreOf s c) (BitVec.ofNat 2 b)) (fieldAt addr.toNat 40 8) with
    | none => .error 2
    | some (rofs, size, remote) =>
      if remote = false then .error 3
      else if fieldAt addr.toNat 17 23 ≠ 0 ∨ size < ofs + n then .error 4
      else .ok (c, BitVec.ofNat 2 b, rofs + ofs)

/-- A vault grant covers the access with the permission it needs (R28). -/
def grantOk (b : Berth) (addr n : Nat) (rd wr : Bool) : Bool :=
  decide (addr < 2 ^ 30) && b.grants.any (fun g =>
    decide (g.vault.toNat = addr / 2 ^ 23) && rangeIn (addr % 2 ^ 23) n g.ofs.toNat g.len.toNat
      && (!rd || g.rd) && (!wr || g.wr))

/-- Step 2 of R185 for the space itself: SP_BOUNDS, VAULT_DENIED, R168, SPX_DENIED for loads. A GLB range that goes on past 48 bits
traps at its first address there. -/
def reachCheck (s : State) (x : Acc) : Option TrapIn :=
  let b := accBerth s x
  match x.space with
  | .sp => if b.spN * 2048 < x.addr.toNat + x.n then some (trapAt 0x0201 x.addr 0) else none
  | .vlt => if grantOk b x.addr.toNat x.n x.kind.reads x.kind.writes then none else some (trapAt 0x0202 x.addr 0)
  | .glb =>
    let hi := fieldAt x.addr.toNat 48 16
    if hi = 0 ∨ (x.sup ∧ hi = 0x8000) then
      (if 2 ^ 48 < x.addr.toNat % 2 ^ 48 + x.n then some (trapAt 0x0204 (BitVec.ofNat 64 ((x.addr.toNat / 2 ^ 48 + 1) * 2 ^ 48)) 0) else none)
    else some (trapAt 0x0204 x.addr 0)
  | .spx =>
    if x.kind.reads || x.kind == .atom then
      match spxTarget s b.gid x.addr x.n with
      | .error r => some (trapAt 0x0209 x.addr r)
      | .ok _ => none
    else none

/- The interlocking table (R289 to R292). -/

/-- The core is between its arrival at the region's hardware barrier and the completion (R291). -/
def betweenArrival (b : Berth) (l : ILock) : Bool :=
  decide (l.gov = 1) && (match shapeOf l.shape with
    | some h => !phaseGe (hGet b.hdone h) (hGet b.hbar h)
    | none => false)

/-- TRAPINFO of R292. -/
def lockInfo (i count eng detail : Nat) : Nat := i % 256 + count % 256 * 2 ^ 8 + eng * 2 ^ 16 + detail * 2 ^ 24

/-- TRAPINFO of the fabric case, bit 19 (R292). That this bit is the detail 1 of R290 and R354 is DEDUCED, log entry 66. -/
def fabricInfo (i count eng : Nat) : Nat := lockInfo i count eng 0 + 2 ^ 19

/-- What region i says of an access (R290): code and detail. -/
def lockVerdict (b : Berth) (l : ILock) (i : Nat) (x : Acc) : Option (Nat × Nat) :=
  let count := amGet 0 b.sects i
  match l.mode with
  | 1 =>
    if betweenArrival b l then some (0x0302, 0)
    else if l.pattern.getLsbD (count % 8) then
      if b.lcore.toNat = l.wcore ∧ (l.weng = 0 ∨ l.weng = x.eng) then none else some (0x0301, 0)
    else if x.kind.writes then some (0x0302, 0) else none
  | 2 =>
    if x.kind = .atom then none
    else if x.inReg && (x.kind == .ld || x.kind == .ldf || x.kind == .st || x.kind == .stf) then
      if x.sync ≠ .plain ∨ x.space = .spx ∨ l.emul ∨ l.ordred then some (0x0304, 3) else none
    else some (0x0304, 0)
  | 3 => if x.kind = .ldf ∨ x.kind = .stf ∨ x.kind = .cwf then none else some (0x0304, 0)
  | 4 => if x.kind = .ld ∨ x.kind = .ldf ∨ x.kind = .cr then none else some (0x0304, 0)
  | _ => none

/-- The regions an access touches, with their numbers (R289). An access through a record that names a region is checked
against that region alone, also where the record's range lies outside it, and against none where the graph has no such
region: R31 gives no trap for either (DESIGN CHOICE, log entry 69). -/
def regionsTouched (g : Graph) (x : Acc) : List (Nat × ILock) :=
  let all := (List.range g.ilock.length).zip g.ilock
  match x.only with
  | some n => all.filter (fun p => p.1 == n)
  | none => all.filter (fun p => decide (p.2.space = spaceCode x.space) && rangesMeet p.2.base p.2.len x.addr.toNat x.n)

/-- Some byte of [lo, lo + n) lies in none of the ranges: the first such byte is lo or the end of a range. -/
def uncovered (l : List (Nat × Nat)) (lo n : Nat) : Bool :=
  (lo :: l.map (fun r => r.1 + r.2)).any (fun p => decide (lo ≤ p ∧ p < lo + n) && l.all (fun r => !decide (r.1 ≤ p ∧ p < r.1 + r.2)))

/-- Step 3 of R185, the table: no SP access, and none of the supervisor routine, is checked (R289, R383). A write of a
deterministic launch that reaches a byte outside every region traps (R33); of a float atomic this is found before detail 8
of R318, which both rules allow (DESIGN CHOICE, log entry 69). -/
def lockCheck (s : State) (x : Acc) : Option TrapIn :=
  if x.space = .sp ∨ x.sup then none
  else
    let b := accBerth s x
    let g := graphOf s b.gid
    let l := regionsTouched g x
    match l.findSome? (fun p => (lockVerdict b p.2 p.1 x).map (fun v => (p.1, v))) with
    | some (i, code, detail) => some (trapAt code x.addr (lockInfo i (amGet 0 b.sects i) x.eng detail))
    | none =>
      if b.det && x.kind.writes && (x.space == .vlt || x.space == .glb)
          && (if x.only.isSome then l.isEmpty else uncovered (l.map (fun p => (p.2.base, p.2.len))) x.addr.toNat x.n) then
        some (trapAt 0x0304 x.addr (lockInfo 0xFF 0 x.eng 0))
      else none

/-- The access is a region access: it reaches an ATOMIC region from inside an atomic region (R322). -/
def isRegionAcc (s : State) (x : Acc) : Bool :=
  x.inReg && (x.space == .vlt || x.space == .glb)
    && (regionsTouched (graphOf s (accBerth s x).gid) x).any (fun p => decide (p.2.mode = 2))

/- Engine windows (R288). -/

/-- A range of an engine operation in flight: space, write, kind, first byte, bytes. -/
structure Win where
  space : Space
  write : Bool
  kind : Nat
  lo : Nat
  n : Nat
  deriving DecidableEq, Repr

/-- The SPX address of a cast at a destination. -/
def castAddr (a dest : Nat) : Nat := a % 2 ^ 48 + dest * 2 ^ 48

def copyKindNo : CopyKind → Nat
  | .pce => 1
  | .mcast => 2
  | _ => 0

/-- The windows of a copy: its source, and the chunks of its destination that have not landed (R288). -/
def copyWins (k : Copy) : List Win :=
  if k.st = .failed then []
  else k.rd.map (fun r => { space := k.srcSp, write := false, kind := copyKindNo k.kind, lo := r.1, n := r.2 })
    ++ (k.chunks.filter (fun j => !j.landed)).map (fun j =>
        { space := k.dstSp, write := true, kind := copyKindNo k.kind,
          lo := if k.kind = .mcast then castAddr j.dst j.dest else j.dst, n := j.len })

/-- SP bytes of an operation of the matrix engine (R267, R270, R271): the A block of a product, the rows of a drain. -/
def matWins (o : MOp) : List Win :=
  match o.kind with
  | .mma | .mmaz | .mmas =>
    if o.aUse then [{ space := .sp, write := false, kind := 3, lo := fieldAt o.desc.toNat 0 17, n := 512 * (o.m.apl.toNat + 1) }]
    else []
  | .mdrain => [{ space := .sp, write := true, kind := 4, lo := o.sp, n := o.count * 128 }]
  | _ => []

/-- The local range of a network request (R365, R369). -/
def netWins (r : NetReq) : List Win :=
  match spaceOf (leAt r.bytes 0x0C 1) with
  | some spc => [{ space := spc, write := leAt r.bytes 0 1 == 2, kind := 5, lo := leAt r.bytes 0x10 8, n := leAt r.bytes 0x20 4 }]
  | none => []

/-- The windows that an access of a berth is compared with: those of the core's own operations. SP addresses are the
berth's own, GLB addresses the PASID's, and SPX addresses the graph's (R288). -/
def windowsOf (s : State) (c : Nat) (b : BitVec 2) : List Win :=
  let gid := (berthAt (coreOf s c) b).gid
  let pasid := (berthAt (coreOf s c) b).pasid
  let mine (w : Win) (wb : BitVec 2) (wg : Nat) : Bool :=
    match w.space with
    | .sp => decide (wb = b)
    | .vlt => true
    | .glb => decide (wg = gid ∨ (graphOf s wg).pasid = pasid)
    | .spx => decide (wg = gid)
  (s.copies.filter (fun k => k.core == c)).flatMap (fun k => (copyWins k).filter (fun w => mine w k.berth k.gid))
    ++ (coreOf s c).mat.queue.flatMap (fun o => (matWins o).filter (fun w => mine w o.berth gid))
    ++ (s.net.reqs.filter (fun r => r.core == c)).flatMap (fun r => (netWins r).filter (fun w => mine w r.berth r.gid))

/-- The first granule of [lo, lo + n) that a window holds. -/
def firstHit (spc : Space) (lo n : Nat) (readsToo : Bool) (ws : List Win) : Option (Nat × Nat) :=
  ws.foldl (fun best w =>
    if w.space = spc ∧ 0 < w.n ∧ 0 < n ∧ (w.write ∨ readsToo) ∧ granFrom w.lo < granTo lo n ∧ granFrom lo < granTo w.lo w.n then
      let g := max (granFrom w.lo) (granFrom lo)
      match best with
      | some (h, k) => if g < h then some (g, w.kind) else some (h, k)
      | none => some (g, w.kind)
    else best) none

/-- Step 3 of R185, the windows. A load with WAITF or TAKE never meets one (R288). -/
def windowCheck (s : State) (x : Acc) : Option TrapIn :=
  if x.sup ∨ (x.kind = .ldf ∧ (x.sync = .waitf ∨ x.sync = .take)) then none
  else
    match firstHit x.space x.addr.toNat x.n x.kind.writes (windowsOf s x.c x.b) with
    | some (g, k) => some (trapAt 0x0303 (BitVec.ofNat 64 g) k)
    | none => none

/- Where an access goes. -/

/-- The home of an access: flat addresses and bytes, or a peer and an address there. mixed: its pages lie in several places, a peer
among them: tier, tier physical address and bytes of each (R168). -/
inductive Loc where
  | here (pieces : List (Nat × Nat))
  | peer (dev addr : Nat)
  | mixed (pieces : List (Nat × Nat × Nat))
  deriving DecidableEq, Repr

/-- The device on which a page piece of TIER 3 lies. -/
def pieceDev (p : Nat × Nat × Nat) : Nat := Config.peerDevice (p.2.1 / 4096) % 256

/-- The pieces of an access that lie in this device. -/
def nearPieces (l : List (Nat × Nat × Nat)) : List (Nat × Nat) :=
  (l.filter (fun p => p.1 != 3)).map (fun p => (tierFlat p.1 p.2.1, p.2.2))

/-- The pieces that lie at peers, from a place in the access on: that place, device, address there and bytes. -/
def farPieces : Nat → List (Nat × Nat × Nat) → List (Nat × Nat × Nat × Nat)
  | _, [] => []
  | ofs, p :: l => (if p.1 = 3 then [(ofs, pieceDev p, p.2.1 % 2 ^ 48, p.2.2)] else []) ++ farPieces (ofs + p.2.2) l

/-- PASID and 48-bit address of a GLB access (R383). -/
def glbKey (s : State) (x : Acc) : BitVec 20 × Nat :=
  (if x.addr.getLsbD 63 then 0 else (accBerth s x).pasid, x.addr.toNat % 2 ^ 48)

/-- Step 4 of R185. kind: KIND of R178. -/
def locate (s : State) (x : Acc) (kind : Nat) : Except Stop Loc :=
  let b := accBerth s x
  match x.space with
  | .sp => .ok (.here [(spAddr x.c (b.spB * 2048 + x.addr.toNat), x.n)])
  | .vlt => .ok (.here [(vaultAddr (x.addr.toNat / 2 ^ 23) (x.addr.toNat % 2 ^ 23), x.n)])
  | .spx =>
    match spxTarget s b.gid x.addr x.n with
    | .ok (c, tb, a) => .ok (.here [(spAddr c ((berthAt (coreOf s c) tb).spB * 2048 + a), x.n)])
    | .error _ => .ok (.here [])
  | .glb =>
    let k := glbKey s x
    match translateAll s (stationNo x.c) k.1 { rd := x.kind.reads, wr := x.kind.writes, kind := kind }
        (pageCuts (x.n / 4096 + 2) k.2 x.n) with
    | .error e => .error e
    | .ok l =>
      if l.any (fun p => p.1 == 2) && x.sync != .plain then .error (.trap (trapAt 0x0205 x.addr 0))
      else if x.inReg && l.any (fun p => decide (2 ≤ p.1)) && isRegionAcc s x then
        .error (.trap (trapAt 0x0304 x.addr (lockInfo (((regionsTouched (graphOf s b.gid) x).map (·.1)).headD 0xFF) 0 x.eng 3)))
      else
        if l.any (fun p => p.1 == 3) then
          let touched := regionsTouched (graphOf s b.gid) x
          match (if x.sup then none else touched.find? (fun q => decide (q.2.mode = 1))), l with
          | some (i, _), _ => .error (.trap (trapAt 0x0304 x.addr (fabricInfo i (amGet 0 b.sects i) x.eng)))
          | none, [p] => .ok (.peer (pieceDev p) (p.2.1 % 2 ^ 48))
          | none, _ => .ok (.mixed l)
        else .ok (.here (l.map (fun p => (tierFlat p.1 p.2.1, p.2.2))))

/-- The translations an access has made enter the cache. -/
def noteAcc (s : State) (x : Acc) : State :=
  match x.space with
  | .glb =>
    let k := glbKey s x
    (pageCuts (x.n / 4096 + 2) k.2 x.n).foldl (fun t p => noteTlb t (stationNo x.c) k.1 p.1) s
  | _ => s

/- Replayable faults (R177). -/

/-- A replayable fault takes or joins a fault entry, or is dropped, and the request is parked (R177). -/
def stationFault (s : State) (st : Nat) (r : ParkedReq) : State :=
  let k := stationOf s st
  let k1 := { k with parked := k.parked ++ [r] }
  match k.faults.findIdx? (fun f => f.vpage == r.vpage && f.pasid == r.pasid) with
  | some i => setStation s st { k1 with faults := updAt k1.faults i (fun f => { f with waiters := min 255 (f.waiters + 1) }) }
  | none =>
    if k.faults.length < 8 then
      let s1 := setStation s st { k1 with faults := k1.faults ++
        [{ kind := r.kind, vpage := r.vpage, pasid := r.pasid, cluster := r.cluster, fwall := s.wall }] }
      if k.irqen then { s1 with msix := k.vector.toNat :: s1.msix } else s1
    else setStation s st { k1 with dropped := true }

/-- A stream stalls on a replayable fault (R180). aux: what the wait remembers. -/
def stallStream (s : State) (kind : Nat) (pasid : BitVec 20) (vpage : Nat) (aux : Nat) : Body :=
  .hold (stationFault s (stationNo s.cur.1)
    { who := .stream s.cur.1 s.cur.2, kind := kind, pasid := pasid, vpage := vpage, cluster := clusterNo s.cur.1 }) .replay aux

/-- What becomes of an instruction whose access is not made. aux: 1 where the checks before translation have passed and are
not made again (R185). -/
def stopWith (s : State) (aux : Nat) : Stop → Body
  | .trap t => .trap s t
  | .stall k p v => stallStream s k p v aux
  | .unc g a => .trap (uncRec s s.cur.1 (actBerthNo (curCore s)) g (bitNat s.cur.2)) (trapAt 0x0207 a 0)

def stopBody (s : State) : Stop → Body := stopWith s 0
def stopChecked (s : State) : Stop → Body := stopWith s 1

/-- A held instruction that has passed the checks of steps 1 to 3 of R185. -/
def checkedBefore (ph : Phase) (s : State) : Bool :=
  ph != .issue && (match waitNow s with | some w => decide (w.aux ≠ 0) | none => false)

/- Full/empty bits (R169) and uncorrectable data (R181). -/

def feGet (s : State) (g : Nat) : Bool := (rdByte s.fe g).getLsbD 0
def feSet (s : State) (g : Nat) (v : Bool) : State := { s with fe := wrBytes s.fe g [if v then 1 else 0] }

/-- The condition of a SYNC mode on every granule (R169). -/
def syncOk (s : State) (m : Sync) (gs : List Nat) : Bool :=
  match m with
  | .waitf | .take => gs.all (feGet s)
  | .waite | .put => gs.all (fun g => !feGet s g)
  | _ => true

/-- The state a SYNC mode leaves the granules in (R169). -/
def syncSet (s : State) (m : Sync) (gs : List Nat) : State :=
  match m with
  | .take => gs.foldl (fun t g => feSet t g false) s
  | .put | .fill => gs.foldl (fun t g => feSet t g true) s
  | _ => s

/-- A line becomes the newest dirty line of its station cache, which holds 131,072 lines (8 MiB): beyond them the one that was written
longest ago has been written back (R2, R5; which one goes is DESIGN CHOICE, log entry 60). -/
def pushDirty (l : Nat) (d : List Nat) : List Nat :=
  let rest := d.filter (· != l)
  let mine := fun (x : Nat) => homeStation (64 * x) == homeStation (64 * l)
  l :: (if (rest.filter mine).length < 131072 then rest else (rest.reverse.eraseP mine).reverse)

/-- The station caches hold the lines of a write to a DRAM tier until they write them back (R2, R5, R407). -/
def noteDirty (s : State) (a n : Nat) : State :=
  if a < vaultBase ∧ 0 < n then
    { s with dirty := ((List.range ((a + n + 63) / 64 - a / 64)).map (· + a / 64)).foldr pushDirty s.dirty }
  else s

/-- Bytes written at their home: a write to part of an uncorrectable granule is discarded, a whole one clears it (R181). -/
def storeBytes (s : State) (c : Nat) (b : BitVec 2) (a : Nat) (bs : List Byte) : State :=
  let gs := granules [(a, bs.length)]
  if gs.all (fun g => !isBad s g) then { s with mem := wrBytes s.mem a bs }
  else
    gs.foldl (fun t g =>
      let lo := max a (16 * g)
      let hi := min (a + bs.length) (16 * g + 16)
      if isBad t g = false then { t with mem := wrBytes t.mem lo ((bs.drop (lo - a)).take (hi - lo)) }
      else if hi - lo = 16 then { setBad t g false with mem := wrBytes t.mem lo ((bs.drop (lo - a)).take 16) }
      else uncRec t c b g) s

/-- Bytes reach their home (R181). -/
def landBytes (s : State) (c : Nat) (b : BitVec 2) (a : Nat) (bs : List Byte) : State :=
  noteDirty (storeBytes s c b a bs) a bs.length

/-- A list of bytes dealt out over pieces. -/
def dealOut : List (Nat × Nat) → List Byte → List (Nat × List Byte)
  | [], _ => []
  | (a, n) :: t, bs => (a, bs.take n) :: dealOut t (bs.drop n)

def landPieces (s : State) (c : Nat) (b : BitVec 2) (ps : List (Nat × List Byte)) : State :=
  ps.foldl (fun t p => landBytes t c b p.1 p.2) s

/-- The order of waiting accesses at the home of a granule (R170): a stream's wait that arrived before, and could go. -/
def waiterGoes (s : State) (no : Nat) (gs : List Nat) (w : Wait) : Bool :=
  decide (w.why = .timed ∧ w.arr < no) && (match w.sync with
    | some q => q.gs.any (fun g => gs.contains g) && syncOk s q.sync q.gs
    | none => false)

/-- An access that reached the home of some of these granules before place no can be performed, and goes first (R170). -/
def olderGoes (s : State) (no : Nat) (gs : List Nat) : Bool :=
  s.cores.any (fun p => [p.2.ex.wait, p.2.pi.wait, p.2.supWait].any (fun w => w.any (waiterGoes s no gs)))
    || s.fabric.retry.any (fun p => p.2.any (fun e =>
        decide (e.no < no) && e.gs.any (fun g => gs.contains g) && syncOk s e.sync e.gs))

/-- The place of the stream that issues among the accesses at a home (R170). -/
def myPlace (s : State) : Nat :=
  match waitNow s with
  | some w => if w.sync.isSome then w.arr else s.arrNext
  | none => s.arrNext

/-- The condition of a SYNC access of the stream that issues: that of its mode, and no earlier arrival goes first (R169,
R170). -/
def syncTurn (s : State) (m : Sync) (gs : List Nat) : Bool := syncOk s m gs && !olderGoes s (myPlace s) gs

/- Posted stores (R186, R284). -/

/-- Where a posted store's bytes go: an SPX store is resolved at its target (R166). -/
def postedPieces (s : State) (p : Posted) : List (Nat × List Byte) :=
  match p.spx with
  | none => p.pieces
  | some a =>
    match p.pieces with
    | [(_, bs)] =>
      match spxTarget s p.gid a bs.length with
      | .ok (c, b, ofs) => [(spAddr c ((berthAt (coreOf s c) b).spB * 2048 + ofs), bs)]
      | .error _ => []
    | _ => []

/-- The stores and atomics of a stream that have not been performed. -/
def ownPosted (s : State) (c : Nat) (pilot : Bool) : List Posted :=
  s.posted.filter (fun p => p.core == c && p.pilot == pilot)

/-- Bytes at an address with a later store laid over them. -/
def mergeAt (a : Nat) (bs : List Byte) (p : Nat × List Byte) : List Byte :=
  (List.range bs.length).zipWith (fun i b =>
    if p.1 ≤ a + i ∧ a + i < p.1 + p.2.length then p.2.getD (a + i - p.1) b else b) bs

/-- The bytes a stream's load sees at a home address: memory with its own posted stores over it (R186). What a posted atomic
will leave is not known before it is performed (R286). -/
def seenBytes (s : State) (c : Nat) (pilot : Bool) (p : Nat × Nat) : List Byte :=
  (((ownPosted s c pilot).filter (fun q => q.atom.isNone)).flatMap (postedPieces s)).foldl (mergeAt p.1) (rdBytes s.mem p.1 p.2)

/-- One of the stream's own posted operations touches a granule of the pieces; atoms: only atomics are asked about. -/
def ownTouches (s : State) (c : Nat) (pilot : Bool) (atoms : Bool) (ps : List (Nat × Nat)) : Bool :=
  ((ownPosted s c pilot).filter (fun p => !atoms || p.atom.isSome)).any (fun p =>
    (postedPieces s p).any (fun q => ps.any (fun r =>
      rangesMeet (granFrom q.1) (granTo q.1 q.2.length - granFrom q.1) (granFrom r.1) (granTo r.1 r.2 - granFrom r.1))))

end Sys2Proof.Machine
end

