-- ==== Sys2Proof/Machine/AtomArith.lean ====
section
/-! DEFINITION. What an atomic does to the bytes at its address (R310 to R312). -/

namespace Sys2Proof.Machine

/-- The new value of an element of e bytes (R310, R311). -/
def atomNew (a : Atom) (old : Nat) : Nat :=
  let n := 8 * a.e
  let x := a.x.toNat % 2 ^ n
  let y := a.y.toNat % 2 ^ n
  match a.op with
  | .add => (old + x) % 2 ^ n
  | .min => if a.sgn then (if signedOf n x < signedOf n old then x else old) else min old x
  | .max => if a.sgn then (if signedOf n old < signedOf n x then x else old) else max old x
  | .and => old &&& x
  | .or => old ||| x
  | .xor => old ^^^ x
  | .xchg => x
  | .cas => if old = x then y else old
  | .fadd => afaddBits a.ft old x
  | .redv => old

/-- The elements of an AREDV added one by one (R312). -/
def redvElems (a : Atom) (old vec : List Nat) : List Nat :=
  old.zipWith (fun p q => if a.fp then afaddBits a.ft p q else (p + q) % 2 ^ (8 * a.e)) vec

/-- The bytes an atomic leaves where it found old. -/
def atomBytes (a : Atom) (old : List Byte) : List Byte :=
  match a.op with
  | .redv => elemBytes a.e (redvElems a (elemsOf a.e old) (elemsOf a.e a.vec))
  | _ => leBytes a.e (atomNew a (leNat old))

/-- The bytes an atomic reaches. -/
def atomLen (a : Atom) : Nat := if a.op = .redv then 256 else a.e

/-- The old value as RET = 1 writes it (R310, R311). -/
def atomOld (a : Atom) (old : List Byte) : W64 :=
  if a.op = .fadd then leW64 old else sextTo64 (8 * a.e) (leNat old)

/-- An atomic performed on pieces: the bytes it found and the state it leaves (R313). -/
def performAtom (s : State) (c : Nat) (b : BitVec 2) (a : Atom) (ps : List (Nat × Nat)) : List Byte × State :=
  let old := ps.flatMap (fun p => rdBytes s.mem p.1 p.2)
  (old, landPieces s c b (dealOut ps (atomBytes a old)))

end Sys2Proof.Machine
end

