-- ==== Sys2Proof/Machine/Fabric.lean ====
section
/-! DEFINITION. The Druny fabric (R342 to R364): routes, delivery contexts, accesses performed for other devices, tablets
and the siding. -/

namespace Sys2Proof.Machine

def updFab (s : State) (f : Fabric → Fabric) : State := { s with fabric := f s.fabric }

/-- Own device ID (R342). -/
def selfId (s : State) : Nat := 16 * s.fabric.y.toNat + s.fabric.x.toNat

/-- The device lies in the grid (R342). -/
def inGrid (s : State) (d : Nat) : Bool :=
  decide (d % 16 ≤ s.fabric.gxm1.toNat ∧ d / 16 ≤ s.fabric.gym1.toNat ∧ d < 256)

/- Ports and routes (R342, R347). -/

def portOf (s : State) (p : Nat) : Port := amGet {} s.fabric.ports p
def setPort (s : State) (p : Nat) (x : Port) : State := updFab s (fun f => { f with ports := amSet f.ports p x })

/-- The number of the port of a row or column that leads from coordinate x to another, without its base. -/
def linePort (x d : Nat) : Nat := if d < x then d else d - 1

/-- The coordinate that port number p of a row or column leads to (R342). -/
def linePeer (x p : Nat) : Nat := if p < x then p else p + 1

def xPort (s : State) (d : Nat) : Nat := linePort s.fabric.x.toNat (d % 16)
def yPort (s : State) (d : Nat) : Nat := 16 + linePort s.fabric.y.toNat (d / 16)

/-- The device ID a port should find at its far end (R342). -/
def peerOf (s : State) (p : Nat) : Nat :=
  if p < 16 then 16 * s.fabric.y.toNat + linePeer s.fabric.x.toNat p
  else 16 * linePeer s.fabric.y.toNat (p - 16) + s.fabric.x.toNat

/-- Port p leads to a device. -/
def leadsTo (s : State) (p d : Nat) : Bool := peerOf s p == d

/-- The port of the minimal route of a packet of a source (R347): the direct link, or the shorter of two output queues, X first
on a tie. A route back through the source is none. -/
def minimalPort (s : State) (src d : Nat) : Nat :=
  if d / 16 = s.fabric.y.toNat then xPort s d
  else if d % 16 = s.fabric.x.toNat then yPort s d
  else if leadsTo s (xPort s d) src then yPort s d
  else if leadsTo s (yPort s d) src then xPort s d
  else if (portOf s (yPort s d)).queue.length < (portOf s (xPort s d)).queue.length then yPort s d else xPort s d

/-- The port a packet leaves by (R347): a detour through the lowest-numbered link that is up, not back to its source, when the
minimal route's link is down or has more than 64 packets queued and hops remain. -/
def routePort (s : State) (src d hops : Nat) : Nat :=
  let p := minimalPort s src d
  if (portOf s p).up ∧ (portOf s p).queue.length ≤ 64 then p
  else
    match (List.range 32).find? (fun q => decide (q ≠ p) && (portOf s q).up && decide ((portOf s q).queue.length ≤ 64)
        && !leadsTo s q src && decide (hops ≤ 1)) with
    | some q => q
    | none => p

/-- A packet enters the output queue of its port. Where no link it may take is up it is lost, and what is not acknowledged is
transmitted again (R345, R349). -/
def launchPkt (s : State) (k : Pkt) : State :=
  let p := routePort s k.src k.dst k.hops
  if (portOf s p).up then setPort s p { portOf s p with queue := (portOf s p).queue ++ [k] } else s

/-- A copy that is more than 50 µs past its stamp is discarded (R347). -/
def stalePkt (s : State) (k : Pkt) : Bool := decide (k.stamp + 50000 < s.wall)

/- Delivery contexts, source end (R349). -/

def findOut (s : State) (d : Nat) : Option Ctx := s.fabric.out.find? (fun c => c.dst == d)
def putOut (s : State) (c : Ctx) : State :=
  updFab s (fun f => { f with out := c :: f.out.filter (fun x => x.dst != c.dst) })

/-- The context to a device, open: within 100 µs of a close its numbers go on (R349). A new one is told from those before it by
the time at which it opens (DEDUCED, log entry 71). -/
def openOut (s : State) (d : Nat) : Ctx :=
  match findOut s d with
  | some c =>
    match c.closed with
    | some w => if 100000 ≤ s.wall - w then { dst := d, born := s.wall } else { c with closed := none }
    | none => c
  | none => { dst := d, born := s.wall }

/-- The sequence number of the next packet to a device. -/
def seqTo (s : State) (d : Nat) : BitVec 24 := (openOut s d).next

/-- A packet is sent to a device in its delivery context; to the device itself it takes no link (R349, R352). -/
def sendPkt (s : State) (d : Nat) (body : PktBody) : State :=
  if d = selfId s then
    updFab s (fun f => { f with loop := f.loop ++ [{ src := d, dst := d, stamp := s.wall, body := body }] })
  else
    let c := openOut s d
    let k : Pkt := { src := selfId s, dst := d, seq := c.next, ctx := c.born, stamp := s.wall, body := body }
    let s1 := putOut s { c with next := c.next + 1, unacked := c.unacked ++ [{ pkt := k, wall := s.wall }], traffic := s.wall,
                                ackWall := if c.unacked.isEmpty then s.wall else c.ackWall }
    launchPkt s1 k

/- Stores taken in and not performed (R349, R359, R361, R364). -/

/-- The operation of a packet's access. -/
def pktOp : PktBody → Option Nat
  | .rld op _ _ _ _ => some op
  | .rst op _ _ _ _ _ _ => some op
  | .atom op _ _ _ => some op
  | _ => none

/-- The operations of a device's accesses that this device has taken in and not performed: held, behind a held store, in a retry
list, parked at a station, or ended unperformed. -/
def openOps (s : State) (src : Nat) : List Nat :=
  ((s.fabric.siding.filter (fun h => h.src == src)).filterMap (fun h => pktOp h.pkt.body))
    ++ (s.fabric.inn.filter (fun c => c.src == src)).flatMap (fun c => c.behind.filterMap (fun h => pktOp h.pkt.body))
    ++ s.fabric.retry.flatMap (fun p => (p.2.filter (fun e => e.src == src)).filterMap (fun e => pktOp e.pkt.body))
    ++ s.stations.flatMap (fun p => p.2.parked.filterMap (fun r => match r.who with
        | .remote d k => if d = src then pktOp k.body else none
        | _ => none))
    ++ (s.fabric.lost.filter (fun e => e.1 == src)).map (·.2)

/-- A store of a device ends here unperformed (R359). -/
def noteLost (s : State) (src : Nat) (k : Pkt) : State :=
  match pktOp k.body with
  | some op => updFab s (fun f => { f with lost := (src, op) :: f.lost })
  | none => s

/- Remote operations at the issuer (R355). -/

def findRop (s : State) (id : Nat) : Option ROp := s.fabric.rops.find? (fun r => r.id == id)
def updRop (s : State) (id : Nat) (f : ROp → ROp) : State :=
  updFab s (fun x => { x with rops := x.rops.map (fun r => if r.id = id then f r else r) })

/-- The tablet of a rack entry (R358). -/
def tabletOf (s : State) (idx : Nat) : BitVec 32 :=
  BitVec.ofNat 32 (selfId s * 2 ^ 24 + idx * 2 ^ 12 + (amGet {} s.fabric.rack idx).gen.toNat)

def rackOf (s : State) (idx : Nat) : RackEnt := amGet {} s.fabric.rack idx
def setRack (s : State) (idx : Nat) (e : RackEnt) : State := updFab s (fun f => { f with rack := amSet f.rack idx e })

/-- A PENDING entry becomes LANDED, or FREE when it has no holder, and each holder is sent CLEAR (R359). -/
def landTablet (s : State) (idx : Nat) : State :=
  let e := rackOf s idx
  if e.st = .pending then
    e.holders.foldl (fun t d => sendPkt t d (.clear (tabletOf s idx)))
      (setRack s idx { e with st := if e.holders.isEmpty then .free else .landed, acks := e.holders })
  else s

/-- A PENDING entry becomes DEAD, and each holder is sent DROP (R359). -/
def killTablet (s : State) (idx : Nat) : State :=
  let e := rackOf s idx
  if e.st = .pending then
    e.holders.foldl (fun t d => sendPkt t d (.drop (tabletOf s idx))) (setRack s idx { e with st := .dead, deadWall := s.wall })
  else s

/-- A remote operation ends unperformed or with its outcome unknown: the tablets of its own and of later stores of its
stream to that device die (R359). -/
def killTablets (s : State) (r : ROp) : State :=
  (s.fabric.rops.filter (fun q => decide (q.core = r.core ∧ q.pilot = r.pilot ∧ q.gid = r.gid ∧ q.task = r.task
    ∧ q.dev = r.dev ∧ r.id ≤ q.id))).foldl (fun t q => match q.tab with | some i => killTablet t i | none => t) s

/-- A code reaches the issuing task as an asynchronous event (R351, R355). -/
def raiseRop (s : State) (r : ROp) (code : Nat) (detail : List Byte) : State :=
  raiseAsync s r.gid r.task r.ord { code := code, addr := r.va, pc := r.pc, detail := detail, engine := bitNat r.pilot, eid := r.core, space := 5 }

/-- A remote operation ends with a code: a held stream finds it, a posted store raises it (R351, R355). -/
def failRop (s : State) (r : ROp) (code : Nat) : State :=
  if r.done then s
  else
    let s1 := if r.kind = .store then killTablets s r else s
    let s2 := updRop s1 r.id (fun q => { q with done := true, rep := some (.trap code) })
    if r.held ∨ r.kind ≠ .store then s2 else raiseRop s2 r code []

/-- A remote store has been acknowledged and performed, and every earlier one of its stream to its device has been or had ended
before (R359, R364). -/
def landed (s : State) (r : ROp) : Bool :=
  (s.fabric.rops.filter (fun q => decide (q.core = r.core ∧ q.pilot = r.pilot ∧ q.gid = r.gid ∧ q.task = r.task
    ∧ q.dev = r.dev ∧ q.kind = .store ∧ q.id ≤ r.id))).all (fun q => q.acked && q.perf || (q.done && q.id != r.id))

/-- The tablets of stores to a device land, where they may (R359). -/
def landReady (s : State) (dev : Nat) : State :=
  (s.fabric.rops.filter (fun r => r.dev == dev && r.kind == .store)).foldl (fun t r => match r.tab with
    | some i => if landed t r then landTablet t i else t
    | none => t) s

/-- A reply or report reaches the issuer (R355). A store of which it tells that it was not performed takes its tablet with it
(R359, R374). -/
def replyRop (s : State) (id : Nat) (rep : Reply) : State :=
  match findRop s id with
  | none => s
  | some r =>
    match rep with
    | .trap code => failRop s r code
    | _ =>
      if r.done then s
      else
        let s1 := if r.kind = .store ∧ rep = .canceled then killTablets s r else s
        let s2 := updRop s1 id (fun q => { q with done := true, rep := some rep, perf := q.perf || rep != .canceled })
        if r.kind = .store then landReady s2 r.dev else s2

/-- The acknowledgement of what was sent to a device up to a sequence number, but for operations that have not been performed
(R349, R359, R364). It tells of the packets it covers alone, and of those of earlier contexts, which had all been acknowledged: one that
was sent before it and arrives after it says nothing of the packets beyond (DEDUCED, log entry 72). -/
def ackUpTo (s : State) (d : Nat) (seq : BitVec 24) (opens : List Nat) : State :=
  match findOut s d with
  | none => s
  | some c =>
    let got := fun (q : BitVec 24) => decide ((seq - q).toNat < 2 ^ 23)
    let left := c.unacked.filter (fun p => !got p.pkt.seq)
    let s1 := if left.length = c.unacked.length then s else putOut s { c with unacked := left, ackWall := s.wall, traffic := s.wall }
    let s2 := updFab s1 (fun f => { f with rops := f.rops.map (fun r =>
      if r.dev = d then
        let a := r.acked || (got r.seq && c.unacked.any (fun p => decide (p.pkt.seq = r.seq)))
        let told := decide (r.ctx < c.born) || (decide (r.ctx = c.born) && got r.seq)
        { r with acked := a, perf := r.perf || (a && told && !r.done && !opens.contains r.id) }
      else r) })
    landReady s2 d

/- Tablets at this device (R359 to R361). -/

def tabDev (t : BitVec 32) : Nat := fieldAt t.toNat 24 8
def tabIdx (t : BitVec 32) : Nat := fieldAt t.toNat 12 12
def tabGen (t : BitVec 32) : Nat := fieldAt t.toNat 0 12

/-- The status of a tablet of this device: 0 pending, 1 landed, 2 dead (R359, R363). -/
def rackStatus (s : State) (t : BitVec 32) : Nat :=
  let e := rackOf s (tabIdx t)
  if e.gen.toNat ≠ tabGen t then 1
  else match e.st with
    | .free | .landed => 1
    | .pending => 0
    | .dead => 2

/-- What this device knows of a tablet: 0 nothing, 1 cleared, 2 dropped (R361). -/
def tabKnown (s : State) (t : BitVec 32) : Nat :=
  if tabDev t = selfId s then rackStatus s t
  else
    match s.fabric.cache.find? (fun p => p.1 == t) with
    | some (_, true) => 1
    | some (_, false) => 2
    | none => 0

def noteTab (s : State) (t : BitVec 32) (cleared : Bool) : State :=
  updFab s (fun f => { f with cache := ((t, cleared) :: f.cache.filter (fun p => p.1 != t)).take 1024 })

/- Delivery contexts, destination end (R349). -/

def findIn (s : State) (d : Nat) : Option RCtx := s.fabric.inn.find? (fun c => c.src == d)
def inOf (s : State) (d : Nat) : RCtx := (findIn s d).getD { src := d }
def putIn (s : State) (c : RCtx) : State :=
  updFab s (fun f => { f with inn := c :: f.inn.filter (fun x => x.src != c.src) })

/-- An acknowledgement travels outside the sequence, and names the context of its packets (R349; DEDUCED, log entry 71). -/
def sendAck (s : State) (d : Nat) (seq : BitVec 24) : State :=
  launchPkt s { src := selfId s, dst := d, ctx := (inOf s d).born, stamp := s.wall, body := .ack seq (openOps s d) }

/-- The issuer learns by a further acknowledgement that a store it was told of earlier has been performed, or never will be
(R359, R364; DEDUCED, log entry 72). -/
def tellDone (s : State) (src : Nat) : State := if src = selfId s then s else sendAck s src ((inOf s src).next - 1)

/- Accesses performed for another device (R355, R356). -/

/-- What an access performed at this device comes to. -/
inductive AtHome where
  | done (s : State) (r : Reply)
  | waits (s : State) (station : Nat) (sync : Sync) (gs : List Nat)
  | parked (s : State)

/-- The address, bytes, SYNC mode and PASID of a packet's access, and whether it reads and writes. -/
structure PktAcc where
  op : Nat
  pasid : BitVec 20
  va : Nat
  n : Nat
  sync : Sync
  rd : Bool
  wr : Bool
  deriving DecidableEq, Repr

def pktAcc : PktBody → Option PktAcc
  | .rld op p va n sy => some { op := op, pasid := p, va := va.toNat, n := n, sync := sy, rd := true, wr := false }
  | .rst op p va bs sy _ _ => some { op := op, pasid := p, va := va.toNat, n := bs.length, sync := sy, rd := false, wr := true }
  | .atom op p va a => some { op := op, pasid := p, va := va.toNat, n := atomLen a, sync := .plain, rd := false, wr := true }
  | _ => none

/-- The core number that stands for another device in what an access writes. -/
def noCore : Nat := 0xFFFF

/-- A granule that is uncorrectable and that a store does not cover whole (R181). -/
def partBad (s : State) (ps : List (Nat × Nat)) : Option Nat :=
  (granules ps).find? (fun g => isBad s g && !ps.any (fun p => decide (p.1 ≤ 16 * g ∧ 16 * g + 16 ≤ p.1 + p.2)))

/-- A SYNC mode has a condition (R169). -/
def hasCond (m : Sync) : Bool := match m with | .waitf | .waite | .take | .put => true | _ => false

/-- An access of a packet is tried at its granule's home (R355, R170). no: its place among the accesses there. A store to part of
an uncorrectable granule ends unperformed, as a load of it does. -/
def tryAccess (s : State) (src : Nat) (k : Pkt) (no : Nat) : AtHome :=
  match pktAcc k.body with
  | none => .done s .stored
  | some x =>
    let st := homeStation x.va
    match translateAll s st x.pasid { rd := x.rd, wr := x.wr, kind := if x.wr then 1 else 0 } (pageCuts (x.n / 4096 + 2) x.va x.n) with
    | .error (.trap t) => .done s (.trap t.code)
    | .error (.stall kind p v) =>
      .parked (stationFault s st { who := .remote src k, kind := kind, pasid := p, vpage := v, cluster := 0 })
    | .error (.unc g _) => .done (uncRec s noCore 0 g) (.trap 0x0207)
    | .ok l =>
      let ps := l.map (fun p => (tierFlat p.1 p.2.1, p.2.2))
      let gs := granules ps
      if l.any (fun p => decide (2 ≤ p.1)) && x.sync != .plain then .done s (.trap 0x0205)
      else if !syncOk s x.sync gs || (hasCond x.sync && olderGoes s no gs) then .waits s (homeStation (ps.headD (0, 0)).1) x.sync gs
      else
        match k.body with
        | .rst _ _ _ bs _ _ _ =>
          (match partBad s (ps.filter (fun p => decide (p.1 < 2 ^ 50))) with
           | some g => .done (uncRec s noCore 0 g) (.trap 0x0207)
           | none => .done (syncSet (landPieces s noCore 0 (dealOut (ps.filter (fun p => decide (p.1 < 2 ^ 50))) bs)) x.sync gs) .stored)
        | body =>
          match gs.find? (isBad s) with
          | some g => .done (uncRec s noCore 0 g) (.trap 0x0207)
          | none =>
            match body with
            | .atom _ _ _ a => let r := performAtom s noCore 0 a ps; .done r.2 (.data r.1)
            | _ => .done (syncSet s x.sync gs) (.data (l.flatMap (pieceBytes s)))

/-- The outcome of an access goes back: loads and atomics are answered, stores that are waited for report, and what failed
is told (R355). A store of the device to itself is known to be performed (R352). -/
def answerAccess (s : State) (src : Nat) (x : PktAcc) (k : Pkt) (r : Reply) : State :=
  let s1 := match r, k.body with
    | .trap _, .rst _ _ _ _ _ _ _ => noteLost s src k
    | .stored, .rst _ _ _ _ _ _ _ =>
      if src = selfId s then landReady (updRop s x.op (fun q => { q with acked := true, perf := true })) src else s
    | _, _ => s
  match r, k.body with
  | .stored, .rst _ _ _ _ .plain _ _ => s1
  | _, _ => sendPkt s1 src (.reply x.op r)

/-- The entries of a retry list are tested again, the first 1,024 of them, in order (R356). -/
def retestOne (st : Nat) : Nat → State → Nat → State
  | 0, s, _ => s
  | fuel + 1, s, i =>
    let l := amGet [] s.fabric.retry st
    match (l.take 1024)[i]? with
    | none => s
    | some e =>
      match tryAccess s e.src e.pkt e.no with
      | .waits _ _ _ _ => retestOne st fuel s (i + 1)
      | .done s1 r =>
        let s2 := updFab s1 (fun f => { f with retry := amSet f.retry st (dropAt l i) })
        let s3 := match pktAcc e.pkt.body with | some x => answerAccess s2 e.src x e.pkt r | none => s2
        retestOne st fuel (tellDone s3 e.src) i
      | .parked s1 => retestOne st fuel (updFab s1 (fun f => { f with retry := amSet f.retry st (dropAt l i) })) i

def retestAll (s : State) : State :=
  s.fabric.retry.foldl (fun t p => if p.2.isEmpty then t else retestOne p.1 (p.2.length + 1) t 0) s

/-- An access is performed, joins a retry list or is parked at its station (R355, R356). What it changes is tested at once by
those that wait. -/
def doAccess (s : State) (src : Nat) (k : Pkt) : State :=
  match pktAcc k.body with
  | none => s
  | some x =>
    match tryAccess s src k s.arrNext with
    | .done s1 r => let s2 := answerAccess s1 src x k r; if x.sync = .plain then s2 else retestAll s2
    | .parked s1 => s1
    | .waits s1 st sync gs =>
      updFab { s1 with arrNext := s1.arrNext + 1 } (fun f =>
        { f with retry := amSet f.retry st (amGet [] f.retry st ++
            [{ pkt := k, src := src, arr := s.wall, no := s.arrNext, sync := sync, gs := gs }]) })

/-- A sequence number stands before another. -/
def seqBefore (a b : BitVec 24) : Bool := decide (2 ^ 23 ≤ (a - b).toNat)

/-- A packet of a device was sent before another of it: in the order of their contexts and numbers, or of the operations of this
device itself (R349, R352). -/
def sentBefore (s : State) (a b : Pkt) : Bool :=
  if a.src = selfId s then decide ((pktOp a.body).getD 0 < (pktOp b.body).getD 0)
  else decide (a.ctx < b.ctx) || (decide (a.ctx = b.ctx) && seqBefore a.seq b.seq)

/-- An earlier access of a packet's device waits at a station for a translation: the packet waits behind it (R349). -/
def parkBlocks (s : State) (src : Nat) (b : Pkt) : Bool :=
  s.stations.any (fun p => p.2.parked.any (fun r => match r.who with
    | .remote d a => decide (d = src) && sentBefore s a b
    | _ => false))

/- The siding (R361, R362). -/

/-- The tablets and the siding limit of a store. -/
def pktTabs : PktBody → List (BitVec 32)
  | .rst _ _ _ _ _ t _ => t
  | _ => []
def pktExp : PktBody → Nat
  | .rst _ _ _ _ _ _ e => e
  | _ => 0

/-- The fabric address of a store at this device (R352). -/
def fabAddr (s : State) (k : Pkt) : W64 :=
  match pktAcc k.body with
  | some x => BitVec.ofNat 64 (selfId s * 2 ^ 56 + x.va)
  | none => 0

/-- A store that carries a dropped tablet, or waited too long, is discarded and EXPIRED is sent (R362). -/
def expireStore (s : State) (h : Held) (tab : BitVec 32) (reason : Nat) : State :=
  match pktAcc h.pkt.body with
  | some x => sendPkt (noteLost s h.src h.pkt) h.src (.expired x.op tab reason (fabAddr s h.pkt))
  | none => s

/-- The same granule is reached by both packets. -/
def sameGranule (a b : Pkt) : Bool :=
  match pktAcc a.body, pktAcc b.body with
  | some x, some y => rangesMeet (granFrom x.va) (granTo x.va x.n - granFrom x.va) (granFrom y.va) (granTo y.va y.n - granFrom y.va)
  | _, _ => false

/-- A packet waits behind a held store of its context, or behind one of before (R349, R361). -/
def behindHeld (s : State) (src : Nat) (before : List Held) (k : Pkt) : Bool :=
  (s.fabric.siding.filter (fun h => h.src == src)).any (fun h => sameGranule h.pkt k) || before.any (fun h => sameGranule h.pkt k)

/-- What becomes of a store that carries tablets: discarded (some reason), performed, or held. -/
inductive Carry where
  | perform
  | dropped (t : BitVec 32)
  | hold
  deriving DecidableEq, Repr

def carryOf (s : State) (k : Pkt) : Carry :=
  match (pktTabs k.body).find? (fun t => tabKnown s t == 2) with
  | some t => .dropped t
  | none => if (pktTabs k.body).all (fun t => tabKnown s t == 1) then .perform else .hold

/-- A held store asks the devices of its tablets, in case their CLEAR or DROP has left the cache (R361). -/
def askTabs (s : State) (k : Pkt) : State :=
  ((pktTabs k.body).filter (fun t => tabKnown s t == 0 && tabDev t != selfId s)).foldl
    (fun t x => sendPkt t (tabDev x) (.query x)) s

/-- Held stores whose tablets are all cleared are performed, and those with a dropped tablet discarded, in order of
arrival (R361, R362). Behind an earlier access of its device that waits for a translation a store stays (R349). -/
def sweepSiding : Nat → State → Nat → State
  | 0, s, _ => s
  | fuel + 1, s, i =>
    match s.fabric.siding[i]? with
    | none => s
    | some h =>
      let out := updFab s (fun f => { f with siding := dropAt f.siding i })
      match carryOf s h.pkt with
      | .perform => if parkBlocks s h.src h.pkt then sweepSiding fuel s (i + 1) else sweepSiding fuel (tellDone (doAccess out h.src h.pkt) h.src) i
      | .dropped t => sweepSiding fuel (tellDone (expireStore out h t 2) h.src) i
      | .hold => sweepSiding fuel s (i + 1)

/-- A store in order at this device is performed, discarded, or held. None: the siding is full (R361). -/
def takeStore (s : State) (h : Held) : Option State :=
  match carryOf s h.pkt with
  | .perform => some (doAccess s h.src h.pkt)
  | .dropped t => some (expireStore s h t 2)
  | .hold =>
    if s.fabric.siding.length < 1024 then
      some (askTabs (updFab s (fun f => { f with siding := f.siding ++ [h] })) h.pkt)
    else none

/-- The accesses of a context that were taken in and wait, behind a held store or behind one that waits for a translation, go on
as far as they may (R349, R361). -/
def sweepBehind (src : Nat) : Nat → State → Nat → State
  | 0, s, _ => s
  | fuel + 1, s, i =>
    let c := inOf s src
    match c.behind[i]? with
    | none => s
    | some h =>
      if parkBlocks s src h.pkt || behindHeld s src (c.behind.take i) h.pkt then sweepBehind src fuel s (i + 1)
      else
        match takeStore (putIn s { c with behind := dropAt c.behind i }) h with
        | some s1 => sweepBehind src fuel (tellDone s1 src) i
        | none => sweepBehind src fuel s (i + 1)

/-- After a tablet was cleared or dropped, or a place in the siding came free. -/
def sweepAll (s : State) : State :=
  let s1 := sweepSiding (2 * s.fabric.siding.length + 1) s 0
  s1.fabric.inn.foldl (fun t c => sweepBehind c.src (2 * c.behind.length + 1) t 0) s1

/-- A tablet is cleared or dropped here (R361, R362). -/
def settleTab (s : State) (t : BitVec 32) (cleared : Bool) : State := sweepAll (noteTab s t cleared)

/-- HOLD (R360): a device becomes a holder of a tablet. 0 landed, 1 recorded, 2 dead, 3 the entry has 8 other holders and the tablet must be asked about again. -/
def recordHolder (s : State) (d : Nat) (t : BitVec 32) : Nat × State :=
  match rackStatus s t with
  | 1 => (0, s)
  | 2 => (2, s)
  | _ =>
    let e := rackOf s (tabIdx t)
    if e.holders.contains d then (1, s)
    else if 8 ≤ e.holders.length then (3, s)
    else (1, setRack s (tabIdx t) { e with holders := e.holders ++ [d] })

/-- An acknowledged CLEAR: the entry becomes FREE with the last of them (R359). -/
def clearAcked (s : State) (src idx : Nat) : State :=
  let e := rackOf s idx
  if e.st = .landed then
    let acks := e.acks.filter (· != src)
    setRack s idx { e with acks := acks, st := if acks.isEmpty then .free else .landed }
  else s

/-- A cancel removes a waiting or held access unless it was performed; the issuer is told (R356, R374). -/
def cancelAccess (s : State) (src op : Nat) : State :=
  let mine := fun (d : Nat) (k : Pkt) => decide (d = src) && (match pktAcc k.body with | some x => x.op == op | none => false)
  let inRetry := s.fabric.retry.any (fun p => p.2.any (fun e => mine e.src e.pkt))
  let inSiding := s.fabric.siding.any (fun h => mine h.src h.pkt) || s.fabric.inn.any (fun c => c.behind.any (fun h => mine h.src h.pkt))
  let inPark := s.stations.any (fun p => p.2.parked.any (fun r => match r.who with | .remote d k => mine d k | _ => false))
  if inRetry || inSiding || inPark then
    let s1 := { s with
      fabric := { s.fabric with
        retry := s.fabric.retry.map (fun p => (p.1, p.2.filter (fun e => !mine e.src e.pkt))),
        siding := s.fabric.siding.filter (fun h => !mine h.src h.pkt),
        inn := s.fabric.inn.map (fun c => { c with behind := c.behind.filter (fun h => !mine h.src h.pkt) }),
        lost := (src, op) :: s.fabric.lost },
      stations := s.stations.map (fun p => (p.1, { p.2 with parked := p.2.parked.filter (fun r =>
        match r.who with | .remote d k => !mine d k | _ => true) })) }
    sendPkt (sweepAll s1) src (.reply op .canceled)
  else s

/-- The answer to a question about a tablet reaches the streams that wait for it (R360, R363). holder: the device that a HOLD
named. -/
def tabAnswer (s : State) (kind : RKind) (t : BitVec 32) (holder ans : Nat) : State :=
  (s.fabric.rops.filter (fun r => r.kind == kind && r.qtab == t && r.qdst == holder && !r.done)).foldl
    (fun x r => replyRop x r.id (.tablet ans)) s

/-- EXPIRED at the issuer (R362). -/
def expiredAt (s : State) (op : Nat) (tab : BitVec 32) (holder reason : Nat) (addr : W64) : State :=
  match findRop s op with
  | none => s
  | some r =>
    if r.done then s
    else
      raiseRop (updRop (killTablets s r) op (fun q => { q with done := true })) r 0x0501
        (leBytes 4 tab.toNat ++ leBytes 1 holder ++ leBytes 1 reason ++ leBytes 2 0 ++ leBytes 8 addr.toNat)

/-- A packet of a context is performed, in its turn. None: it cannot be taken yet. -/
def performPkt (s : State) (h : Held) : Option State :=
  match h.pkt.body with
  | .rld _ _ _ _ _ => some (doAccess s h.src h.pkt)
  | .atom _ _ _ _ => some (doAccess s h.src h.pkt)
  | .rst _ _ _ _ _ _ _ => takeStore s h
  | .ack q l => some (ackUpTo s h.src q l)
  | .reply op r => some (replyRop s op r)
  | .cancel op => some (cancelAccess s h.src op)
  | .hold t d => let r := recordHolder s d t; some (sendPkt r.2 h.src (.holdAns t d r.1))
  | .holdAns t d a => some (tabAnswer s .tab t d a)
  | .clear t => some (sendPkt (settleTab s t true) h.src (.clearAck t))
  | .clearAck t => some (clearAcked s h.src (tabIdx t))
  | .drop t => some (settleTab s t false)
  | .query t => some (sendPkt s h.src (.queryAns t (rackStatus s t)))
  | .queryAns t a =>
    some (tabAnswer (if a = 1 then settleTab s t true else if a = 2 then settleTab s t false else s) .query t 0 a)
  | .expired op t r a => some (expiredAt s op t h.src r a)
  | .close => some (putIn s { inOf s h.src with closed := some s.wall })

/-- A packet is an access, and waits behind a held store or behind one that waits for a translation. -/
def waitsBehind (s : State) (src : Nat) (k : Pkt) : Bool :=
  (pktAcc k.body).isSome && (parkBlocks s src k || behindHeld s src (inOf s src).behind k)

/-- The packets of a context's window that stand next in order are taken in (R349). -/
def drainIn (src : Nat) : Nat → State → State
  | 0, s => s
  | fuel + 1, s =>
    let c := inOf s src
    match c.window.findIdx? (fun h => h.pkt.seq == c.next) with
    | none => s
    | some i =>
      match c.window[i]? with
      | none => s
      | some h =>
        let c1 := { c with next := c.next + 1, window := dropAt c.window i }
        if waitsBehind s src h.pkt then drainIn src fuel (putIn s { c1 with behind := c1.behind ++ [h] })
        else
          match performPkt (putIn s c1) h with
          | some s1 => drainIn src fuel s1
          | none => putIn s { c with window := c1.window }

/-- A packet put in its place of a window, which is in sequence order. -/
def putWindow (next : BitVec 24) : List Held → Held → List Held
  | [], h => [h]
  | x :: t, h => if (h.pkt.seq - next).toNat < (x.pkt.seq - next).toNat then h :: x :: t else x :: putWindow next t h

/-- The context of a source that a packet belongs to, open: a later context of the source takes the place of an earlier one. What
was taken in of that one stays (R349). -/
def joinCtx (s : State) (k : Pkt) : RCtx :=
  let c := inOf s k.src
  if c.born < k.ctx then { src := k.src, born := k.ctx, behind := c.behind } else { c with closed := none }

/-- A packet arrives at this device (R349): duplicates are acknowledged again; packets and acknowledgements of an earlier context and
packets beyond the window are not taken. -/
def arrivePkt (s : State) (k : Pkt) : State :=
  match k.body with
  | .ack q l => if k.ctx < ((findOut s k.src).map (·.born)).getD 0 then s else ackUpTo s k.src q l
  | _ =>
    let c := joinCtx s k
    if k.ctx < c.born then s
    else if seqBefore k.seq c.next then sendAck s k.src (c.next - 1)
    else if 256 ≤ (k.seq - c.next).toNat ∨ c.window.any (fun h => h.pkt.seq == k.seq) then s
    else
      let s1 := drainIn k.src 300 (putIn s { c with window := putWindow c.next c.window { pkt := k, src := k.src, arr := s.wall } })
      let n := (inOf s1 k.src).next
      if n = c.next then s1 else sendAck s1 k.src (n - 1)

/-- A packet that the device sent itself arrives (R352): it counts as acknowledged once it was taken. -/
def arriveLoop (s : State) : State :=
  match s.fabric.loop with
  | [] => s
  | k :: t =>
    let me := selfId s
    let h : Held := { pkt := k, src := me, arr := s.wall }
    let s0 := updFab s (fun f => { f with loop := t, rops := f.rops.map (fun r =>
      if pktOp k.body = some r.id then { r with acked := true } else r) })
    if waitsBehind s0 me k then putIn s0 { inOf s0 me with behind := (inOf s0 me).behind ++ [h] }
    else (performPkt s0 h).getD s

end Sys2Proof.Machine
end

