-- ==== Sys2Proof/Machine/Scalar.lean ====
section
/-! DEFINITION. Scalar arithmetic, logic, bits, selection and addresses (R145 to R152, R159). -/

namespace Sys2Proof.Machine

/-- The width of a scalar operation (R145). -/
def aluWidth (w : Bool) : Nat := if w then 32 else 64

/-- The result written: modulo 2^N, sign-extended from bit N - 1 (R145, R150). -/
def aluOut (n : Nat) (r : Int) : W64 := sextTo64 n (modBits n r)

/-- Two sources, a result of N bits and the write of OPD (R146, R150). f takes N, ua and ub. -/
def aluTwo (zx : Bool) (w : Bool) (f : Nat → Nat → Nat → Int) (o : Ops) (s : State) : Body :=
  onReady o false s
    (let a := readSrcW o.a zx w s
     let b := readSrcW o.b zx w a.2
     let n := aluWidth w
     .fin (writeDst o.d (aluOut n (f n (a.1.toNat % 2 ^ n) (b.1.toNat % 2 ^ n))) b.2) none)

/-- One source (R152). -/
def aluOne (w : Bool) (f : Nat → Nat → Int) (o : Ops) (s : State) : Body :=
  onReady o false s
    (let a := readSrcW o.a false w s
     let n := aluWidth w
     .fin (writeDst o.d (aluOut n (f n (a.1.toNat % 2 ^ n))) a.2) none)

/-- What a body's completed state is changed by. -/
def Body.andThen (b : Body) (f : State → State) : Body :=
  match b with
  | .fin s npc => .fin (f s) npc
  | b => b

/-- The tag of the sum or difference of a tagged and an untagged value (R323): none when the form keeps no tag. -/
def sumTag (sub : Bool) (m : AluMod) (o : Ops) (s : State) : Option (Nat × W64) :=
  if m.w || m.sat then none
  else
    match tagOf s o.a, tagOf s o.b with
    | some (k, c), none => let b := (readSrc o.b (readSrc o.a s).2).1; some (k, if sub then c - b else c + b)
    | none, some (k, c) => if sub then none else some (k, c + (readSrc o.a s).1)
    | _, _ => none

/-- Where a result lands in a register its tag follows; every other use pins (R323). -/
def keepTag (t : Option (Nat × W64)) (o : Ops) (s0 s : State) : State :=
  match t, o.d with
  | some t, .s _ => setTag s o.d t
  | some _, .none => s
  | _, _ => pinOp s0 o.b (pinOp s0 o.a s)

def addR (m : AluMod) (n ua ub : Nat) : Int :=
  if m.sat = false then (ua + ub : Nat)
  else if m.sgn then clampInt (signedOf n ua + signedOf n ub) (-(2 ^ (n - 1) : Nat)) ((2 ^ (n - 1) : Nat) - 1)
  else clampInt (ua + ub : Nat) 0 ((2 ^ n : Nat) - 1)

def subR (m : AluMod) (n ua ub : Nat) : Int :=
  if m.sat = false then (ua : Int) - ub
  else if m.sgn then clampInt (signedOf n ua - signedOf n ub) (-(2 ^ (n - 1) : Nat)) ((2 ^ (n - 1) : Nat) - 1)
  else clampInt ((ua : Int) - ub) 0 ((2 ^ n : Nat) - 1)

def mulhR (m : AluMod) (n ua ub : Nat) : Int :=
  if m.sgn then (signedOf n ua * signedOf n ub) / (2 ^ n : Nat) else ((ua * ub / 2 ^ n : Nat) : Int)

/-- The signed division that overflows (R150). -/
def divOver (n ua ub : Nat) : Bool := decide (ua = 2 ^ (n - 1) ∧ ub = 2 ^ n - 1)

def divR (m : AluMod) (n ua ub : Nat) : Int :=
  if ub = 0 then (2 ^ n : Nat) - 1
  else if m.sgn ∧ divOver n ua ub then ua
  else if m.sgn then (signedOf n ua).tdiv (signedOf n ub)
  else (ua / ub : Nat)

def remR (m : AluMod) (n ua ub : Nat) : Int :=
  if ub = 0 then ua
  else if m.sgn ∧ divOver n ua ub then 0
  else if m.sgn then signedOf n ua - (signedOf n ua).tdiv (signedOf n ub) * signedOf n ub
  else (ua % ub : Nat)

/-- A rotation to the left (R150). -/
def rotl (n ua k : Nat) : Nat := (ua * 2 ^ k) % 2 ^ n ||| ua / 2 ^ (n - k)

def minR (m : AluMod) (n ua ub : Nat) : Int :=
  if m.sgn then min (signedOf n ua) (signedOf n ub) else (min ua ub : Nat)
def maxR (m : AluMod) (n ua ub : Nat) : Int :=
  if m.sgn then max (signedOf n ua) (signedOf n ub) else (max ua ub : Nat)

/-- The trailing zeros of a number below 2^n. -/
def ctzN : Nat → Nat → Nat
  | 0, _ => 0
  | n + 1, x => if x % 2 = 1 then 0 else 1 + ctzN n (x / 2)

/-- The one bits of a number below 2^n. -/
def popN : Nat → Nat → Nat
  | 0, _ => 0
  | n + 1, x => x % 2 + popN n (x / 2)

/-- The bits of a number below 2^n in reverse. -/
def revN : Nat → Nat → Nat
  | 0, _ => 0
  | n + 1, x => (x % 2) * 2 ^ n + revN n (x / 2)

/-- The bytes of a number of n bytes in reverse. -/
def swapN (n x : Nat) : Nat := leNat (leBytes n x).reverse

def absR (n ua : Nat) : Int := ((signedOf n ua).natAbs : Int)

/-- BFI (R152). -/
def bfiF (m : BitMod) (a b : Nat) : Nat :=
  let w := m.widm1.toNat + 1
  let p := m.pos.toNat
  b % 2 ^ p + (a % 2 ^ w) * 2 ^ p + b / 2 ^ (p + w) * 2 ^ (p + w)

/-- ADD (R150, R323). -/
def addBody (o : Ops) (m : AluMod) (_ : Phase) (s : State) : Body :=
  (aluTwo false m.w (addR m) o s).andThen (keepTag (sumTag false m o s) o s)
def execAdd (o : Ops) (m : AluMod) (s : State) : Host.Outcome State Fault Refusal :=
  issue (.add o m) o .both false (addBody o m) s

/-- SUB (R150, R323). -/
def subBody (o : Ops) (m : AluMod) (_ : Phase) (s : State) : Body :=
  (aluTwo false m.w (subR m) o s).andThen (keepTag (sumTag true m o s) o s)
def execSub (o : Ops) (m : AluMod) (s : State) : Host.Outcome State Fault Refusal :=
  issue (.sub o m) o .both false (subBody o m) s

/-- AND (R150). -/
def andBody (o : Ops) (m : AluMod) (_ : Phase) (s : State) : Body := aluTwo true m.w (fun _ a b => ((a &&& b : Nat) : Int)) o s
def execAnd (o : Ops) (m : AluMod) (s : State) : Host.Outcome State Fault Refusal :=
  issue (.and o m) o .both false (andBody o m) s

/-- OR (R150). -/
def orBody (o : Ops) (m : AluMod) (_ : Phase) (s : State) : Body := aluTwo true m.w (fun _ a b => ((a ||| b : Nat) : Int)) o s
def execOr (o : Ops) (m : AluMod) (s : State) : Host.Outcome State Fault Refusal :=
  issue (.or o m) o .both false (orBody o m) s

/-- XOR (R150). -/
def xorBody (o : Ops) (m : AluMod) (_ : Phase) (s : State) : Body := aluTwo true m.w (fun _ a b => ((a ^^^ b : Nat) : Int)) o s
def execXor (o : Ops) (m : AluMod) (s : State) : Host.Outcome State Fault Refusal :=
  issue (.xor o m) o .both false (xorBody o m) s

/-- ANDN (R150). -/
def andnBody (o : Ops) (m : AluMod) (_ : Phase) (s : State) : Body := aluTwo true m.w (fun n a b => ((a &&& (2 ^ n - 1 - b) : Nat) : Int)) o s
def execAndn (o : Ops) (m : AluMod) (s : State) : Host.Outcome State Fault Refusal :=
  issue (.andn o m) o .both false (andnBody o m) s

/-- MUL (R150). -/
def mulBody (o : Ops) (m : AluMod) (_ : Phase) (s : State) : Body := aluTwo false m.w (fun _ a b => ((a * b : Nat) : Int)) o s
def execMul (o : Ops) (m : AluMod) (s : State) : Host.Outcome State Fault Refusal :=
  issue (.mul o m) o .both false (mulBody o m) s

/-- MULH (R150). -/
def mulhBody (o : Ops) (m : AluMod) (_ : Phase) (s : State) : Body := aluTwo false m.w (mulhR m) o s
def execMulh (o : Ops) (m : AluMod) (s : State) : Host.Outcome State Fault Refusal :=
  issue (.mulh o m) o .both false (mulhBody o m) s

/-- DIV (R150). -/
def divBody (o : Ops) (m : AluMod) (_ : Phase) (s : State) : Body := aluTwo false m.w (divR m) o s
def execDiv (o : Ops) (m : AluMod) (s : State) : Host.Outcome State Fault Refusal :=
  issue (.div o m) o .both false (divBody o m) s

/-- REM (R150). -/
def remBody (o : Ops) (m : AluMod) (_ : Phase) (s : State) : Body := aluTwo false m.w (remR m) o s
def execRem (o : Ops) (m : AluMod) (s : State) : Host.Outcome State Fault Refusal :=
  issue (.rem o m) o .both false (remBody o m) s

/-- SHL (R150). -/
def shlBody (o : Ops) (m : AluMod) (_ : Phase) (s : State) : Body := aluTwo false m.w (fun n a b => ((a * 2 ^ (b % n) : Nat) : Int)) o s
def execShl (o : Ops) (m : AluMod) (s : State) : Host.Outcome State Fault Refusal :=
  issue (.shl o m) o .both false (shlBody o m) s

/-- SHR (R150). -/
def shrBody (o : Ops) (m : AluMod) (_ : Phase) (s : State) : Body := aluTwo false m.w (fun n a b => ((a / 2 ^ (b % n) : Nat) : Int)) o s
def execShr (o : Ops) (m : AluMod) (s : State) : Host.Outcome State Fault Refusal :=
  issue (.shr o m) o .both false (shrBody o m) s

/-- SAR (R150). -/
def sarBody (o : Ops) (m : AluMod) (_ : Phase) (s : State) : Body := aluTwo false m.w (fun n a b => signedOf n a / (2 ^ (b % n) : Nat)) o s
def execSar (o : Ops) (m : AluMod) (s : State) : Host.Outcome State Fault Refusal :=
  issue (.sar o m) o .both false (sarBody o m) s

/-- ROT (R150). -/
def rotBody (o : Ops) (m : AluMod) (_ : Phase) (s : State) : Body := aluTwo false m.w (fun n a b => ((rotl n a (b % n) : Nat) : Int)) o s
def execRot (o : Ops) (m : AluMod) (s : State) : Host.Outcome State Fault Refusal :=
  issue (.rot o m) o .both false (rotBody o m) s

/-- MIN (R150). -/
def minBody (o : Ops) (m : AluMod) (_ : Phase) (s : State) : Body := aluTwo false m.w (minR m) o s
def execMin (o : Ops) (m : AluMod) (s : State) : Host.Outcome State Fault Refusal :=
  issue (.min o m) o .both false (minBody o m) s

/-- MAX (R150). -/
def maxBody (o : Ops) (m : AluMod) (_ : Phase) (s : State) : Body := aluTwo false m.w (maxR m) o s
def execMax (o : Ops) (m : AluMod) (s : State) : Host.Outcome State Fault Refusal :=
  issue (.max o m) o .both false (maxBody o m) s

/-- CLZ (R152). -/
def clzBody (o : Ops) (m : AluMod) (_ : Phase) (s : State) : Body := aluOne m.w (fun n a => ((n - bitLen a : Nat) : Int)) o s
def execClz (o : Ops) (m : AluMod) (s : State) : Host.Outcome State Fault Refusal :=
  issue (.clz o m) o .both false (clzBody o m) s

/-- CTZ (R152). -/
def ctzBody (o : Ops) (m : AluMod) (_ : Phase) (s : State) : Body := aluOne m.w (fun n a => ((ctzN n a : Nat) : Int)) o s
def execCtz (o : Ops) (m : AluMod) (s : State) : Host.Outcome State Fault Refusal :=
  issue (.ctz o m) o .both false (ctzBody o m) s

/-- POPC (R152). -/
def popcBody (o : Ops) (m : AluMod) (_ : Phase) (s : State) : Body := aluOne m.w (fun n a => ((popN n a : Nat) : Int)) o s
def execPopc (o : Ops) (m : AluMod) (s : State) : Host.Outcome State Fault Refusal :=
  issue (.popc o m) o .both false (popcBody o m) s

/-- ABS (R152). -/
def absBody (o : Ops) (m : AluMod) (_ : Phase) (s : State) : Body := aluOne m.w (absR) o s
def execAbs (o : Ops) (m : AluMod) (s : State) : Host.Outcome State Fault Refusal :=
  issue (.abs o m) o .both false (absBody o m) s

/-- BREV (R152). -/
def brevBody (o : Ops) (m : AluMod) (_ : Phase) (s : State) : Body := aluOne m.w (fun n a => ((revN n a : Nat) : Int)) o s
def execBrev (o : Ops) (m : AluMod) (s : State) : Host.Outcome State Fault Refusal :=
  issue (.brev o m) o .both false (brevBody o m) s

/-- BSWAP (R152). -/
def bswapBody (o : Ops) (m : AluMod) (_ : Phase) (s : State) : Body := aluOne m.w (fun n a => ((swapN (n / 8) a : Nat) : Int)) o s
def execBswap (o : Ops) (m : AluMod) (s : State) : Host.Outcome State Fault Refusal :=
  issue (.bswap o m) o .both false (bswapBody o m) s

/-- BFX (R152). -/
def bfxBody (o : Ops) (m : BitMod) (_ : Phase) (s : State) : Body :=
  aluOne false (fun _ a => ((fieldAt a m.pos.toNat (m.widm1.toNat + 1) : Nat) : Int)) o s
def execBfx (o : Ops) (m : BitMod) (s : State) : Host.Outcome State Fault Refusal :=
  issue (.bfx o m) o .both false (bfxBody o m) s

/-- BFI (R152). -/
def bfiBody (o : Ops) (m : BitMod) (_ : Phase) (s : State) : Body :=
  aluTwo false false (fun _ a b => ((bfiF m a b : Nat) : Int)) o s
def execBfi (o : Ops) (m : BitMod) (s : State) : Host.Outcome State Fault Refusal :=
  issue (.bfi o m) o .both false (bfiBody o m) s

/-- SEXT (R152). -/
def sextBody (o : Ops) (m : SwidMod) (_ : Phase) (s : State) : Body :=
  aluOne false (fun _ a => signedOf (8 * 2 ^ m.swid.toNat) a) o s
def execSext (o : Ops) (m : SwidMod) (s : State) : Host.Outcome State Fault Refusal :=
  issue (.sext o m) o .both false (sextBody o m) s

/-- ZEXT (R152). -/
def zextBody (o : Ops) (m : SwidMod) (_ : Phase) (s : State) : Body :=
  aluOne false (fun _ a => ((a % 2 ^ (8 * 2 ^ m.swid.toNat) : Nat) : Int)) o s
def execZext (o : Ops) (m : SwidMod) (s : State) : Host.Outcome State Fault Refusal :=
  issue (.zext o m) o .both false (zextBody o m) s

/-- MOV (R152, R323). -/
def movBody (o : Ops) (_ : Phase) (s : State) : Body :=
  (aluOne false (fun _ a => (a : Int)) o s).andThen (keepTag (tagOf s o.a) o s)
def execMov (o : Ops) (s : State) : Host.Outcome State Fault Refusal :=
  issue (.mov o) o .both false (movBody o) s

/-- SEL (R152): the condition is the old value of OPD. -/
def selBody (o : Ops) (_ : Phase) (s : State) : Body :=
  onReady o false s
    (let c := (readSrc o.d s).1
     let a := readSrc o.a s
     let b := readSrc o.b a.2
     .fin (pinOp s o.d (writeDst o.d (if c ≠ 0 then a.1 else b.1) b.2)) none)
def execSel (o : Ops) (s : State) : Host.Outcome State Fault Refusal :=
  issue (.sel o) o .both false (selBody o) s

/-- LEA (R152). -/
def leaBody (o : Ops) (m : ScaleMod) (_ : Phase) (s : State) : Body :=
  aluTwo false false (fun _ a b => ((a + b * 2 ^ m.scale.toNat : Nat) : Int)) o s
def execLea (o : Ops) (m : ScaleMod) (s : State) : Host.Outcome State Fault Refusal :=
  issue (.lea o m) o .both false (leaBody o m) s

end Sys2Proof.Machine
end

