-- ==== Sys2Proof/Machine/Compare.lean ====
section
/-! DEFINITION. Compare and predicate instructions (R157, R158). -/

namespace Sys2Proof.Machine

/-- COMB (R158). -/
def combine (c : Comb) (old t : Bool) : Bool :=
  match c with
  | .set => t
  | .and => old && t
  | .or => old || t

/-- REL of two values of N bits (R158). -/
def relOfN (r : Rel) (sgn : Bool) (n x y : Nat) : Bool :=
  relInt r (if sgn then signedOf n x else (x % 2 ^ n : Nat)) (if sgn then signedOf n y else (y % 2 ^ n : Nat))

/-- Two sources compared and the write of k[OPD] (R158). -/
def compareTwo (zx : Bool) (f : Nat → Nat → Nat → Bool) (o : Ops) (m : CmpMod) (s : State) : Body :=
  onReady o false s
    (let a := readSrcW o.a zx m.w s
     let b := readSrcW o.b zx m.w a.2
     let n := aluWidth m.w
     .fin (writePred o.d (combine m.comb (readPred o.d s) (f n (a.1.toNat % 2 ^ n) (b.1.toNat % 2 ^ n))) b.2) none)

/-- A constraint joins the region (R323). -/
def addCon (s : State) (x : Con) : State :=
  updCurCore s (fun c => { c with region := c.region.map (fun r => { r with cons := r.cons ++ [x] }) })

/-- CMP of a tagged value against an untagged one records a constraint; of two tagged values it pins both (R323). -/
def noteCmp (o : Ops) (m : CmpMod) (s0 s : State) : State :=
  let a := readSrcW o.a false m.w s0
  let b := readSrcW o.b false m.w a.2
  let n := aluWidth m.w
  let out := relOfN m.rel m.sgn n a.1.toNat b.1.toNat
  match tagOf s0 o.a, tagOf s0 o.b with
  | some (k, c), none => addCon s { slot := k, c := c, left := true, rel := m.rel, sgn := m.sgn, w := m.w, b := b.1, out := out }
  | none, some (k, c) => addCon s { slot := k, c := c, left := false, rel := m.rel, sgn := m.sgn, w := m.w, b := a.1, out := out }
  | some (j, _), some (k, _) => pinSlot (pinSlot s j) k
  | none, none => s

/-- CMP would record a seventeenth constraint (R324). -/
def cmpOverflow (o : Ops) (s : State) : Bool :=
  match (curCore s).region with
  | some r => decide (16 ≤ r.cons.length) && ((tagOf s o.a).isSome != (tagOf s o.b).isSome)
  | none => false

/-- The region of the stream that issues overflows its limits (R327, R332): nothing of it is kept, and its stream waits
until the region runs again. -/
def overflowRegion (s : State) : State :=
  updCurCore s (fun c => { c with region := c.region.map (fun r =>
    { r with reads := [], stores := [], slots := [], cons := [], held := [], tags := [], overflow := true }) })

/-- The overflow of an ordered task aborts it, and its next run is irrevocable (R332). -/
def overflowOrdered (s : State) : State :=
  let b := curBerth s
  abortRun (updGraph s b.gid (fun g => setOrd g b.task (fun x => { x with irrev := true }))) b.gid b.task

/-- A capacity overflow of the stream that issues (R327, R332). -/
def overflowBody (s : State) : Body :=
  match (curCore s).region with
  | some r => if r.implicit then .ended (overflowOrdered s) else .hold (overflowRegion s) .commit 0
  | none => .hold s .commit 0

def cmpBody (o : Ops) (m : CmpMod) (_ : Phase) (s : State) : Body :=
  if (queueWait o false s).isNone && cmpOverflow o s then overflowBody s
  else (compareTwo false (fun n x y => relOfN m.rel m.sgn n x y) o m s).andThen (noteCmp o m s)
def execCmp (o : Ops) (m : CmpMod) (s : State) : Host.Outcome State Fault Refusal :=
  issue (.cmp o m) o .both false (cmpBody o m) s

def tstBody (o : Ops) (m : CmpMod) (_ : Phase) (s : State) : Body :=
  compareTwo true (fun _ x y => decide (x &&& y = 0) == decide (m.rel = .eq)) o m s
def execTst (o : Ops) (m : CmpMod) (s : State) : Host.Outcome State Fault Refusal :=
  issue (.tst o m) o .both false (tstBody o m) s

def pandBody (o : Ops) (_ : Phase) (s : State) : Body := .fin (writePred o.d (readPred o.a s && readPred o.b s) s) none
def execPand (o : Ops) (s : State) : Host.Outcome State Fault Refusal := issue (.pand o) o .both false (pandBody o) s

def porBody (o : Ops) (_ : Phase) (s : State) : Body := .fin (writePred o.d (readPred o.a s || readPred o.b s) s) none
def execPor (o : Ops) (s : State) : Host.Outcome State Fault Refusal := issue (.por o) o .both false (porBody o) s

def pxorBody (o : Ops) (_ : Phase) (s : State) : Body :=
  .fin (writePred o.d (Bool.xor (readPred o.a s) (readPred o.b s)) s) none
def execPxor (o : Ops) (s : State) : Host.Outcome State Fault Refusal := issue (.pxor o) o .both false (pxorBody o) s

def pnotBody (o : Ops) (_ : Phase) (s : State) : Body := .fin (writePred o.d (!readPred o.a s) s) none
def execPnot (o : Ops) (s : State) : Host.Outcome State Fault Refusal := issue (.pnot o) o .both false (pnotBody o) s

def pmovBody (o : Ops) (_ : Phase) (s : State) : Body := .fin (writePred o.d (readPred o.a s) s) none
def execPmov (o : Ops) (s : State) : Host.Outcome State Fault Refusal := issue (.pmov o) o .both false (pmovBody o) s

/-- PTOS waits for room in a queue it writes (R75). -/
def ptosBody (o : Ops) (_ : Phase) (s : State) : Body :=
  onReady o false s (.fin (writeDst o.d (if readPred o.a s then 1 else 0) s) none)
def execPtos (o : Ops) (s : State) : Host.Outcome State Fault Refusal := issue (.ptos o) o .both false (ptosBody o) s

end Sys2Proof.Machine
end

