-- ==== Sys2Proof/Machine/Region.lean ====
section
/-! DEFINITION. Region accesses and the validation of a region (R322 to R325, R331). -/

namespace Sys2Proof.Machine

/-- The key of an ordered task is below another's (R329). -/
def keyBelow (a b : OTask) (ia ib : Nat) : Bool := decide (a.ts < b.ts ∨ (a.ts = b.ts ∧ ia < ib))

/-- The byte that a region's buffered stores give an address, if any; the last store wins. -/
def storedByte (r : Region) (a : Nat) : Option Byte :=
  r.stores.foldl (fun v x => if x.addr ≤ a ∧ a < x.addr + x.bytes.length then x.bytes[a - x.addr]? else v) none

/-- The byte an uncommitted ordered task of lower key has stored, from the highest such key, with that task's spawn index and
the number of its run (R331). -/
def forwarded (s : State) (gid spawn a : Nat) : Option (Byte × Nat × Nat) :=
  let g := graphOf s gid
  match g.ords[spawn]? with
  | none => none
  | some me =>
    ((List.range g.ords.length).foldl (fun (best : Option (OTask × Nat × Byte)) i =>
      match g.ords[i]?, (ordRegion s gid i).bind (fun r => storedByte r a) with
      | some o, some v =>
        if i ≠ spawn ∧ keyBelow o me i spawn then
          match best with
          | some (bo, bi, bv) => if keyBelow bo o bi i then some (o, i, v) else some (bo, bi, bv)
          | none => some (o, i, v)
        else best
      | _, _ => best) none).map (fun x => (x.2.2, x.2.1, x.1.runs))

/-- The byte a region load reads where none of its own stores covers it, and the run that forwarded it (R322, R331). -/
def regionByte (s : State) (r : Region) (a : Nat) : Byte × Option (Nat × Nat) :=
  let b := curBerth s
  match (if r.implicit then forwarded s b.gid b.task a else none) with
  | some (v, run) => (v, some run)
  | none => (rdByte s.mem a, none)

/-- The addresses of pieces, byte by byte. -/
def pieceAddrs (ps : List (Nat × Nat)) : List Nat := ps.flatMap (fun p => (List.range p.2).map (· + p.1))

/-- The number of granules among addresses. -/
def granCount (l : List Nat) : Nat := (l.map (· / 16)).eraseDups.length

/-- The buffered stores that overlap addresses. -/
def overlapping (r : Region) (addrs : List Nat) : List RStore :=
  r.stores.filter (fun x => addrs.any (fun a => decide (x.addr ≤ a ∧ a < x.addr + x.bytes.length)))

/-- The store of a region whose bytes a load covers exactly, when it is the last that touches them (R322). -/
def exactStore (r : Region) (addrs : List Nat) : Option RStore :=
  match (overlapping r addrs).getLast? with
  | some x => if addrs.head? = some x.addr ∧ addrs.length = x.bytes.length then some x else none
  | none => none

/-- The slots of the symbolic addresses and of the symbolic data of the stores that overlap addresses (R322, R323). -/
def addrSlots (r : Region) (addrs : List Nat) : List Nat := (overlapping r addrs).filterMap (fun x => x.saddr.map (·.1))
def dataSlots (r : Region) (addrs : List Nat) : List Nat := (overlapping r addrs).filterMap (fun x => x.sdata.map (·.1))

/-- Load slots are pinned (R323). -/
def pinSlots (r : Region) (l : List Nat) : Region :=
  { r with slots := l.foldl (fun t k => updAt t k (fun z => { z with pinned := true })) r.slots }

def setRegion (s : State) (r : Region) : State := updCurCore s (fun c => { c with region := some r })

/-- What a region load gives (R322, R323). -/
structure RegLoad where
  bytes : List Byte
  r : Region
  tag : Option (Nat × W64)

/-- A region load of pieces. slotted: it allocates a load slot, or takes the tag of the symbolic store whose bytes it covers. None: a capacity overflow (R324). -/
def regionLoad (s : State) (r : Region) (ps : List (Nat × Nat)) (slotted sx : Bool) : Option RegLoad :=
  let addrs := pieceAddrs ps
  let own := addrs.map (storedByte r)
  let bytes := (addrs.zip own).map (fun p => p.2.getD (regionByte s r p.1).1)
  let fresh := (addrs.zip own).filterMap (fun p => if p.2.isNone then some p.1 else none)
  let exact : Option (Nat × W64) := if slotted then (exactStore r addrs).bind (·.sdata) else none
  match exact with
  | some t => some { bytes := bytes, r := pinSlots r (addrSlots r addrs ++ (dataSlots r addrs).filter (· != t.1)), tag := some t }
  | none =>
    let r1 := pinSlots r (addrSlots r addrs ++ dataSlots r addrs)
    let k := r1.slots.length
    let v : W64 := if sx then sextTo64 (8 * bytes.length) (leNat bytes) else leW64 bytes
    let reads := r1.reads ++ fresh.map (fun a =>
      let v := regionByte s r a
      { addr := a, val := v.1, slot := if slotted then some k else none, fwd := v.2 })
    if 64 < granCount (reads.map (·.addr)) ∨ (slotted = true ∧ 16 ≤ k) then none
    else some
      { bytes := bytes
        r := { r1 with reads := reads, slots := if slotted then r1.slots ++ [{ addr := addrs.headD 0, size := bytes.length, sx := sx, val := v }] else r1.slots }
        tag := if slotted then some (k, 0) else none }

/-- A region with buffered stores joined to it; none: a capacity overflow (R324). -/
def regionStore (r : Region) (xs : List RStore) : Option Region :=
  let stores := r.stores ++ xs
  let sym := stores.filter (fun x => x.sdata.isSome || x.saddr.isSome)
  let plain := stores.filter (fun x => x.sdata.isNone && x.saddr.isNone)
  if 32 < sym.length ∨ 64 < granCount (plain.flatMap (fun x => (List.range x.bytes.length).map (· + x.addr))) then none
  else some { r with stores := stores }

/-- The slice that owns a granule (R325). -/
def sliceOf (flat : Nat) : Nat := (fieldAt flat 4 4) ^^^ (fieldAt flat 8 4) ^^^ (fieldAt flat 12 4) ^^^ (fieldAt flat 16 4)

/-- fresh(s) of a slot (R325): the bytes that were read in memory as they stand now, and those that a store of the region gave as
the load saw them. -/
def freshOf (s : State) (r : Region) (k : Nat) : W64 :=
  match r.slots[k]? with
  | none => 0
  | some x =>
    let seen := w64Bytes x.size x.val
    let bs := (List.range x.size).map (fun i =>
      if r.reads.any (fun b => decide (b.slot = some k ∧ b.addr = x.addr + i)) then rdByte s.mem (x.addr + i) else seen.getD i 0)
    if x.sx then sextTo64 (8 * x.size) (leNat bs) else leW64 bs

/-- The registers of a region that commits hold fresh(s) + c of their tags (R323). -/
def repairTags (s : State) (r : Region) : State :=
  updCur s (fun x => { x with s := Vector.ofFn (fun n => match amFind r.tags n.val with
    | some p => freshOf s r p.1 + p.2
    | none => x.s[n]) })

/-- A constraint holds with the value of its slot (R323, R325). -/
def conHolds (s : State) (r : Region) (c : Con) : Bool :=
  let v := freshOf s r c.slot + c.c
  let n := aluWidth c.w
  let out := if c.left then relOfN c.rel c.sgn n (v.toNat % 2 ^ n) (c.b.toNat % 2 ^ n)
    else relOfN c.rel c.sgn n (c.b.toNat % 2 ^ n) (v.toNat % 2 ^ n)
  out == c.out

/-- The region or pieces at which a recomputed store lands: none where R325 aborts with ADDRESS. -/
def movedAddr (s : State) (c : Nat) (b : Berth) (r : Region) (i : Nat) (others : List RStore) (x : RStore) (va : W64) :
    Option Nat :=
  let n := x.bytes.length
  let g := graphOf s b.gid
  let inExt := match x.ext with
    | some (lo, len) => rangeIn va.toNat n lo len
    | none => true
  let inAtomic := g.ilock.any (fun l => decide (l.mode = 2 ∧ l.space = spaceCode x.space) && rangeIn va.toNat n l.base l.len)
  if va.toNat % n ≠ 0 ∨ inExt = false ∨ inAtomic = false then none
  else
    let flat : Option Nat :=
      match x.space with
      | .vlt => some (vaultAddr (va.toNat / 2 ^ 23) (va.toNat % 2 ^ 23))
      | .glb =>
        match translate s (stationNo c) b.pasid (va.toNat % 2 ^ 48) { wr := true, kind := 1 } with
        | .ok (tier, p) => if tier < 2 ∧ va.toNat < 2 ^ 48 then some (tierFlat tier p) else none
        | .error _ => none
      | _ => none
    match flat with
    | none => none
    | some f =>
      let held := (r.reads.map (fun z => sliceOf z.addr)) ++ r.stores.flatMap (fun z => (granules [(z.addr, z.bytes.length)]).map (fun q => sliceOf (16 * q)))
      let meets := r.reads.any (fun z => decide (f ≤ z.addr ∧ z.addr < f + n))
        || (others.zip (List.range others.length)).any (fun z => decide (z.2 ≠ i) && rangesMeet z.1.addr z.1.bytes.length f n)
      if held.contains (sliceOf f) = false ∨ meets then none else some f

/-- The stores of a region as its commit writes them (R325): none where one aborts with ADDRESS. -/
def repairStores (s : State) (c : Nat) (b : Berth) (r : Region) : List RStore → Nat → List RStore → Option (List RStore)
  | [], _, done => some done
  | x :: t, i, done =>
    let x1 := match x.sdata with
      | some (k, cc) => { x with bytes := w64Bytes x.bytes.length (freshOf s r k + cc) }
      | none => x
    match x.saddr with
    | none => repairStores s c b r t (i + 1) (done ++ [x1])
    | some (k, cc) =>
      let va := x.base + (freshOf s r k + cc) * BitVec.ofNat 64 x.scale
      if va = x.va then repairStores s c b r t (i + 1) (done ++ [x1])
      else
        match movedAddr s c b r i (done ++ x :: t) x1 va with
        | some f => repairStores s c b r t (i + 1) (done ++ [{ x1 with addr := f, va := va }])
        | none => none

/-- The verdict of the signal box on a region (R325): the stores to write, or the cause of the abort. -/
def validate (s : State) (c : Nat) (b : Berth) (r : Region) : Except Nat (List RStore) :=
  let changed := r.reads.filter (fun x => rdByte s.mem x.addr != x.val)
  let broken := changed.any (fun x => match x.slot with
    | none => true
    | some k => (match r.slots[k]? with | some z => z.pinned | none => true))
  if broken then .error 1
  else if r.cons.any (fun z => !conHolds s r z) then .error 2
  else
    match repairStores s c b r r.stores 0 [] with
    | none => .error 3
    | some l => .ok l

end Sys2Proof.Machine
end

