-- ==== Sys2Proof/Machine/Time.lean ====
section
/-! DEFINITION. The time group (R143, R144): waits, time stamps and deadline slots. -/

namespace Sys2Proof.Machine

/-- WAITC (R144): the stream waits until n cyc have passed since its issue. -/
def waitcBody (o : Ops) (_ : Phase) (s : State) : Body :=
  onReady o false s
    (let r := readSrc o.a s
     if r.1.toNat ≤ cycOf s s.cur.1 - (waitStart s).1 then .fin r.2 none else .hold s .count 0)
def execWaitc (o : Ops) (s : State) : Host.Outcome State Fault Refusal := issue (.waitc o) o .both false (waitcBody o) s

/-- WAITW (R144): the stream waits until n ns have passed since its issue. -/
def waitwBody (o : Ops) (_ : Phase) (s : State) : Body :=
  onReady o false s
    (let r := readSrc o.a s
     if r.1.toNat ≤ edgeOf s s.cur.1 - (waitStart s).2 then .fin r.2 none else .hold s .count 0)
def execWaitw (o : Ops) (s : State) : Host.Outcome State Fault Refusal := issue (.waitw o) o .both false (waitwBody o) s

/-- A pair of registers s[n], s[n + 1] written (R144). -/
def writePair (op : Operand) (v w : W64) (s : State) : State :=
  match op with
  | .s n => writeS (writeS s n v) (n + 1) w
  | _ => s

/-- RDTS (R144): CYC and WALL of one cyc edge. -/
def rdtsBody (o : Ops) (_ : Phase) (s : State) : Body :=
  .fin (writePair o.d (BitVec.ofNat 64 (cycOf s s.cur.1)) (BitVec.ofNat 64 (edgeOf s s.cur.1)) s) none
def execRdts (o : Ops) (s : State) : Host.Outcome State Fault Refusal := issue (.rdts o) o .both false (rdtsBody o) s

/-- A deadline slot from its fields (R131). -/
def dlWord (target : Nat) (seen base fired armed : Bool) : W64 :=
  BitVec.ofNat 64 (target % 2 ^ 60 + bitNat seen * 2 ^ 60 + bitNat base * 2 ^ 61 + bitNat fired * 2 ^ 62
    + bitNat armed * 2 ^ 63)

def dlTarget (v : W64) : Nat := fieldAt v.toNat 0 60
def dlBase (v : W64) : Bool := v.getLsbD 61

/-- DLSET (R144). -/
def dlsetBody (o : Ops) (m : SlotMod) (_ : Phase) (s : State) : Body :=
  onReady o false s
    (let r := readSrc o.a s
     let n := r.1.toNat
     let t := if m.base = false then cycOf s s.cur.1 + n else if m.abs = false then s.wall + n else n
     .fin (updCurCore r.2 (fun k => dlWrite k m.slot (dlWord (min t (2 ^ 60 - 1)) false m.base false true))) none)
def execDlset (o : Ops) (m : SlotMod) (s : State) : Host.Outcome State Fault Refusal :=
  issue (.dlset o m) o .both false (dlsetBody o m) s

/-- DLTEST (R144): the fired state is observed. -/
def dltestBody (_o : Ops) (m : TestMod) (_ : Phase) (s : State) : Body :=
  let v := dlGet (curCore s) m.slot
  let f := dlArmed v && dlFired v
  let s1 := if f then updCurCore s (fun k => dlSet k m.slot (dlWord (dlTarget v) true (dlBase v) true true)) else s
  .fin (writeK s1 m.pred f) none
def execDltest (o : Ops) (m : TestMod) (s : State) : Host.Outcome State Fault Refusal :=
  issue (.dltest o m) o .both false (dltestBody o m) s

/-- The slots of a mask that are armed, and among them those that have fired. -/
def dlOf (c : Core) (m : Nat) : List (BitVec 2) :=
  ([0, 1, 2, 3] : List (BitVec 2)).filter (fun i => bitAt m i.toNat && dlArmed (dlGet c i))
def dlHit (c : Core) (m : Nat) : List (BitVec 2) := (dlOf c m).filter (fun i => dlFired (dlGet c i))

/-- The slot that fired earliest, the lowest number on a tie (R144). -/
def dlFirst (c : Core) : List (BitVec 2) → Option (BitVec 2)
  | [] => none
  | i :: t => match dlFirst c t with
    | none => some i
    | some j => if dlAtGet c i ≤ dlAtGet c j then some i else some j

/-- The execute stream waits at a DLWAIT that takes a slot: the pilot's leaves it that slot (R131). -/
def exTakes (s : State) (j : BitVec 2) : Bool :=
  let k := curCore s
  match k.ex.wait with
  | some w =>
    (match w.instr with
     | .dlwait o _ =>
       !k.sup && decide (w.why = .timed
         ∧ dlFirst k (dlHit k ((readSrc o.a { s with cur := (s.cur.1, false) }).1.toNat % 16)) = some j)
     | _ => false)
  | none => false

/-- DLWAIT (R144, R131). -/
def dlwaitBody (o : Ops) (m : Trio) (ph : Phase) (s : State) : Body :=
  onReady o false s
    (let r := readSrc o.a s
     let mask := r.1.toNat % 16
     let k := curCore s
     let left := s.cur.2 && (match dlFirst k (dlHit k mask) with | some j => exTakes s j | none => false)
     timedWait ph ((!(dlHit k mask).isEmpty || (dlOf k mask).isEmpty) && !left) m 0x0208 0 s id
       (let s1 := trioPred m true r.2
        match dlFirst k (dlHit k mask) with
        | none => .fin (writeDst o.d (BitVec.allOnes 64) s1) none
        | some j =>
          let v := dlGet k j
          .fin (writeDst o.d (BitVec.ofNat 64 j.toNat)
            (updCurCore s1 (fun x => dlSet x j (dlWord (dlTarget v) true (dlBase v) true false)))) none))
def execDlwait (o : Ops) (m : Trio) (s : State) : Host.Outcome State Fault Refusal :=
  issue (.dlwait o m) o .both false (dlwaitBody o m) s

end Sys2Proof.Machine
end

