-- ==== Sys2Proof/Machine/Messages.lean ====
section
/-! DEFINITION. Messages: sending, transit, arrival, channels, parks and delivery windows (R10 to R12, R55, R113, R116,
R203, R204, R304, R305). -/

namespace Sys2Proof.Machine

/-- The handler entry of a message's index (R11, R12): it has V = 1 and its CHM bit for the channel. -/
def handlerOf (b : Berth) (m : Msg) : W64 := b.handlers.getD (tagHidx m.route) 0
def findsHandler (b : Berth) (m : Msg) : Bool :=
  (handlerOf b m).getLsbD 63 && bitAt (fieldAt (handlerOf b m).toNat 54 8) (tagChan m.route).toNat

/-- The live berth of a logical core: core and berth (R51). -/
def liveAt (s : State) (gid lcore : Nat) : Option (Nat × BitVec 2) :=
  (amFind (graphOf s gid).remap lcore).map (fun p => (p.2, BitVec.ofNat 2 p.1))

/-- A task of the logical core is being moved, or is saved and awaits its restore (R55). -/
def movingAt (s : State) (gid lcore : Nat) : Bool :=
  (graphOf s gid).tasks.any (fun t => decide (t.lcore = lcore ∧ t.st = .saved))
    || (berthsOf s gid).any (fun p =>
        let k := berthAt (coreOf s p.1) p.2
        decide (k.lcore.toNat = lcore) && (match k.stopFor with
          | some .preempt | some (.migrate _) => decide (k.state = .stopping)
          | _ => k.restore.isSome && decide (k.state = .loading)))

/-- The sender set of a channel of a task (R37). -/
def senderSet (g : Graph) (task : Nat) (c : BitVec 3) : Option (List Nat) :=
  (g.senders.find? (fun x => decide (x.task = task ∧ x.chan = c))).map (·.set)

/-- A message takes part in delivery windows at a berth (R304). START never does. -/
def inWindow (s : State) (k : Berth) (c : BitVec 3) (m : Msg) : Bool :=
  k.det && decide (m.sender ≠ 0xFFFF) && (senderSet (graphOf s k.gid) k.task c).isSome

/-- Messages of a logical core in transit, and those held for it (R55, R204, R304). -/
def transitTo (s : State) (gid lcore : Nat) : List Msg :=
  s.transit.filter (fun m => decide (m.gid = gid ∧ tagDest m.route = lcore))
def comingTo (s : State) (gid lcore : Nat) : List Msg :=
  transitTo s gid lcore ++ s.heldMsgs.filter (fun m => decide (m.gid = gid ∧ tagDest m.route = lcore))

/-- Slots of a channel of a berth that messages on their way have reserved; one that is held keeps its slot (R55, R204). -/
def reserved (s : State) (k : Berth) (ch : BitVec 3) : Nat :=
  ((comingTo s k.gid k.lcore.toNat).filter (fun x => x.slot && decide (tagChan x.route = ch) && !inWindow s k ch x)).length

/-- A channel of a berth has a slot that no message on its way has reserved (R116, R204). -/
def chanFree (s : State) (k : Berth) (ch : BitVec 3) : Bool := decide ((chanGet k ch).length + reserved s k ch < 8)

/-- The window store of a berth has a place that no message on its way has reserved (R304). -/
def storeFree (s : State) (k : Berth) : Bool :=
  decide (k.winStore.length
    + ((comingTo s k.gid k.lcore.toNat).filter (fun x => x.slot && inWindow s k (tagChan x.route) x)).length < 64)

/-- The destination has a slot for a message: a channel slot, or a place in the window store (R204, R304). A message whose
DEST is not live does not wait. -/
def hasSlot (s : State) (m : Msg) : Bool :=
  match liveAt s m.gid (tagDest m.route) with
  | none => true
  | some (c, b) =>
    let k := berthAt (coreOf s c) b
    let ch := tagChan m.route
    if inWindow s k ch m then storeFree s k else chanFree s k ch

/-- The key of a sequence number: sending task, DEST and CHAN (R203). -/
def seqKey (ordered : Bool) (task : Nat) (route : BitVec 32) : Nat :=
  (bitNat ordered * 2 ^ 40 + task) * 2 ^ 19 + tagDest route * 8 + (tagChan route).toNat

/-- The next sequence number, and the graph after it is taken (R203). -/
def nextSeq (s : State) (k : Berth) (route : BitVec 32) : BitVec 16 × State :=
  let key := seqKey k.ordered k.task route
  let v := (amGet 0 (graphOf s k.gid).seqs key + 1) % 2 ^ 16
  (BitVec.ofNat 16 v, updGraph s k.gid (fun g => { g with seqs := amSet g.seqs key v }))

/-- A message as its sender forms it, before it leaves (R203). -/
def formMsg (k : Berth) (route : BitVec 32) (payload : List Byte) : Msg :=
  { gid := k.gid, route := route, sender := if k.ordered then 0xFFFF else k.lcore, len := payload.length, payload := payload,
    ord := k.ordered, det := k.det }

/-- A message that has its sequence number leaves: it takes its send time (R203, R322). -/
def departMsg (s : State) (m : Msg) : State :=
  { s with transit := s.transit ++
      [{ m with sendt := BitVec.ofNat 32 s.wall, slot := (liveAt s m.gid (tagDest m.route)).isSome }] }

/-- A message leaves: it takes its sequence number and its send time (R203). -/
def leaveMsg (s : State) (k : Berth) (m : Msg) : State :=
  let r := nextSeq s k m.route
  departMsg r.2 { m with seq := r.1 }

/-- A message (bit 1) or an event (bit 2) has reached a core: an IDLE there sees it (R394). -/
def idleSees (bit : Nat) (w : Wait) : Wait := if w.why = .idle then { w with aux := w.aux ||| bit } else w
def noteIdle (s : State) (c : Nat) (bit : Nat) : State :=
  updCore s c (fun k => { k with supWait := k.supWait.map (idleSees bit) })

/-- A parked message of the same sender and channel stands before this one (R116). -/
def sameFlow (a b : Msg) : Bool :=
  decide (a.gid = b.gid ∧ a.sender = b.sender ∧ tagDest a.route = tagDest b.route ∧ tagChan a.route = tagChan b.route)

/-- A message enters a channel, or the berth's park when the channel is full (R116). -/
def enterChan (s : State) (c : Nat) (b : BitVec 2) (m : Msg) : State :=
  let k := berthAt (coreOf s c) b
  let ch := tagChan m.route
  if m.slot = true ∨ chanFree s k ch = true then
    updBerth s c b (fun k => chanSet k ch (chanGet k ch ++ [{ m with slot := false }]))
  else parkBerth s c b m

/-- The state of a delivery window of a channel of a task (R304). -/
def winOf (g : Graph) (task : Nat) (c : BitVec 3) : WinState :=
  (g.wins.find? (fun w => decide (w.task = task ∧ w.chan = c))).getD { task := task, chan := c }

def setWin (g : Graph) (w : WinState) : Graph :=
  { g with wins := w :: g.wins.filter (fun x => !decide (x.task = w.task ∧ x.chan = w.chan)) }

/-- How many windows of a channel have closed (R304). -/
def closedCount (g : Graph) (task : Nat) (c : BitVec 3) : Option Nat :=
  (senderSet g task c).map (fun set =>
    let w := winOf g task c
    set.foldl (fun a x => min a (amGet 0 w.marks x)) (2 ^ 32))

/-- The channels, in order. -/
def allChans : List (BitVec 3) := [0, 1, 2, 3, 4, 5, 6, 7]

/-- A window message may be released (R305). -/
def releasable (g : Graph) (task : Nat) (m : Msg) : Bool :=
  let ch := tagChan m.route
  allChans.all (fun c =>
    match closedCount g task c with
    | none => true
    | some n => decide (m.win ≤ n) && (decide (ch.toNat < c.toNat) || decide (m.win < n)))

/-- The order of R305. -/
def winBefore (a b : Msg) : Bool :=
  let ca := (tagChan a.route).toNat
  let cb := (tagChan b.route).toNat
  decide (a.win < b.win ∨ (a.win = b.win ∧ (ca < cb ∨ (ca = cb ∧ a.sender.toNat < b.sender.toNat))))

/-- The first message of a window store in the order of R305, with its place. -/
def winFirst (l : List Msg) : Option (Nat × Msg) :=
  ((List.range l.length).zip l).foldl (fun best p =>
    match best with
    | none => some p
    | some q => if winBefore p.2 q.2 then some p else some q) none

/-- Messages of the window store of a berth enter their channels, in order, as far as they may (R305). -/
def releaseWins : Nat → State → Nat → BitVec 2 → State
  | 0, s, _, _ => s
  | fuel + 1, s, c, b =>
    let k := berthAt (coreOf s c) b
    match winFirst k.winStore with
    | none => s
    | some (i, m) =>
      if releasable (graphOf s k.gid) k.task m then
        if findsHandler k m = false ∨ k.park.any (fun p => sameFlow p.msg m) = true then
          releaseWins fuel (parkBerth (updBerth s c b (fun k => { k with winStore := dropAt k.winStore i})) c b m) c b
        else if (chanGet k (tagChan m.route)).length < 8 then
          releaseWins fuel (updBerth s c b (fun k =>
            chanSet { k with winStore := dropAt k.winStore i} (tagChan m.route) (chanGet k (tagChan m.route) ++ [m]))) c b
        else s
      else s

/-- UNDECLARED_SENDER (R38): the message is discarded and the graph fails. R38 gives no DETAIL: it is that of a record with TRAPINFO 0
(R402). -/
def undeclared (s : State) (c : Nat) (b : BitVec 2) (m : Msg) : State :=
  failGraph (putRec s { berthRec s c b 0x0605 with engine := 11 }) m.gid 0x0605 none

/-- A message reaches a live berth (R12, R38, R116, R304). One that comes without a place in the window store, and finds that
full, is held by dispatch hardware: the spec names no other place for it (DESIGN CHOICE, log entry 70). -/
def deliverBerth (s : State) (c : Nat) (b : BitVec 2) (m : Msg) : State :=
  let k := berthAt (coreOf s c) b
  let g := graphOf s k.gid
  let ch := tagChan m.route
  let s1 := noteIdle s c 1
  if inWindow s k ch m then
    match senderSet g k.task ch with
    | some set =>
      if set.contains m.sender.toNat = false then undeclared s1 c b m
      else if m.slot = false ∧ storeFree s k = false then { s1 with heldMsgs := s1.heldMsgs ++ [m] }
      else
        releaseWins 65 (updBerth s1 c b (fun k =>
          { k with winStore := k.winStore ++ [{ m with win := amGet 0 (winOf g k.task ch).marks m.sender.toNat, slot := false }] })) c b
    | none => s1
  else if k.park.any (fun p => sameFlow p.msg m) ∨ findsHandler k m = false then parkBerth s1 c b m
  else enterChan s1 c b m

/-- A message that is held can go to a live berth without being lost: there is room where it belongs (R55). -/
def roomFor (s : State) (c : Nat) (b : BitVec 2) (m : Msg) : Bool :=
  let k := berthAt (coreOf s c) b
  let ch := tagChan m.route
  if inWindow s k ch m then m.slot || storeFree s k
  else if k.park.any (fun p => sameFlow p.msg m) then decide (k.park.length < 8)
  else if findsHandler k m then m.slot || chanFree s k ch
  else decide (k.park.length < 8)

/-- A message reaches dispatch hardware (R50, R55, R116). One that is held for a task keeps its slot. -/
def arriveMsg (s : State) (m : Msg) : State :=
  let m1 := { m with arr := if m.arr = 0 then s.wall else m.arr }
  if s.devPark.any (fun p => sameFlow p.msg m1) then parkDevice s m1
  else if s.heldMsgs.any (fun x => sameFlow x m1) then { s with heldMsgs := s.heldMsgs ++ [m1] }
  else
    match liveAt s m.gid (tagDest m.route) with
    | some (c, b) => deliverBerth s c b m1
    | none =>
      if movingAt s m.gid (tagDest m.route) then { s with heldMsgs := s.heldMsgs ++ [m1] }
      else if (findGraph s m.gid).isSome then parkDevice s m1 else s

/-- Message k of the transit may arrive: nothing of its sender to its channel is ahead of it (R55, R304). -/
def mayArrive (s : State) (k : Nat) : Bool :=
  match s.transit[k]? with
  | none => false
  | some m =>
    !(s.transit.take k).any (fun x => sameFlow x m)
      && !s.marksT.any (fun x => decide (x.gid = m.gid ∧ x.sender = m.sender ∧ x.dest = tagDest m.route
          ∧ x.chan = tagChan m.route ∧ (m.seq - x.seq).toNat < 2 ^ 15 ∧ m.seq ≠ x.seq))

/-- SEND and SENDS of the stream that issues, its operands read: held in a region that is not irrevocable (R322, R327), or
sent when the destination has a slot (R204), after the stream's earlier stores (R284). A SENDS that waits keeps the payload it
read at issue (R203). -/
def sendBody (ph : Phase) (m : Trio) (s0 s : State) (route : W64) (payload : List Byte) : Body :=
  let k := curBerth s0
  let msg := formMsg k (route.setWidth 32) payload
  match (if regionOpen s0 then (curCore s0).region.filter (fun r => !r.irrevocable) else none) with
  | some r =>
    if 8 ≤ r.held.length then overflowBody s0
    else .fin (trioPred m true (setRegion s { r with held := r.held ++ [msg] })) none
  | none =>
    if !(ownPosted s0 s0.cur.1 s0.cur.2).isEmpty then .hold s0 .room 1 payload
    else
      timedWait ph (hasSlot s0 msg && !(curCore s0).handoff.any (sameFlow msg)) m 0x0208 1 s0 id
        (.fin (trioPred m true (leaveMsg s k msg)) none) payload

/-- SEND (R203): 16 bytes from OPA and OPB; OPD, read last, is the route tag (R75). -/
def sendMsgBody (o : Ops) (m : Trio) (ph : Phase) (s : State) : Body :=
  onReady o true s
    (let a := readSrc o.a s
     let b := readSrc o.b a.2
     let d := readSrc o.d b.2
     sendBody ph m s d.2 d.1 (w64Bytes 8 a.1 ++ w64Bytes 8 b.1))
def execSend (o : Ops) (m : Trio) (s : State) : Host.Outcome State Fault Refusal :=
  issue (.send o m) o .both true (sendMsgBody o m) s

/-- A plain access by the stream that issues. -/
def curAcc (s : State) (space : Space) (addr : W64) (n : Nat) (kind : AKind) : Acc :=
  { c := s.cur.1, b := actBerthNo (curCore s), sup := supNow s, eng := if s.cur.2 then 2 else 1, space := space, addr := addr,
    n := n, kind := kind, inReg := regionOpen s }

/-- The home address of a berth-relative SP address of the stream that issues (R165). -/
def spHome (s : State) (a : Nat) : Nat := spAddr s.cur.1 ((curBerth s).spB * 2048 + a)

/-- [a, a + n) lies in the scratchpad allocation of the stream that issues (R165). -/
def inAlloc (s : State) (a n : Nat) : Bool := decide (a + n ≤ (curBerth s).spN * 2048)

/-- The uncorrectable granule that a read of SP bytes meets (R181). -/
def spBad (s : State) (a n : Nat) : Option Nat := (granules [(spHome s a, n)]).find? (isBad s)

/-- SP bytes as the stream that issues sees them (R186). -/
def spSeen (s : State) (a n : Nat) : List Byte := seenBytes s s.cur.1 s.cur.2 (spHome s a, n)

/-- What reads SP bytes comes after the stream's earlier atomics to them (R285, R310). -/
def afterAtoms (s : State) (a n : Nat) (k : Body) : Body :=
  if ownTouches s s.cur.1 s.cur.2 true [(spHome s a, n)] then .hold s .room 0 else k

/-- UNCORRECTABLE_DATA of the stream that issues, with its record (R181): at a granule of SP its address there. -/
def uncTrap (s : State) (addr : W64) (g : Nat) : Body :=
  .trap (uncRec s s.cur.1 (actBerthNo (curCore s)) g (bitNat s.cur.2)) (trapAt 0x0207 addr 0)
def spUnc (s : State) (g : Nat) : Body := uncTrap s (BitVec.ofNat 64 (16 * g - spHome s 0)) g

/-- SENDS (R203): the payload is read from SP at issue. -/
def sendsBody (o : Ops) (m : Trio) (ph : Phase) (s : State) : Body :=
  onReady o true s
    (let a := readSrc o.a s
     let b := readSrc o.b a.2
     let d := readSrc o.d b.2
     let n := b.1.toNat
     let p := a.1.toNat
     match heldData s with
     | some payload => sendBody ph m s d.2 d.1 payload
     | none =>
       orTrap [(decide (256 < n), { code := 0x0102, info := 9 }), (decide (p % 16 ≠ 0), trapAt 0x0206 a.1 0),
               (!inAlloc s p n, trapAt 0x0201 a.1 0)] s
         (afterAtoms s p n (match spBad s p n with
          | some g => spUnc s g
          | none => sendBody ph m s d.2 d.1 (spSeen s p n))))
def execSends (o : Ops) (m : Trio) (s : State) : Host.Outcome State Fault Refusal :=
  issue (.sends o m) o .both true (sendsBody o m) s

end Sys2Proof.Machine
end

