-- ==== Sys2Proof/Machine/Remote.lean ====
section
/-! DEFINITION. How a stream waits for an access at another device (R355, R356): peer pages, RLD, RST, TABWAIT and TABTEST
share it. -/

namespace Sys2Proof.Machine

/-- A new remote operation of the stream that issues, with the identity it gets; its packet is the next to its device. ofs: the place
of its bytes in an access over pages of several homes. -/
def newRop (s : State) (kind : RKind) (dev : Nat) (va : W64) (held : Bool) (tab : Option Nat) (qtab : BitVec 32) (ofs : Nat := 0) :
    Nat × State :=
  let b := curBerth s
  let id := s.fabric.ropNext
  let r : ROp := { id := id, kind := kind, core := s.cur.1, pilot := s.cur.2, gid := b.gid, task := b.task, ord := b.ordered, dev := dev,
                   seq := seqTo s dev, ctx := (openOut s dev).born, va := va, pc := pcNow s, tab := tab, qtab := qtab, held := held,
                   wall := s.wall, ofs := ofs }
  (id, updFab s (fun f => { f with rops := f.rops ++ [r], ropNext := id + 1 }))

/-- The remote operations that the stream that issues is held for, and the first of them. -/
def heldRops (s : State) : List ROp := s.fabric.rops.filter (fun r => r.held && r.core == s.cur.1 && r.pilot == s.cur.2)
def heldRop (s : State) : Option ROp := (heldRops s).head?

/-- It is held for no remote operation any more. -/
def dropHeld (s : State) : State :=
  updFab s (fun f => { f with rops := f.rops.map (fun r =>
    if r.core = s.cur.1 ∧ r.pilot = s.cur.2 then { r with held := false } else r) })

/-- What a remote wait that ended without its access comes to: a trap, or a false predicate under TRES (R129, R356). -/
def remoteLate (m : Trio) (code : Nat) (s : State) : Body :=
  if m.tres then .fin (writeK s m.pred false) none else .trap s { code := code }

/-- A reply that ends the wait without the access. -/
def failedReply (r : ROp) : Bool :=
  match r.rep with
  | some (.trap _) | some .canceled => true
  | _ => false

/-- What such a reply comes to. -/
def replyFails (m : Trio) (r : ROp) (s : State) : Body :=
  match r.rep with
  | some (.trap code) => if code = 0x0506 then remoteLate m code s else .trap s { code := code, addr := some r.va }
  | _ => remoteLate m 0x0208 s

/-- A cancel goes after each access of the stream that has not been answered (R356). -/
def cancelHeld (s : State) : State :=
  ((heldRops s).filter (fun r => r.rep.isNone && !r.done && !r.cancel)).foldl
    (fun t r => sendPkt (updRop t r.id (fun q => { q with cancel := true })) r.dev (.cancel r.id)) s

/-- The stream sends its remote accesses and waits for their replies: one, but for an access over pages of several homes. timed: the
wait has the instruction's limit; when that falls due first, a cancel is sent and its outcome decides (R172, R356). For a store that
was discarded there is nothing to cancel: the limit ends the wait (R374). data: what start has read in this device. -/
def remoteWait (ph : Phase) (timed : Bool) (m : Trio) (start : State → State) (s : State) (k : List ROp → State → Body)
    (data : List Byte := []) : Body :=
  match heldRops s with
  | [] => .hold (start s) (if timed then .timed else .remote s.fabric.ropNext) 0 data
  | r :: l =>
    let why : WaitWhy := if timed then .timed else .remote r.id
    match (r :: l).find? failedReply with
    | some q => replyFails m q (dropHeld s)
    | none =>
      if (r :: l).all (fun q => q.rep.isSome) then k (r :: l) (dropHeld s)
      else if ph = .timeout ∧ timed = true ∧ limitDue s m = true then
        (if (r :: l).all (fun q => q.rep.isSome || q.done) then remoteLate m 0x0208 (dropHeld s) else .hold (cancelHeld s) why 0)
      else .hold s why 0

/-- A device that may not be addressed: outside the grid, or unreachable (R351, R354). -/
def devBad (s : State) (d : Nat) : Bool := !inGrid s d || s.fabric.unreach.contains d

/-- A remote load sent (R355). -/
def startLoad (dev : Nat) (va : W64) (a n : Nat) (sync : Sync) (s : State) (ofs : Nat := 0) : State :=
  let r := newRop s .load dev va true none 0 ofs
  sendPkt r.2 dev (.rld r.1 (curBerth s).pasid (BitVec.ofNat 48 a) n sync)

/-- A remote store sent (R355). -/
def startStore (dev : Nat) (va : W64) (a : Nat) (bs : List Byte) (sync : Sync) (tabs : List (BitVec 32)) (tab : Option Nat)
    (s : State) : State :=
  let r := newRop s .store dev va (sync != .plain) tab 0
  sendPkt r.2 dev (.rst r.1 (curBerth s).pasid (BitVec.ofNat 48 a) bs sync tabs (curCore s).tabexp.toNat)

/-- The pieces at peers of an access over pages of several homes, sent as loads (R168, R355). -/
def startLoads (va : W64) (sync : Sync) (l : List (Nat × Nat × Nat × Nat)) (s : State) : State :=
  l.foldl (fun t p => startLoad p.2.1 (va + BitVec.ofNat 64 p.1) p.2.2.1 p.2.2.2 sync t p.1) s

/-- The same as stores of the bytes of the access (R168, R355). -/
def startStores (va : W64) (sync : Sync) (bs : List Byte) (l : List (Nat × Nat × Nat × Nat)) (s : State) : State :=
  l.foldl (fun t p => startStore p.2.1 (va + BitVec.ofNat 64 p.1) p.2.2.1 ((bs.drop p.1).take p.2.2.2) sync [] none t) s

/-- An atomic sent to a peer (R313). -/
def startAtom (dev : Nat) (va : W64) (a : Nat) (x : Atom) (held : Bool) (s : State) : State :=
  let r := newRop s (if held then .load else .store) dev va held none 0
  sendPkt r.2 dev (.atom r.1 (curBerth s).pasid (BitVec.ofNat 48 a) x)

/-- The bytes of a reply. -/
def replyBytes : Reply → List Byte
  | .data bs => bs
  | _ => []

/-- What an operation has brought. -/
def ropBytes (r : ROp) : List Byte := replyBytes (r.rep.getD .stored)

/-- Bytes with what came from peers laid over them, each piece in its place. -/
def layReplies (bs : List Byte) (rs : List ROp) : List Byte := rs.foldl (fun b r => overlay b (ropBytes r) r.ofs) bs

/-- The stream's stores to other devices have all been acknowledged and performed, or have ended (R284, R357). -/
def remoteDone (s : State) : Bool :=
  s.fabric.rops.all (fun r => decide (r.core ≠ s.cur.1 ∨ r.pilot ≠ s.cur.2 ∨ r.kind ≠ .store) || r.perf || r.done)

end Sys2Proof.Machine
end

