-- ==== Sys2Proof/Machine/Transfers.lean ====
section
/-! DEFINITION. Loads and stores, full/empty bits, gathers, scatters and PREF (R182 to R189). -/

namespace Sys2Proof.Machine

/-- A memory operand as resolved: the access, what R31 says of its record, the extent and base of the record. -/
structure Target where
  x : Acc
  bad : Option TrapIn := none
  ext : Option (Nat × Nat) := none
  base : W64 := 0

/-- The kind of an access by its SYNC mode (R288, R290). -/
def syncKind (load : Bool) (y : Sync) : AKind :=
  if load then (if y = .plain then .ld else .ldf) else if y = .plain then .st else .stf

/-- The engine of a load or store (R290). -/
def loadEng (s : State) (vec : Bool) : Nat := if vec then 3 else if s.cur.2 then 2 else 1

/-- A record and an index (R184). -/
def recTarget (s : State) (n : Nat) (idx scale len : Nat) (kind : AKind) (sync : Sync) (eng : Nat) : Except Stop Target :=
  match rcdBytes s s.cur.1 (curBerth s) n with
  | .error e => .error e
  | .ok bs =>
    let r := rcdOf bs
    match r with
    | none => .error (.trap { code := 0x0203 })
    | some rc =>
      let ofs := idx * scale
      let addr := BitVec.ofNat 64 (rc.base + ofs)
      .ok { x := { curAcc s rc.space addr len kind with eng := eng, sync := sync, only := rc.ilreg },
            bad := rcdCheck (curBerth s).sects r addr ofs len (kind.reads || kind == .atom) kind.writes sync eng, ext := some (rc.base, rc.ext),
            base := BitVec.ofNat 64 rc.base }

/-- The operand of a load or store: base and offset, or a record and an index (R184). It comes with the state after OPA and
OPB are read. -/
def target (s : State) (o : Ops) (spc : Space) (scale len : Nat) (kind : AKind) (sync : Sync) (eng : Nat) :
    Except Stop Target × State :=
  match o.a with
  | .b n =>
    let i := readSrc o.b s
    (recTarget s n.toNat i.1.toNat scale len kind sync eng, i.2)
  | _ =>
    let a := readSrc o.a s
    let b := readSrc o.b a.2
    (.ok { x := { curAcc s spc (a.1 + b.1) len kind with eng := eng, sync := sync }, base := a.1 }, b.2)

/-- Steps 1 to 3 of R185. -/
def accChecks (s : State) (t : Target) (align : Nat) : Option TrapIn :=
  if t.x.addr.toNat % align ≠ 0 then some (trapAt 0x0206 t.x.addr 0)
  else
    match t.bad with
    | some e => some e
    | none =>
      match reachCheck s t.x with
      | some e => some e
      | none =>
        match lockCheck s t.x with
        | some e => some e
        | none => windowCheck s t.x

/-- What is checked again when a held access is tried again: that an SPX target is still there (R166); all the checks when it
has not passed them yet (R185). -/
def reChecks (ph : Phase) (s : State) (t : Target) (align : Nat) : Option TrapIn :=
  if checkedBefore ph s then (if t.x.space = .spx then reachCheck s t.x else none) else accChecks s t align

/-- UNCORRECTABLE_DATA of a load, at the first such granule, in the access's own addresses (R181). -/
def badTrap (s : State) (x : Acc) (gs : List Nat) : Option Body :=
  match gs.findIdx? (isBad s) with
  | some i => some (.trap (uncRec s x.c x.b (gs.getD i 0) (x.eng - 1)) (trapAt 0x0207 (BitVec.ofNat 64 (granFrom x.addr.toNat + 16 * i)) 0))
  | none => none

/-- The same for the pieces in this device of an access over pages of several homes. -/
def badNear (s : State) (x : Acc) (l : List (Nat × Nat × Nat)) : Option Body :=
  match firstBad s ((pageCuts (x.n / 4096 + 2) x.addr.toNat x.n).zip l) with
  | some (g, a) => some (.trap (uncRec s x.c x.b g (x.eng - 1)) (trapAt 0x0207 (BitVec.ofNat 64 a) 0))
  | none => none

/-- An access over pages of several homes reaches the page of a device that may not be addressed (R351, R354). -/
def farTrap (s : State) (x : Acc) (l : List (Nat × Nat × Nat)) : Option TrapIn :=
  ((farPieces 0 l).find? (fun p => devBad s p.2.1)).map (fun p => trapAt 0x0503 (x.addr + BitVec.ofNat 64 p.1) 0)

/-- What a load over pages of several homes reads in this device; the bytes of peers are still to come. -/
def nearBytes (s : State) (l : List (Nat × Nat × Nat)) : List Byte :=
  l.flatMap (fun p => if p.1 = 3 then List.replicate p.2.2 0 else seenBytes s s.cur.1 s.cur.2 (tierFlat p.1 p.2.1, p.2.2))

/-- The bytes of a store dealt out over the pieces in this device. -/
def dealNear : List (Nat × Nat × Nat) → List Byte → List (Nat × List Byte)
  | [], _ => []
  | p :: l, bs => (if p.1 = 3 then [] else [(tierFlat p.1 p.2.1, bs.take p.2.2)]) ++ dealNear l (bs.drop p.2.2)

/-- The vector operands of a load or store: VIEW_BOUNDS (R80), which the lists of R185 and R309 leave out and which comes before all of
their checks and after the wait for a queue (DESIGN CHOICE, log entry 87), and the wait for earlier operations on the register store. -/
def onView (o : Ops) (s : State) (k : Body) : Body :=
  if vBad s o.d || vBad s o.b then .trap s { code := 0x0106 }
  else
    let usesV := (match o.d with | .v _ => true | _ => false) || (match o.b with | .v _ => true | _ => false)
    if usesV && !enginesIdle s then .hold s .room 0 else k

/-- The destination of a load takes its value (R186). -/
def putLoad (o : Ops) (sx block : Bool) (bs : List Byte) (s : State) : State :=
  if block then writeVD o.d bs s else writeDst o.d (if sx then sextTo64 (8 * bs.length) (leNat bs) else leW64 bs) s

/-- The region of a region access that is not performed in memory (R322). -/
def specRegion (s : State) (x : Acc) : Option Region :=
  if isRegionAcc s x then (curCore s).region.bind (fun r => if r.irrevocable then none else some r) else none

/-- A load slot may be allocated (R323). -/
def slotted (o : Ops) (m : MemMod) : Bool :=
  (m.size == .w || m.size == .d) && m.sync == .plain && (match o.d with | .s _ => true | _ => false)

/-- A load that is a release (R283): it leaves its granules empty, or has seen them so. -/
def isRelease (y : Sync) : Bool := y == .take || y == .waite

/-- The stream's posted stores that a load with this SYNC mode waits for: those to its granules, and all of them where the
load is a release (R283). -/
def loadVisible (s : State) (y : Sync) (ps : List (Nat × Nat)) : Bool :=
  if isRelease y then (ownPosted s s.cur.1 s.cur.2).isEmpty else !ownTouches s s.cur.1 s.cur.2 false ps

/-- A load over pages of several homes, a peer among them (R168, R355): what lies in this device is read first, then the peers are
asked, and the load has its value when they have all answered. With a SYNC mode the granules here meet their condition and change
first, and those at each peer then do so there (DESIGN CHOICE, log entry 84). -/
def mixedLoad (m : MemMod) (x : Acc) (l : List (Nat × Nat × Nat)) (ph : Phase) (s : State) : Body :=
  let ps := nearPieces l
  let gs := granules ps
  let start := fun (t : State) =>
    match badNear s x l with
    | some b => b
    | none => .hold (startLoads x.addr m.sync (farPieces 0 l) t) (if m.sync = .plain then .remote t.fabric.ropNext else .timed) 0 (nearBytes s l)
  match farTrap s x l with
  | some e => .trap s e
  | none =>
    if m.sync = .plain then (if ownTouches s s.cur.1 s.cur.2 true ps then .hold s .room 1 else start s)
    else timedWait ph (loadVisible s m.sync ps && syncTurn s m.sync gs) m.trio 0x0208 1 s id (start (syncSet s m.sync gs)) []
      (some { sync := m.sync, gs := gs })

/-- A load of n bytes (R186). vec: the engine is the vector engine's (R290). -/
def loadBody (o : Ops) (m : MemMod) (spc : Space) (n align : Nat) (block vec : Bool) (ph : Phase) (s : State) : Body :=
  onReady o false s (onView o s
    (let read := fun (s : State) => target s o spc (2 ^ m.scale.toNat) n (syncKind true m.sync) m.sync (loadEng s vec)
     let far := fun (start : State → State) => remoteWait ph (m.sync != .plain) m.trio start s (fun rs s1 =>
       .fin (trioPred m.trio true (putLoad o m.sx block (layReplies ((heldData s).getD []) rs) (read s1).2)) none)
     let t := read s
     if (heldRop s).isSome then far id else
     match t.1 with
     | .error e => stopBody s e
     | .ok g =>
       match reChecks ph s g align with
       | some e => .trap s e
       | none =>
         match locate s g.x 0 with
         | .error e => stopChecked s e
         | .ok (.peer dev a) =>
           if devBad s dev then .trap s (trapAt 0x0503 g.x.addr 0)
           else if isRelease m.sync && (ownPosted s s.cur.1 s.cur.2).isEmpty = false then .hold s .room 1
           else far (startLoad dev g.x.addr a n m.sync)
         | .ok (.mixed l) => mixedLoad m g.x l ph s
         | .ok (.here ps) =>
           let gs := granules ps
           let s2 := noteAcc t.2 g.x
           match specRegion s g.x with
           | some r =>
             if ownTouches s s.cur.1 s.cur.2 false ps then .hold s .room 1
             else
             match badTrap s g.x gs with
             | some b => b
             | none =>
               match regionLoad s r ps (!block && slotted o m) m.sx with
               | none => overflowBody s
               | some q =>
                 let s3 := putLoad o m.sx block q.bytes (setRegion s2 q.r)
                 .fin (match q.tag with | some tg => setTag s3 o.d tg | none => s3) none
           | none =>
             if m.sync = .plain then
               if ownTouches s s.cur.1 s.cur.2 true ps then .hold s .room 1
               else
                 match badTrap s g.x gs with
                 | some b => b
                 | none => .fin (putLoad o m.sx block (ps.flatMap (seenBytes s s.cur.1 s.cur.2)) s2) none
             else
               timedWait ph (loadVisible s m.sync ps && syncTurn s m.sync gs) m.trio 0x0208 1 s id
                 (match badTrap s g.x gs with
                  | some b => b
                  | none =>
                    .fin (trioPred m.trio true (putLoad o m.sx block (ps.flatMap (fun p => rdBytes s.mem p.1 p.2))
                      (syncSet s2 m.sync gs))) none) [] (some { sync := m.sync, gs := gs })))

/-- The bytes of a store's data, read after OPA and OPB (R183). -/
def storeData (o : Ops) (block : Bool) (n : Nat) (s : State) : List Byte × State :=
  if block then readVD o.d s else let r := readSrc o.d s; (w64Bytes n r.1, r.2)

/-- The slots that a store of a region does not carry on symbolically are pinned (R323). -/
def pinStore (o : Ops) (sdata saddr : Option (Nat × W64)) (s0 s : State) : State :=
  let s1 := pinOp s0 o.a s
  let s2 := if saddr.isSome then s1 else pinOp s0 o.b s1
  if sdata.isSome then s2 else pinOp s0 o.d s2

/-- The buffered stores of a region store (R322, R323). -/
def regStores (o : Ops) (m : MemMod) (g : Target) (ps : List (Nat × Nat)) (bs : List Byte) (block : Bool) (s : State) : List RStore :=
  let sdata := if !block && (m.size == .w || m.size == .d) then tagOf s o.d else none
  let saddr := if !block && (tagOf s o.a).isNone then tagOf s o.b else none
  (dealOut ps bs).map (fun p =>
    { addr := p.1, bytes := p.2, va := g.x.addr, space := g.x.space, sdata := sdata, saddr := saddr, scale := 2 ^ m.scale.toNat,
      base := g.base, ext := g.ext })

/-- A store posted by the stream that issues (R186). -/
def postStore (s : State) (pieces : List (Nat × List Byte)) (addr : W64) (spx : Option W64) (fill : Bool) (atom : Option Atom) : State :=
  let b := actBerthNo (curCore s)
  { s with posted := s.posted ++ [{ core := s.cur.1, pilot := s.cur.2, berth := b, gid := (curBerth s).gid, task := (curBerth s).task,
                                    ord := (curBerth s).ordered, pieces := pieces, fill := fill,
                                    rel := fill || atom.isSome, addr := addr, pc := pcNow s, spx := spx, atom := atom }] }

/-- A store over pages of several homes, a peer among them (R168, R355): the part in this device is posted, or performed first, as for
a store here, and the other parts are sent (DESIGN CHOICE, log entry 84). s0: the state in which the operands are not yet consumed. -/
def mixedStore (m : MemMod) (x : Acc) (l : List (Nat × Nat × Nat)) (bs : List Byte) (ph : Phase) (s0 s : State) : Body :=
  let gs := granules (nearPieces l)
  let near := dealNear l bs
  let send := startStores x.addr m.sync bs (farPieces 0 l)
  match farTrap s0 x l with
  | some e => .trap s0 e
  | none =>
    match m.sync with
    | .plain => .fin (send (postStore s near x.addr none false none)) none
    | .put =>
      timedWait ph ((ownPosted s0 s0.cur.1 s0.cur.2).isEmpty && syncTurn s0 .put gs) m.trio 0x0208 1 s0 id
        (.hold (send (syncSet (landPieces s0 s0.cur.1 (actBerthNo (curCore s0)) near) .put gs)) .timed 0) [] (some { sync := .put, gs := gs })
    | _ =>
      if (ownPosted s0 s0.cur.1 s0.cur.2).isEmpty = false then .hold s0 .room 1
      else .hold (send (postStore s0 near x.addr none true none)) .timed 0

/-- A store of n bytes (R186). -/
def storeBody (o : Ops) (m : MemMod) (spc : Space) (n align : Nat) (block vec : Bool) (ph : Phase) (s : State) : Body :=
  onReady o true s (onView o s
    (let read := fun (s : State) => target s o spc (2 ^ m.scale.toNat) n (syncKind false m.sync) m.sync (loadEng s vec)
     let far := fun (start : State → State) => remoteWait ph true m.trio start s (fun _ s1 =>
       .fin (trioPred m.trio true (storeData o block n (read s1).2).2) none)
     let t := read s
     if (heldRop s).isSome then far id else
     match t.1 with
     | .error e => stopBody s e
     | .ok g =>
       match reChecks ph s g align with
       | some e => .trap s e
       | none =>
         match locate s g.x 1 with
         | .error e => stopChecked s e
         | .ok (.peer dev a) =>
           let d := storeData o block n t.2
           if devBad s dev then .trap s (trapAt 0x0503 g.x.addr 0)
           else if m.sync = .plain then
             .fin (startStore dev g.x.addr a d.1 .plain [] none (pinStore o none none s d.2)) none
           else if (ownPosted s s.cur.1 s.cur.2).isEmpty = false then .hold s .room 1
           else far (startStore dev g.x.addr a d.1 m.sync [] none)
         | .ok (.mixed l) =>
           let d := storeData o block n t.2
           mixedStore m g.x l d.1 ph s (pinStore o none none s d.2)
         | .ok (.here ps) =>
           let gs := granules ps
           let d := storeData o block n (noteAcc t.2 g.x)
           match specRegion s g.x with
           | some r =>
             let xs := regStores o m g ps d.1 block s
             match regionStore r xs, xs with
             | some r1, x :: _ => .fin (pinStore o x.sdata x.saddr s (setRegion d.2 r1)) none
             | some _, [] => .fin d.2 none
             | none, _ => overflowBody s
           | none =>
             let s3 := pinStore o none none s d.2
             let pieces := if g.x.space = .spx then [(0, d.1)] else dealOut ps d.1
             let spx := if g.x.space = .spx then some g.x.addr else none
             match m.sync with
             | .put =>
               timedWait ph ((ownPosted s s.cur.1 s.cur.2).isEmpty && syncTurn s .put gs) m.trio 0x0208 1 s id
                 (if ps.isEmpty then .fin (trioPred m.trio true (postStore s3 pieces g.x.addr spx false none)) none
                  else .fin (trioPred m.trio true (syncSet (landPieces s3 s.cur.1 (actBerthNo (curCore s)) (dealOut ps d.1)) .put gs)) none) [] (some { sync := .put, gs := gs })
             | y =>
               if isRegionAcc s g.x then
                 if ownTouches s s.cur.1 s.cur.2 false ps then .hold s .room 1
                 else .fin (landPieces s3 s.cur.1 (actBerthNo (curCore s)) pieces) none
               else .fin (trioPred m.trio true (postStore s3 pieces g.x.addr spx (y == .fill) none)) none))

/-- LDS (R186). -/
def ldsBody (o : Ops) (m : MemMod) : Phase → State → Body :=
  loadBody o m .sp (sizeBytes m.size) (sizeBytes m.size) false false
def execLds (o : Ops) (m : MemMod) (s : State) : Host.Outcome State Fault Refusal := issue (.lds o m) o .both false (ldsBody o m) s

/-- LDV (R186). -/
def ldvBody (o : Ops) (m : MemMod) : Phase → State → Body :=
  loadBody o m .vlt (sizeBytes m.size) (sizeBytes m.size) false false
def execLdv (o : Ops) (m : MemMod) (s : State) : Host.Outcome State Fault Refusal := issue (.ldv o m) o .both false (ldvBody o m) s

/-- LDG (R186). -/
def ldgBody (o : Ops) (m : MemMod) : Phase → State → Body :=
  loadBody o m .glb (sizeBytes m.size) (sizeBytes m.size) false false
def execLdg (o : Ops) (m : MemMod) (s : State) : Host.Outcome State Fault Refusal := issue (.ldg o m) o .both false (ldgBody o m) s

/-- LDX (R186): the space is the record's. -/
def ldxBody (o : Ops) (m : MemMod) : Phase → State → Body :=
  loadBody o m .sp (sizeBytes m.size) (sizeBytes m.size) false false
def execLdx (o : Ops) (m : MemMod) (s : State) : Host.Outcome State Fault Refusal := issue (.ldx o m) o .both false (ldxBody o m) s

/-- VLDS (R186). -/
def vldsBody (o : Ops) (m : MemMod) : Phase → State → Body := loadBody o m .sp 256 16 true true
def execVlds (o : Ops) (m : MemMod) (s : State) : Host.Outcome State Fault Refusal := issue (.vlds o m) o .execute false (vldsBody o m) s

/-- VLDV (R186). -/
def vldvBody (o : Ops) (m : MemMod) : Phase → State → Body := loadBody o m .vlt 256 16 true true
def execVldv (o : Ops) (m : MemMod) (s : State) : Host.Outcome State Fault Refusal := issue (.vldv o m) o .execute false (vldvBody o m) s

/-- VLDG (R186). -/
def vldgBody (o : Ops) (m : MemMod) : Phase → State → Body := loadBody o m .glb 256 16 true true
def execVldg (o : Ops) (m : MemMod) (s : State) : Host.Outcome State Fault Refusal := issue (.vldg o m) o .execute false (vldgBody o m) s

/-- STS (R186). -/
def stsBody (o : Ops) (m : MemMod) : Phase → State → Body :=
  storeBody o m .sp (sizeBytes m.size) (sizeBytes m.size) false false
def execSts (o : Ops) (m : MemMod) (s : State) : Host.Outcome State Fault Refusal := issue (.sts o m) o .both true (stsBody o m) s

/-- STV (R186). -/
def stvBody (o : Ops) (m : MemMod) : Phase → State → Body :=
  storeBody o m .vlt (sizeBytes m.size) (sizeBytes m.size) false false
def execStv (o : Ops) (m : MemMod) (s : State) : Host.Outcome State Fault Refusal := issue (.stv o m) o .both true (stvBody o m) s

/-- STG (R186). -/
def stgBody (o : Ops) (m : MemMod) : Phase → State → Body :=
  storeBody o m .glb (sizeBytes m.size) (sizeBytes m.size) false false
def execStg (o : Ops) (m : MemMod) (s : State) : Host.Outcome State Fault Refusal := issue (.stg o m) o .both true (stgBody o m) s

/-- STX (R186): the space is the record's. -/
def stxBody (o : Ops) (m : MemMod) : Phase → State → Body :=
  storeBody o m .sp (sizeBytes m.size) (sizeBytes m.size) false false
def execStx (o : Ops) (m : MemMod) (s : State) : Host.Outcome State Fault Refusal := issue (.stx o m) o .both true (stxBody o m) s

/-- VSTS (R186). -/
def vstsBody (o : Ops) (m : MemMod) : Phase → State → Body := storeBody o m .sp 256 16 true true
def execVsts (o : Ops) (m : MemMod) (s : State) : Host.Outcome State Fault Refusal := issue (.vsts o m) o .execute true (vstsBody o m) s

/-- VSTV (R186). -/
def vstvBody (o : Ops) (m : MemMod) : Phase → State → Body := storeBody o m .vlt 256 16 true true
def execVstv (o : Ops) (m : MemMod) (s : State) : Host.Outcome State Fault Refusal := issue (.vstv o m) o .execute true (vstvBody o m) s

/-- VSTG (R186). -/
def vstgBody (o : Ops) (m : MemMod) : Phase → State → Body := storeBody o m .glb 256 16 true true
def execVstg (o : Ops) (m : MemMod) (s : State) : Host.Outcome State Fault Refusal := issue (.vstg o m) o .execute true (vstgBody o m) s

/- Full/empty bits (R187). -/

/-- FEGET (R187). -/
def fegetBody (o : Ops) (_ : Phase) (s : State) : Body :=
  onReady o false s
    (let r := readSrc o.a s
     let a := r.1.toNat
     orTrap [(decide (a % 16 ≠ 0), trapAt 0x0206 r.1 0), (!inAlloc s a 1024, trapAt 0x0201 r.1 0)] s
       (if ownTouches s s.cur.1 s.cur.2 false [(spHome s a, 1024)] then .hold s .room 0
        else
          .fin (writeDst o.d (BitVec.ofNat 64 ((List.range 64).foldl (fun v i =>
            v + bitNat (feGet s (spHome s a / 16 + i)) * 2 ^ i) 0)) r.2) none))
def execFeget (o : Ops) (s : State) : Host.Outcome State Fault Refusal := issue (.feget o) o .both false (fegetBody o) s

/-- FESET (R187, R288): a release, so the stream's earlier stores are visible before it (R283). -/
def fesetBody (o : Ops) (_ : Phase) (s : State) : Body :=
  onReady o false s
    (let r := readSrc o.a s
     let v := readSrc o.b r.2
     let a := r.1.toNat
     orTrap [(decide (a % 16 ≠ 0), trapAt 0x0206 r.1 0), (!inAlloc s a 1024, trapAt 0x0201 r.1 0)] s
       (match windowCheck s { curAcc s .sp r.1 1024 .st with kind := .st } with
        | some t => .trap s t
        | none =>
          if (ownPosted s s.cur.1 s.cur.2).isEmpty = false then .hold s .room 0
          else
            .fin ((List.range 64).foldl (fun t i => feSet t (spHome s a / 16 + i) (v.1.getLsbD i)) v.2) none))
def execFeset (o : Ops) (s : State) : Host.Outcome State Fault Refusal := issue (.feset o) o .both false (fesetBody o) s

/- Gathers and scatters (R184, R188). -/

/-- The targets of the 64 lanes. -/
def laneTargets (s : State) (o : Ops) (m : MemMod) (idx : List Nat) (kind : AKind) : Except Stop (List Target) :=
  match o.a with
  | .b n =>
    idx.foldr (fun i acc =>
      match recTarget s n.toNat i (2 ^ m.scale.toNat) (sizeBytes m.size) kind .plain 3, acc with
      | .ok t, .ok l => .ok (t :: l)
      | .error e, _ => .error e
      | _, .error e => .error e) (.ok [])
  | _ => .ok []

/-- The first lane at which a check fails, with its trap; TRAPINFO is the lane (R185). -/
def laneTrap {α : Type} (f : α → Option TrapIn) (l : List α) : Option TrapIn :=
  ((List.range l.length).zip l).findSome? (fun p => (f p.2).map (fun t => { t with info := BitVec.ofNat 64 p.1 }))

/-- Each check for all lanes before the next (R185). -/
def laneChecks (s : State) (n : Nat) (l : List Target) : Option TrapIn :=
  let align (t : Target) : Option TrapIn := if t.x.addr.toNat % n ≠ 0 then some (trapAt 0x0206 t.x.addr 0) else none
  let reach (t : Target) : Option TrapIn := match t.bad with | some e => some e | none => reachCheck s t.x
  let locks (t : Target) : Option TrapIn := match lockCheck s t.x with | some e => some e | none => windowCheck s t.x
  match laneTrap align l with
  | some e => some e
  | none => match laneTrap reach l with
    | some e => some e
    | none => laneTrap locks l

/-- The homes of all lanes (R185). -/
def laneHomes (s : State) (kind : Nat) : List Target → Nat → Except Stop (List Loc)
  | [], _ => .ok []
  | t :: l, i =>
    match locate s t.x kind with
    | .error (.trap e) => .error (.trap { e with info := BitVec.ofNat 64 i })
    | .error e => .error e
    | .ok h => (match laneHomes s kind l (i + 1) with | .ok r => .ok (h :: r) | .error e => .error e)

/-- The pieces of a lane; an element on a peer's page has none here. -/
def lanePieces : Loc → List (Nat × Nat)
  | .here ps => ps
  | .peer _ _ => []
  | .mixed l => nearPieces l

/-- What a gather reads of a lane: memory with the stream's own stores over it; a peer's bytes are free values. -/
def laneBytes (s : State) (n : Nat) : Loc → List Byte
  | .here ps => ps.flatMap (seenBytes s s.cur.1 s.cur.2)
  | .peer _ a => (List.range n).map (fun j => Config.freeByte s.fresh (a + j))
  | .mixed l => l.flatMap (pieceBytes s)

/-- The first lane on the page of a device that may not be addressed (R351, R354). -/
def laneFar (s : State) (ts : List Target) (hs : List Loc) : Option TrapIn :=
  laneTrap (fun p => match p.2 with
    | .peer dev _ => if devBad s dev then some (trapAt 0x0503 p.1.x.addr 0) else none
    | .here _ => none
    | .mixed l => farTrap s p.1.x l) (ts.zip hs)

/-- The first lane whose element is uncorrectable, with its granule (R181). -/
def laneBad (s : State) (ts : List Target) (hs : List Loc) : Option (Nat × TrapIn) :=
  ((List.range ts.length).zip (ts.zip hs)).findSome? (fun p =>
    let gs := granules (lanePieces p.2.2)
    (gs.findIdx? (isBad s)).map (fun j =>
      (gs.getD j 0, trapAt 0x0207 (BitVec.ofNat 64 (granFrom p.2.1.x.addr.toNat + 16 * j)) p.1)))

/-- The lanes of a gather in ascending order: an element of an ATOMIC region is a region load without a slot (R322, R323). -/
def gatherLanes (n : Nat) : State → List (Target × Loc) → Option (State × List (List Byte))
  | s, [] => some (s, [])
  | s, (t, h) :: l =>
    match specRegion s t.x with
    | some r =>
      (match regionLoad s r (lanePieces h) false false with
       | none => none
       | some q => (gatherLanes n (setRegion s q.r) l).map (fun x => (x.1, q.bytes :: x.2)))
    | none => (gatherLanes n s l).map (fun x => (x.1, laneBytes s n h :: x.2))

/-- VGATH (R188). -/
def vgathBody (o : Ops) (m : MemMod) (ph : Phase) (s : State) : Body :=
  onReady o false s (onView o s
    (let i := readVS o.b s
     let idx := elemsOf 4 (srcBytes s i.1 4)
     let n := sizeBytes m.size
     match laneTargets s o m idx .ld with
     | .error e => stopBody s e
     | .ok ts =>
       match (if checkedBefore ph s then none else laneChecks s n ts) with
       | some e => .trap s e
       | none =>
         match laneHomes s 0 ts 0 with
         | .error e => stopChecked s e
         | .ok hs =>
           let ps := hs.flatMap lanePieces
           let inReg := (ts.zip hs).flatMap (fun p => if (specRegion s p.1.x).isSome then lanePieces p.2 else [])
           if ownTouches s s.cur.1 s.cur.2 true ps || ownTouches s s.cur.1 s.cur.2 false inReg then .hold s .room 1
           else
             match laneFar s ts hs with
             | some e => .trap s e
             | none =>
               match laneBad s ts hs with
               | some (g, e) => .trap (uncRec s s.cur.1 (actBerthNo (curCore s)) g 2) e
               | none =>
                 let out := fun (l : List (List Byte)) => l.flatMap (fun b => leBytes 4 (leNat b))
                 match gatherLanes n (ts.foldl (fun u t => noteAcc u t.x) i.2) (ts.zip hs) with
                 | none => overflowBody s
                 | some (s1, l) => .fin (writeVD o.d (out l) { s1 with fresh := s1.fresh + 1 }) none))
def execVgath (o : Ops) (m : MemMod) (s : State) : Host.Outcome State Fault Refusal :=
  issue (.vgath o m) o .execute false (vgathBody o m) s

/-- The store of one lane of a scatter outside a speculative region (R188): posted, or sent to a peer. -/
def scatterOne (s : State) (t : Target) (h : Loc) (bs : List Byte) : State :=
  match h with
  | .peer dev a => startStore dev t.x.addr a bs .plain [] none s
  | .mixed l => startStores t.x.addr .plain bs (farPieces 0 l) (postStore s (dealNear l bs) t.x.addr none false none)
  | .here ps =>
    if t.x.space = .spx then postStore s [(0, bs)] t.x.addr (some t.x.addr) false none
    else if isRegionAcc s t.x then landPieces s s.cur.1 (actBerthNo (curCore s)) (dealOut ps bs)
    else postStore s (dealOut ps bs) t.x.addr none false none

/-- The lanes of a scatter in ascending order; none: a capacity overflow of the region (R324). -/
def scatterLanes (m : MemMod) : State → List (Target × Loc × List Byte) → Option State
  | s, [] => some s
  | s, (t, h, bs) :: l =>
    match specRegion s t.x with
    | some r =>
      (match regionStore r (regStores {} m t (lanePieces h) bs true s) with
       | none => none
       | some r1 => scatterLanes m (setRegion s r1) l)
    | none => scatterLanes m (scatterOne s t h bs) l

/-- VSCAT (R188). -/
def vscatBody (o : Ops) (m : MemMod) (ph : Phase) (s : State) : Body :=
  onReady o true s (onView o s
    (let i := readVS o.b s
     let idx := elemsOf 4 (srcBytes s i.1 4)
     let d := readVD o.d i.2
     let n := sizeBytes m.size
     match laneTargets s o m idx .st with
     | .error e => stopBody s e
     | .ok ts =>
       match (if checkedBefore ph s then none else laneChecks s n ts) with
       | some e => .trap s e
       | none =>
         match laneHomes s 1 ts 0 with
         | .error e => stopChecked s e
         | .ok hs =>
           let bss := (elemsOf 4 d.1).map (fun v => leBytes n v)
           let s1 := ts.foldl (fun u t => noteAcc u t.x) d.2
           match laneFar s ts hs with
           | some e => .trap s e
           | none =>
             if (ts.any (fun t => isRegionAcc s t.x && (specRegion s t.x).isNone)) && ownTouches s s.cur.1 s.cur.2 false (hs.flatMap lanePieces) then
               .hold s .room 1
             else
               match scatterLanes m s1 ((ts.zip hs).zip bss |>.map (fun p => (p.1.1, p.1.2, p.2))) with
               | none => overflowBody s
               | some s2 => .fin s2 none))
def execVscat (o : Ops) (m : MemMod) (s : State) : Host.Outcome State Fault Refusal :=
  issue (.vscat o m) o .execute true (vscatBody o m) s

/-- PREF (R189): its operands are read; the translation of its page may enter the station cache, and nothing else changes. -/
def prefBody (o : Ops) (_ : Phase) (s : State) : Body :=
  onReady o false s
    (let a := readSrc o.a s
     let b := readSrc o.b a.2
     let v := a.1 + b.1
     .fin (if fieldAt v.toNat 48 16 = 0 then noteTlb b.2 (stationNo s.cur.1) (curBerth s).pasid v.toNat else b.2) none)
def execPref (o : Ops) (s : State) : Host.Outcome State Fault Refusal := issue (.pref o) o .both false (prefBody o) s

end Sys2Proof.Machine
end

