-- ==== Sys2Proof/Machine/RemoteOps.lean ====
section
/-! DEFINITION. RLD, RST, TABWAIT and TABTEST (R352 to R363). -/

namespace Sys2Proof.Machine

/-- Device and virtual address of a fabric address (R352). -/
def fabDev (a : W64) : Nat := fieldAt a.toNat 56 8
def fabVa (a : W64) : Nat := fieldAt a.toNat 0 48

/-- The CHECKED region in which a remote access falls (R354). -/
def remoteChecked (s : State) (va n : Nat) : Option (Nat × ILock) :=
  let g := curGraph s
  ((List.range g.ilock.length).zip g.ilock).find? (fun p =>
    decide (p.2.mode = 1 ∧ p.2.space = spaceCode .glb) && rangesMeet p.2.base p.2.len va n)

/-- Steps 1 to 4 of R354. The supervisor routine is not checked against the table (R383). -/
def remoteChecks (s : State) (a : W64) (n : Nat) : Option TrapIn :=
  if a.toNat % n ≠ 0 then some (trapAt 0x0206 a 0)
  else if fieldAt a.toNat 48 8 ≠ 0 then some (trapAt 0x0204 a 0)
  else if devBad s (fabDev a) then some (trapAt 0x0503 a 0)
  else
    match (if supNow s then none else remoteChecked s (fabVa a) n) with
    | some (i, _) => some (trapAt 0x0304 a (fabricInfo i (amGet 0 (curBerth s).sects i) (loadEng s false)))
    | none => if regionOpen s then some (trapAt 0x0304 a (lockInfo 0xFF 0 (loadEng s false) 2)) else none

/-- RLD (R355). To the device itself, and as a release, it follows the stream's earlier stores (R186, R283). -/
def rldBody (o : Ops) (m : MemMod) (ph : Phase) (s : State) : Body :=
  onReady o false s
    (let r := readSrc o.a s
     let q := readSrc o.b r.2
     let a := r.1 + q.1
     let n := sizeBytes m.size
     let wait := fun (start : State → State) => remoteWait ph (m.sync != .plain) m.trio start s (fun rs s1 =>
       .fin (trioPred m.trio true (putLoad o m.sx false (layReplies [] rs) (readSrc o.b (readSrc o.a s1).2).2)) none)
     if (heldRop s).isSome then wait id
     else
       match remoteChecks s a n with
       | some t => .trap s t
       | none =>
         if (fabDev a = selfId s ∨ isRelease m.sync = true) ∧ (ownPosted s s.cur.1 s.cur.2).isEmpty = false then .hold s .room 0
         else wait (startLoad (fabDev a) a (fabVa a) n m.sync))
def execRld (o : Ops) (m : MemMod) (s : State) : Host.Outcome State Fault Refusal := issue (.rld o m) o .both false (rldBody o m) s

/-- The tablets a CARRY names, registers with V = 0 left out (R355). -/
def carried (t : Stream) (carry : BitVec 2) : List (BitVec 32) :=
  (match carry.toNat with
   | 1 => [t.tcr0]
   | 2 => [t.tcr0, t.tcr1]
   | 3 => [t.tlast]
   | _ => []).filterMap id

/-- The answer to the HOLD that the stream that issues has sent for a tablet. -/
def holdAnswer (s : State) (t : BitVec 32) : Option ROp :=
  s.fabric.rops.find? (fun r => r.held && r.core == s.cur.1 && r.pilot == s.cur.2 && r.kind == .tab && r.qtab == t)

/-- HOLD sent to a tablet's device for a store to a device, and the wait for its answer (R360). -/
def askHold (s : State) (t : BitVec 32) (dev : Nat) : State × WaitWhy :=
  let r := newRop s .tab (tabDev t) 0 true none t
  (sendPkt (updRop r.2 r.1 (fun q => { q with qdst := dev })) (tabDev t) (.hold t dev), .remote r.1)

/-- What R360 says of the tablets to be carried. An own tablet that died while the RST waited is dead as one of which the answer to HOLD
says so (DEDUCED, log entry 72). -/
inductive CarryPlan where
  | go (tabs : List (BitVec 32))
  | wait (s : State) (why : WaitWhy)
  | dead (t : BitVec 32)
  | fail (t : TrapIn)

def planCarry (s : State) (dev : Nat) : List (BitVec 32) → List (BitVec 32) → CarryPlan
  | [], done => .go done
  | t :: l, done =>
    if tabDev t = selfId s then
      match rackStatus s t with
      | 0 =>
        let e := rackOf s (tabIdx t)
        if e.holders.contains dev || decide (e.holders.length < 8) then planCarry s dev l (done ++ [t]) else .wait s .room
      | 2 => .dead t
      | _ => planCarry s dev l done
    else
      match holdAnswer s t with
      | none => let q := askHold s t dev; .wait q.1 q.2
      | some r =>
        match r.rep with
        | some (.tablet 0) => planCarry s dev l done
        | some (.tablet 1) => planCarry s dev l (done ++ [t])
        | some (.tablet 2) => .dead t
        | some (.trap code) => .fail { code := code, addr := some r.va }
        | some _ =>
          let q := askHold (updFab s (fun f => { f with rops := f.rops.filter (fun q => q.id != r.id) })) t dev
          .wait q.1 q.2
        | none => .wait s (.remote r.id)

/-- The destination is put on record for the tablets of this device (R360). -/
def recordOwn (s : State) (dev : Nat) (tabs : List (BitVec 32)) : State :=
  tabs.foldl (fun t x => if tabDev x = selfId t then (recordHolder t dev x).2 else t) s

/-- The next FREE rack entry in round-robin order (R359). -/
def freeRack (s : State) : Option Nat :=
  ((List.range 4096).map (fun i => (s.fabric.rackNext + i) % 4096)).find? (fun i => (rackOf s i).st == .free)

/-- A new rack entry PENDING for a store to a device (R359). -/
def takeRack (s : State) (i dev : Nat) : State :=
  updFab (setRack s i { st := .pending, gen := (rackOf s i).gen + 1, dst := dev, seq := seqTo s dev, gid := (curBerth s).gid })
    (fun f => { f with rackNext := (i + 1) % 4096 })

/-- OPD and TLAST take a new tablet (R355). -/
def giveTablet (o : Ops) (t : BitVec 32) (s : State) : State :=
  updCur (writeDst o.d (t.setWidth 64) s) (fun x => { x with tlast := some t })

/-- The stream's HOLDs are over. -/
def dropTabs (s : State) : State :=
  updFab s (fun f => { f with rops := f.rops.filter (fun r =>
    !(r.held && r.core == s.cur.1 && r.pilot == s.cur.2 && r.kind == .tab)) })

/-- An RST that carries a dead tablet is not sent: TABLET_EXPIRED, reason 3 (R360, R362). -/
def deadCarry (s : State) (a : W64) (t : BitVec 32) : State :=
  let b := curBerth s
  raiseAsync s b.gid b.task b.ordered
    { code := 0x0501, addr := a, pc := pcNow s, engine := 9, eid := fabDev a, space := 5,
      detail := leBytes 4 t.toNat ++ leBytes 1 (fabDev a) ++ leBytes 1 3 ++ leBytes 2 0 ++ leBytes 8 a.toNat }

/-- RST (R354, R355, R360, R374). -/
def rstBody (o : Ops) (m : RstMod) (ph : Phase) (s : State) : Body :=
  onReady o true s
    (let r := readSrc o.a s
     let q := readSrc o.b r.2
     let d := readSrc o.d q.2
     let a := r.1 + q.1
     let n := sizeBytes m.size
     let sent := s.fabric.rops.find? (fun r => r.held && r.core == s.cur.1 && r.pilot == s.cur.2 && r.kind == .store)
     let tabs := carried (curStream s) m.carry
     match sent with
     | some h => remoteWait ph true m.trio id s (fun _ s1 =>
         .fin (trioPred m.trio true (match h.tab with
           | some i => giveTablet o (tabletOf s1 i) (readSrc o.d (readSrc o.b (readSrc o.a s1).2).2).2
           | none => (readSrc o.d (readSrc o.b (readSrc o.a s1).2).2).2)) none)
     | none =>
       match (if checkedBefore ph s then none else remoteChecks s a n) with
       | some t => .trap s t
       | none =>
         match (if checkedBefore ph s then none else tabs.find? (fun t => tabDev t == selfId s && rackStatus s t == 2)) with
         | some t => .trap s { code := 0x0501, addr := some a, info := t.setWidth 64 }
         | none =>
           if m.sync ≠ .plain ∧ (ownPosted s s.cur.1 s.cur.2).isEmpty = false then .hold s .room 1
           else
           match planCarry s (fabDev a) tabs [] with
           | .wait s1 why => .hold s1 why 1
           | .fail t => .trap s t
           | .dead t => .fin (deadCarry (dropTabs d.2) a t) none
           | .go use =>
             match (if m.tab then (freeRack s).map some else some none) with
             | none => .hold s .room (match waitNow s with | some w => max 2 w.aux | none => 2)
             | some tab =>
               let bs := w64Bytes n d.1
               if m.sync = .plain then
                 let s1 := recordOwn (dropTabs d.2) (fabDev a) use
                 let s2 := match tab with | some i => takeRack s1 i (fabDev a) | none => s1
                 let s3 := startStore (fabDev a) a (fabVa a) bs .plain use tab s2
                 .fin (match tab with | some i => giveTablet o (tabletOf s3 i) s3 | none => s3) none
               else
                 let s1 := recordOwn (dropTabs s) (fabDev a) use
                 let s2 := match tab with | some i => takeRack s1 i (fabDev a) | none => s1
                 .hold (startStore (fabDev a) a (fabVa a) bs m.sync use tab s2) .timed 1)
def execRst (o : Ops) (m : RstMod) (s : State) : Host.Outcome State Fault Refusal := issue (.rst o m) o .both true (rstBody o m) s

/-- A question about another device's tablet sent (R363). -/
def startQuery (t : BitVec 32) (s : State) : State :=
  let r := newRop s .query (tabDev t) (t.setWidth 64) true none t
  sendPkt r.2 (tabDev t) (.query t)

/-- The status that a held question has brought, 3 where none came within REACHTO, or the state in which it is asked (again)
(R363). -/
def askStatus (s : State) (t : BitVec 32) : Except State (Option (Nat × State)) :=
  match heldRop s with
  | none => .error (startQuery t s)
  | some r =>
    match r.rep with
    | some (.tablet n) => .ok (some (n, dropHeld s))
    | some _ => .ok (some (3, dropHeld s))
    | none => if s.fabric.reachto.toNat ≤ s.wall - r.wall then .ok (some (3, dropHeld s)) else .ok none

/-- TABWAIT (R363). -/
def tabwaitBody (o : Ops) (m : Trio) (ph : Phase) (s : State) : Body :=
  onReady o false s
    (let r := readSrc o.a s
     let t := r.1.setWidth 32
     let finish := fun (n : Nat) (s1 : State) =>
       if n = 2 ∨ n = 3 then Body.trap s1 { code := 0x0504, info := t.setWidth 64 }
       else .fin (trioPred m true (readSrc o.a s1).2) none
     if regionOpen s then .trap s (regionMode 2 0xFF)
     else if tabDev t = selfId s then
       timedWait ph (rackStatus s t != 0) m 0x0208 0 s id (finish (rackStatus s t) s)
     else if (heldRop s).isNone ∧ devBad s (tabDev t) then .trap s { code := 0x0503, info := t.setWidth 64 }
     else
       match askStatus s t with
       | .error s1 => .hold s1 .timed 0
       | .ok (some (0, s1)) =>
         if ph = .timeout then timedWait ph false m 0x0208 0 s1 id (finish 0 s1) else .hold (startQuery t s1) .timed 0
       | .ok (some (n, s1)) => finish n s1
       | .ok none => timedWait ph false m 0x0208 0 s dropHeld (finish 0 s))
def execTabwait (o : Ops) (m : Trio) (s : State) : Host.Outcome State Fault Refusal :=
  issue (.tabwait o m) o .both false (tabwaitBody o m) s

/-- TABTEST (R363). -/
def tabtestBody (o : Ops) (m : PredMod) (_ : Phase) (s : State) : Body :=
  onReady o false s
    (let t := (readSrc o.a s).1.setWidth 32
     let finish := fun (n : Nat) (s1 : State) =>
       Body.fin (writeK (writeDst o.d (BitVec.ofNat 64 n) (readSrc o.a s1).2) m.pred (n == 1)) none
     if tabDev t = selfId s then finish (rackStatus s t) s
     else if (heldRop s).isNone ∧ devBad s (tabDev t) then .trap s { code := 0x0503, info := t.setWidth 64 }
     else
       match askStatus s t with
       | .error s1 => .hold s1 (.remote s.fabric.ropNext) 0
       | .ok (some (3, s1)) => .trap s1 { code := 0x0504, info := t.setWidth 64 }
       | .ok (some (n, s1)) => finish n s1
       | .ok none => .hold s (.remote (((heldRop s).map (·.id)).getD 0)) 0)
def execTabtest (o : Ops) (m : PredMod) (s : State) : Host.Outcome State Fault Refusal :=
  issue (.tabtest o m) o .both false (tabtestBody o m) s

end Sys2Proof.Machine
end

