-- ==== Sys2Proof/Machine/Atomics.lean ====
section
/-! DEFINITION. Atomics, atomic regions and TSPAWN (R307 to R332). -/

namespace Sys2Proof.Machine

/- The contention predictor (R313). -/

/-- A core's predictor notes a loss of its cluster: the second within 2 µs makes the line contested; one that has gone 16 µs without a
loss was quiet before this one (R313). -/
def noteLoss (wall line : Nat) (k : Core) : Core :=
  let e := (k.pred.find? (fun p => p.line == line)).getD { line := line }
  let losses := wall :: e.losses.filter (fun w => decide (wall < w + 2000))
  let still := e.contested && e.losses.any (fun w => decide (wall < w + 16000))
  let e1 := { e with losses := losses.take 2, contested := still || decide (2 ≤ losses.length) }
  { k with pred := (e1 :: k.pred.filter (fun p => p.line != line)).take 32 }

/-- A cluster loses a line it owned: the predictors of its cores note it. -/
def loseLine (s : State) (n line : Nat) : State :=
  let k := clusterOf s n
  if k.owned.contains line then
    (List.range 8).foldl (fun t i => updCore t (8 * n + i) (noteLoss s.wall line))
      (setCluster s n { k with owned := k.owned.filter (· != line) })
  else s

/-- The line is contested in a core's predictor: it is quiet again 16 µs after its last loss (R313). -/
def contested (s : State) (c line : Nat) : Bool :=
  (coreOf s c).pred.any (fun p => p.line == line && p.contested && p.losses.any (fun w => decide (s.wall < w + 16000)))

/-- A line goes to a cluster, or to its memory station (none); every other cluster that owned it loses it. -/
def takeLine (s : State) (n : Option Nat) (line : Nat) : State :=
  let s1 := s.clusters.foldl (fun t p => if some p.1 = n then t else loseLine t p.1 line) s
  match n with
  | some c => let k := clusterOf s1 c; if k.owned.contains line then s1 else setCluster s1 c { k with owned := line :: k.owned }
  | none => s1

/-- The 64-byte lines of pieces. -/
def lineNos (ps : List (Nat × Nat)) : List Nat :=
  (ps.flatMap (fun p => (List.range ((p.1 + p.2 + 63) / 64 - p.1 / 64)).map (· + p.1 / 64))).eraseDups

/-- The lines of an atomic that it is performed NEAR at, by the predictor of its core where PLACE leaves it the choice (R313). -/
def nearLines (s : State) (c : Nat) (spc : Space) (m : AtomMod) (float : Bool) (ps : List (Nat × Nat)) : List Nat :=
  if spc ≠ .glb ∨ float = true then []
  else (lineNos (ps.filter (fun p => decide (p.1 < vaultBase)))).filter (fun l => match m.place with
    | .near => true
    | .home => false
    | .auto => !contested s c l)

/- What R314 and R318 refuse. -/

/-- Memory kinds of R314. -/
def memKind (x : Acc) (tier : Nat) : Nat :=
  match x.space with
  | .sp => 0
  | .spx => 1
  | .vlt => 2
  | .glb => if tier < 2 then 3 else tier + 2

/-- The combination is emulated (R314). -/
def emulated (a : Atom) (kind : Nat) : Bool :=
  let small := (a.op == .fadd && a.ft != .f32)
  match a.op, a.fp with
  | .fadd, _ => if small then kind ≠ 0 ∧ kind ≠ 3 else kind = 4 ∨ kind = 5
  | .redv, false => kind = 1 ∨ kind = 4 ∨ kind = 5
  | .redv, true => kind ≠ 0 ∧ kind ≠ 3
  | _, _ => false

/-- The atomic is a float atomic. -/
def atomFloat (a : Atom) : Bool := a.op == .fadd || a.fp

/-- The ORDRED regions an access touches, whatever region its record names (R293). An update that reaches two of them is held for
the first (DESIGN CHOICE, log entry 69). -/
def ordreds (s : State) (x : Acc) : List (Nat × ILock) :=
  (regionsTouched (curGraph s) { x with only := none }).filter (fun p => p.2.ordred)
def ordredOf (s : State) (x : Acc) : Option (Nat × ILock) := (ordreds s x).head?

/-- The access reaches memory outside every ORDRED region (R318). -/
def pastOrdred (s : State) (x : Acc) : Bool :=
  uncovered ((ordreds s x).map (fun p => (p.2.base, p.2.len))) x.addr.toNat x.n

/-- The ATOMIC regions that an access touches. -/
def atomicRegions (s : State) (x : Acc) : List (Nat × ILock) :=
  (regionsTouched (curGraph s) x).filter (fun p => decide (p.2.mode = 2))

/-- Step 5 of R309: inside a region (R321), in a deterministic launch, to an ORDRED region (R318). The supervisor routine's own
atomics, which R315 has it make, are not refused (R383). -/
def atomRules (s : State) (x : Acc) (a : Atom) (m : AtomMod) : Option TrapIn :=
  let i := ((regionsTouched (curGraph s) x).head?.map (·.1)).getD 0xFF
  let no := fun (d : Nat) => some (trapAt 0x0304 x.addr (lockInfo i (amGet 0 (curBerth s).sects i) x.eng d))
  if supNow s then none
  else if regionOpen s then no 2
  else if (curBerth s).det && (a.op == .xchg || a.op == .cas || m.ret) then no 8
  else if (curBerth s).det && atomFloat a && pastOrdred s x then no 8
  else if m.ret && (ordredOf s x).isSome then no 9
  else none

/-- The tiers of the pages of an access: 0 stands for both DRAM tiers. -/
def tiersOf (l : Loc) : List Nat :=
  match l with
  | .peer _ _ => [3]
  | .mixed l => l.map (fun p => if p.1 < 2 then 0 else p.1)
  | .here ps => ps.map (fun p => if hostBase ≤ p.1 then 2 else 0)

/-- Step 6 of R309 (R314): an EMUL region that the access touches, or the first of its pages on memory where it is emulated. -/
def atomEmul (s : State) (x : Acc) (a : Atom) (i : Instr) (tiers : List Nat) : Option TrapIn :=
  let kind := if (atomicRegions s x).any (fun p => p.2.emul) then some 6 else (tiers.map (memKind x)).find? (emulated a)
  match kind, partsOf i with
  | some k, some (c, _, v) => some (trapAt 0x0305 x.addr ((opcCode c).toNat + modCode v * 2 ^ 8 + k * 2 ^ 24))
  | _, _ => none

/-- Another core's irrevocable region of the graph makes an atomic to an ATOMIC region wait (R327). -/
def atomHeldBack (s : State) (gid c : Nat) : Bool :=
  match (graphOf s gid).commitPt with
  | some d => decide (d ≠ c)
  | none => false

/-- An atomic at its place (R313): what it found, and the state. near: the lines of which the core's cluster takes ownership; the
others go to their memory stations. -/
def atomHere (s : State) (c : Nat) (b : BitVec 2) (a : Atom) (near : List Nat) (ps : List (Nat × Nat)) : List Byte × State :=
  let s1 := (lineNos (ps.filter (fun p => decide (p.1 < vaultBase)))).foldl (fun t l =>
    takeLine t (if near.contains l then some (clusterNo c) else none) l) s
  performAtom s1 c b a ps

/-- An atomic of the stream that issues (R309 to R318). One to an ORDRED region is held at its home, an SPX one too (R293).
Aligned to its size it lies on one page, but for an AREDV, which is emulated where a page of it is a peer's (R314). mk: the atomic from the state after its address is read. -/
def atomBody (i : Instr) (o : Ops) (m : AtomMod) (mk : State → Atom) (ph : Phase) (s : State) : Body :=
  onReady o false s (onView o s
    (let a := mk s
     let e := a.e
     let n := atomLen a
     let read := fun (s : State) => target s o .glb e n .atom .plain (if a.op = .redv then 3 else 1)
     let fin := fun (old : List Byte) (s1 : State) => Body.fin (if m.ret then writeDst o.d (atomOld a old) s1 else s1) none
     let far := fun (start : State → State) => remoteWait ph false {} start s (fun rs s1 => fin (layReplies [] rs) (read s1).2)
     let t := read s
     if (heldRop s).isSome then far id else
     match t.1 with
     | .error st => stopBody s st
     | .ok g =>
       match (if checkedBefore ph s then (if g.x.space = .spx then reachCheck s g.x else none)
              else if g.x.addr.toNat % (if a.op = .redv then 16 else e) ≠ 0 then some (trapAt 0x0206 g.x.addr 0)
              else match g.bad with
                | some b => some b
                | none => match reachCheck s g.x with | some b => some b | none => lockCheck s g.x) with
       | some b => .trap s b
       | none =>
         match locate s g.x 1 with
         | .error st => stopChecked s st
         | .ok loc =>
           match atomRules s g.x a m with
           | some b => .trap s b
           | none =>
             match atomEmul s g.x a i (tiersOf loc) with
             | some b => .trap s b
             | none =>
               let early := !(ownPosted s s.cur.1 s.cur.2).isEmpty || (m.scope == .fabric && !remoteDone s)
               match loc with
               | .mixed _ => .trap s (trapAt 0x0206 g.x.addr 0)
               | .peer dev p =>
                 if devBad s dev then .trap s (trapAt 0x0503 g.x.addr 0)
                 else if early then .hold s .room 1
                 else if m.ret then far (startAtom dev g.x.addr p a true)
                 else .fin (startAtom dev g.x.addr p a false t.2) none
               | .here ps =>
                 let inReg := !(atomicRegions s g.x).isEmpty
                 let near := nearLines s s.cur.1 g.x.space m (atomFloat a) ps
                 let ordred := if atomFloat a then (ordredOf s g.x).map (·.1) else none
                 let s2 := noteAcc t.2 g.x
                 if m.ret ∨ (g.x.space = .spx ∧ ordred.isNone) then
                   if early || (inReg && atomHeldBack s (curBerth s).gid s.cur.1) then .hold s .room 1
                   else
                     match badTrap s g.x (granules ps) with
                     | some b => b
                     | none => let r := atomHere s2 s.cur.1 (actBerthNo (curCore s)) a near ps; fin r.1 r.2
                 else if m.scope = .fabric ∧ remoteDone s = false then .hold s .room 1
                 else
                   let s3 := postStore s2 (ps.map (fun p => (p.1, List.replicate p.2 0))) g.x.addr none false (some a)
                   .fin { s3 with posted := updAt s3.posted (s3.posted.length - 1) (fun p =>
                     { p with ordred := ordred, near := near, region := inReg }) } none))

/-- Element size of an integer atomic or an AREDV (R309). -/
def atomSize (m : AtomMod) (float : Bool) : Nat :=
  if float then (match m.ftype with | .f32 => 4 | _ => 2) else sizeBytes m.size

/-- The register after OPD. -/
def nextReg (o : Operand) (s : State) : W64 :=
  match o with
  | .s n => readS s (n + 1)
  | _ => 0

/-- An integer atomic (R310). -/
def intAtom (op : AtomOp) (o : Ops) (m : AtomMod) (s : State) : Atom :=
  { op := op, e := sizeBytes m.size, x := (readSrc o.d s).1, y := nextReg o.d s, sgn := m.sgn }

def aaddBody (o : Ops) (m : AtomMod) : Phase → State → Body := atomBody (.aadd o m) o m (intAtom .add o m)
def execAadd (o : Ops) (m : AtomMod) (s : State) : Host.Outcome State Fault Refusal :=
  issue (.aadd o m) o .execute true (aaddBody o m) s

def aminBody (o : Ops) (m : AtomMod) : Phase → State → Body := atomBody (.amin o m) o m (intAtom .min o m)
def execAmin (o : Ops) (m : AtomMod) (s : State) : Host.Outcome State Fault Refusal :=
  issue (.amin o m) o .execute true (aminBody o m) s

def amaxBody (o : Ops) (m : AtomMod) : Phase → State → Body := atomBody (.amax o m) o m (intAtom .max o m)
def execAmax (o : Ops) (m : AtomMod) (s : State) : Host.Outcome State Fault Refusal :=
  issue (.amax o m) o .execute true (amaxBody o m) s

def aandBody (o : Ops) (m : AtomMod) : Phase → State → Body := atomBody (.aand o m) o m (intAtom .and o m)
def execAand (o : Ops) (m : AtomMod) (s : State) : Host.Outcome State Fault Refusal :=
  issue (.aand o m) o .execute true (aandBody o m) s

def aorBody (o : Ops) (m : AtomMod) : Phase → State → Body := atomBody (.aor o m) o m (intAtom .or o m)
def execAor (o : Ops) (m : AtomMod) (s : State) : Host.Outcome State Fault Refusal :=
  issue (.aor o m) o .execute true (aorBody o m) s

def axorBody (o : Ops) (m : AtomMod) : Phase → State → Body := atomBody (.axor o m) o m (intAtom .xor o m)
def execAxor (o : Ops) (m : AtomMod) (s : State) : Host.Outcome State Fault Refusal :=
  issue (.axor o m) o .execute true (axorBody o m) s

def axchgBody (o : Ops) (m : AtomMod) : Phase → State → Body := atomBody (.axchg o m) o m (intAtom .xchg o m)
def execAxchg (o : Ops) (m : AtomMod) (s : State) : Host.Outcome State Fault Refusal :=
  issue (.axchg o m) o .execute true (axchgBody o m) s

def acasBody (o : Ops) (m : AtomMod) : Phase → State → Body := atomBody (.acas o m) o m (intAtom .cas o m)
def execAcas (o : Ops) (m : AtomMod) (s : State) : Host.Outcome State Fault Refusal :=
  issue (.acas o m) o .execute true (acasBody o m) s

/-- AFADD (R311). -/
def afaddBody (o : Ops) (m : AtomMod) : Phase → State → Body :=
  atomBody (.afadd o m) o m (fun s => { op := .fadd, e := atomSize m true, x := (readSrc o.d s).1, ft := m.ftype })
def execAfadd (o : Ops) (m : AtomMod) (s : State) : Host.Outcome State Fault Refusal :=
  issue (.afadd o m) o .execute true (afaddBody o m) s

/-- AREDV (R312). -/
def aredvBody (o : Ops) (m : AtomMod) : Phase → State → Body :=
  atomBody (.aredv o m) o m (fun s =>
    { op := .redv, e := atomSize m m.fp, vec := (readVD o.d s).1, fp := m.fp, ft := m.ftype })
def execAredv (o : Ops) (m : AtomMod) (s : State) : Host.Outcome State Fault Refusal :=
  issue (.aredv o m) o .execute true (aredvBody o m) s

/- Regions (R319 to R327). -/

/-- Region entries of the signal box in use (R319). -/
def regionCount (s : State) : Nat :=
  (s.cores.filter (fun p => p.2.region.isSome)).length
    + (s.graphs.map (fun g => (g.ords.filter (fun o => o.region.isSome)).length)).foldl (· + ·) 0

/-- AREG (R319). -/
def aregBody (o : Ops) (_ : Phase) (s : State) : Body :=
  onReady o false s
    (let r := readSrc o.a s
     if regionOpen s then .trap s (regionMode 5 0xFF)
     else if (curBerth s).det then .trap s (regionMode 8 0xFF)
     else if 512 ≤ regionCount s then .hold s .room 0
     else
       let s1 := writeDst o.d 0 r.2
       let t := curStream s1
       .fin (setRegion s1 { gid := (curBerth s).gid, target := relTarget s r.1, restart := nextPc s o, cpS := t.s, cpK := t.k, opd := o.d,
                            startCyc := cycOf s s.cur.1 }) none)
def execAreg (o : Ops) (s : State) : Host.Outcome State Fault Refusal := issue (.areg o) o .execute false (aregBody o) s

/-- The held messages of a committed region leave in program order; from the first that finds no slot on they wait at the
core, with the sequence numbers they have taken (R325). -/
def sendHeld (s : State) (c : Nat) (k : Berth) : List Msg → State
  | [] => s
  | m :: t =>
    if (coreOf s c).handoff.isEmpty && hasSlot s m then sendHeld (leaveMsg s k m) c k t
    else
      let r := nextSeq s k m.route
      sendHeld (updCore r.2 c (fun x => { x with handoff := x.handoff ++ [{ m with seq := r.1 }] })) c k t

/-- A commit's stores written in program order, and its messages sent (R325). -/
def writeRegion (s : State) (c : Nat) (b : BitVec 2) (k : Berth) (stores : List RStore) (held : List Msg) : State :=
  sendHeld (landPieces s c b (stores.map (fun x => (x.addr, x.bytes)))) c k held

/-- A commit of the graph may go on: no other core holds its commit point (R327). -/
def commitFree (s : State) (gid c : Nat) : Bool :=
  match (graphOf s gid).commitPt with
  | none => true
  | some d => decide (d = c)

def closeRegion (s : State) : State := updCurCore s (fun k => { k with region := none })

/-- The region of the stream that issues aborts, at once or when the queue of its OPD has room (R320). -/
def abortNow (s : State) (c : Nat) (r : Region) (a : Abort) : State :=
  let s1 := tryAbort s c r a
  if (curCore s1).region.isSome then s1 else afterStep s1

/-- ACOMMIT (R319, R325, R327), releasing (R317). -/
def acommitBody (_o : Ops) (m : PredMod) (_ : Phase) (s : State) : Body :=
  match (if explicitOpen s then (curCore s).region else none) with
  | none => .trap s (regionMode 6 0xFF)
  | some r =>
    let c := s.cur.1
    let k := curBerth s
    let asks := setRegion s { r with commit := true, pred := m.pred }
    if r.irrevocable then
      if (ownPosted s c false).isEmpty = false then .hold s .room 0
      else .fin (writeK (updGraph (closeRegion s) k.gid (fun g => { g with commitPt := none })) m.pred true) none
    else if (ownPosted s c false).isEmpty = false ∨ commitFree s k.gid c = false then .hold asks .commit 0
    else
      match validate s c k r with
      | .ok stores => .fin (writeK (writeRegion (closeRegion (repairTags s r)) c (actBerthNo (curCore s)) k stores r.held) m.pred true) none
      | .error cause =>
        .ended (abortNow s c { r with pred := m.pred } { cause := BitVec.ofNat 64 cause, atCommit := true })
def execAcommit (o : Ops) (m : PredMod) (s : State) : Host.Outcome State Fault Refusal :=
  issue (.acommit o m) o .execute false (acommitBody o m) s

/-- AABORT (R320, R327). -/
def aabortBody (o : Ops) (_ : Phase) (s : State) : Body :=
  onReady o false s
    (match (if explicitOpen s then (curCore s).region else none) with
     | none => .trap s (regionMode 6 0xFF)
     | some r =>
       let u := readSrc o.a s
       if r.irrevocable then .trap s { code := 0x0306, info := BitVec.ofNat 64 (2 * 2 ^ 24) }
       else
         .ended (abortNow u.2 s.cur.1 r { cause := 5 + 256 * u.1 }))
def execAabort (o : Ops) (s : State) : Host.Outcome State Fault Refusal := issue (.aabort o) o .execute false (aabortBody o) s

/- Ordered tasks (R328 to R332). -/

/-- The uncommitted task of the lowest key (R330). -/
def commitFront (g : Graph) : Option Nat :=
  (List.range g.ords.length).foldl (fun best i =>
    match g.ords[i]? with
    | some o =>
      if o.st = .committed ∨ o.st = .discarded then best
      else match best with
        | none => some i
        | some j => (match g.ords[j]? with | some p => if keyBelow o p i j then some i else best | none => some i)
    | none => best) none

/-- Ordered tasks started and uncommitted, one that waits to be re-run among them (R332). -/
def ordStarted (g : Graph) : Nat :=
  (g.ords.filter (fun o => o.st == .running || o.st == .awaiting || (o.st == .accepted && decide (0 < o.runs)))).length

/-- TSPAWN (R328, R332). Its payload holds what the stream's earlier atomics leave (R285). -/
def tspawnBody (o : Ops) (_ : Phase) (s : State) : Body :=
  onReady o true s
    (let a := readSrc o.a s
     let b := readSrc o.b a.2
     let d := readSrc o.d b.2
     let k := curBerth s
     let g := curGraph s
     let ts := a.1.toNat
     let n := b.1.toNat
     let p := d.1.toNat
     let low : Bool := if k.ordered then (match g.ords[k.task]? with | some x => decide (ts < x.ts) | none => false)
       else (match k.lastSpawn with | some x => decide (ts < x) | none => false)
     orTrap [(decide (2 ^ 48 ≤ ts), { code := 0x0102, info := 8 }), (decide (256 < n), { code := 0x0102, info := 9 }),
             (decide (p % 16 ≠ 0), trapAt 0x0206 d.1 0), (!inAlloc s p n, trapAt 0x0201 d.1 0), (!g.hasOrd, regionMode 7 0xFF),
             (k.det, regionMode 8 0xFF), (explicitOpen s, regionMode 2 0xFF), (low, { code := 0x0102, info := 8 })] s
       (if k.ordered ∧ commitFront g ≠ some k.task ∧ g.ocap ≤ ordStarted g then .hold s .room 0
        else
          afterAtoms s p n (match spBad s p n with
          | some gr => spUnc s gr
          | none =>
            let x : OTask := { ts := ts, spawner := if k.ordered then 0xFFFF else k.lcore, payload := spSeen s p n,
                               parent := if k.ordered then some k.task else none }
            let s1 := updGraph d.2 k.gid (fun g => { g with ords := g.ords ++ [x] })
            .fin (if k.ordered then s1 else updCurBerth s1 (fun b => { b with lastSpawn := some ts })) none)))
def execTspawn (o : Ops) (s : State) : Host.Outcome State Fault Refusal := issue (.tspawn o) o .execute true (tspawnBody o) s

end Sys2Proof.Machine
end

