-- ==== Sys2Proof/Machine/Sync.lean ====
section
/-! DEFINITION. Fences, hardware and async barriers, FEWAIT and WMARK (R294 to R304). -/

namespace Sys2Proof.Machine

/-- Every store of the stream that issues is visible at a scope (R284): all are performed, and at FABRIC scope those to other
devices acknowledged. -/
def storesVisible (s : State) (fabric : Bool) : Bool :=
  (ownPosted s s.cur.1 s.cur.2).isEmpty && (!fabric || remoteDone s)

/-- No engine operation that the stream issued is unfinished (R287, R295). -/
def engineJoined (s : State) : Bool :=
  let c := s.cur.1
  s.copies.all (fun k => decide (k.core ≠ c ∨ k.pilot ≠ s.cur.2 ∨ k.st = .failed))
    && (s.cur.2 || ((curCore s).mat.queue.isEmpty && s.net.reqs.all (fun r => r.core != c)))

/-- FENCE (R294 to R296). -/
def fenceBody (_o : Ops) (m : FenceMod) (_ : Phase) (s : State) : Body :=
  if (m.eng && !engineJoined s) || (m.kind != .acq && !storesVisible s (m.scope == .fabric)) then .hold s .room 0
  else .fin s none
def execFence (o : Ops) (m : FenceMod) (s : State) : Host.Outcome State Fault Refusal :=
  issue (.fence o m) o .execute false (fenceBody o m) s

/- Hardware barriers (R297 to R300). -/

/-- The regions of the graph that a barrier shape governs (R291). -/
def governed (s : State) (h : Shape) : List ILock :=
  (curGraph s).ilock.filter (fun l => decide (l.mode = 1 ∧ l.gov = 1 ∧ l.shape = shapeCode h))

/-- A copy of the core still meets a region that the shape governs: an arrival waits for it (R291). -/
def copyMeets (s : State) (h : Shape) : Bool :=
  let gid := (curBerth s).gid
  (s.copies.filter (fun k => decide (k.core = s.cur.1 ∧ k.gid = gid ∧ k.st ≠ .failed))).any (fun k =>
    (governed s h).any (fun l =>
      (decide (spaceCode k.srcSp = l.space) && k.rd.any (fun r => rangesMeet l.base l.len r.1 r.2))
        || (decide (spaceCode k.dstSp = l.space) && k.wr.any (fun r => rangesMeet l.base l.len r.1 r.2))))

/-- The access to memory at which the pilot is held, its checks behind it (R185). -/
def pilotAccess (s : State) : Option Acc :=
  let t := { s with cur := (s.cur.1, true) }
  let acc := fun (o : Ops) (m : MemMod) (spc : Space) (load : Bool) =>
    match (target t o spc (2 ^ m.scale.toNat) (sizeBytes m.size) (syncKind load m.sync) m.sync 2).1 with
    | .ok g => some g.x
    | .error _ => none
  match (curCore s).pi.wait with
  | some w =>
    if hasIssued w then
      (match w.instr with
       | .ldv o m => acc o m .vlt true
       | .ldg o m => acc o m .glb true
       | .ldx o m => acc o m .sp true
       | .stv o m => acc o m .vlt false
       | .stg o m => acc o m .glb false
       | .stx o m => acc o m .sp false
       | .launch o => (match o.a with
         | .b n => (match recTarget t n.toNat 0 1 64 .ld .plain 2 with | .ok g => some g.x | .error _ => none)
         | _ => none)
       | _ => none)
    else none
  | none => none

/-- The access at which the pilot is held reaches a region that the shape governs: an arrival waits for it (R291). -/
def pilotMeets (s : State) (h : Shape) : Bool :=
  match pilotAccess s with
  | some x => (regionsTouched (curGraph s) x).any (fun p => decide (p.2.mode = 1 ∧ p.2.gov = 1 ∧ p.2.shape = shapeCode h))
  | none => false

/-- The stream may arrive: its last phase has completed, its earlier stores are visible and its copies are done (R298, R284); where
the shape governs a region, the pilot stream's earlier accesses are performed too (R291). -/
def mayEnter (s : State) (h : Shape) : Bool :=
  let k := curBerth s
  phaseGe (hGet k.hdone h) (hGet k.hbar h) && storesVisible s false && !copyMeets s h
    && ((governed s h).isEmpty || ((ownPosted s s.cur.1 true).isEmpty && !pilotMeets s h))

/-- The core arrives at its next phase (R298). -/
def arriveBar (h : Shape) (s : State) : State :=
  updCurBerth s (fun k => { k with hbar := hSet k.hbar h (hGet k.hbar h + 1) })

/-- A barrier instruction in an ordered task (R297), or inside a region (R321). -/
def barTrap (s : State) : Option TrapIn :=
  if (curBerth s).ordered then some { code := 0x0102, info := 0 }
  else if regionOpen s then some (regionMode 2 0xFF)
  else none

def onBar (s : State) (k : Body) : Body :=
  match barTrap s with
  | some t => .trap s t
  | none => k

/-- The standing-arrival mark of a shape (R300). -/
def standing (s : State) (h : Shape) : Bool := (curCore s).marks.getLsbD (shapeCode h)
def clearMark (h : Shape) (s : State) : State :=
  updCurCore s (fun c => { c with marks := c.marks &&& ~~~(BitVec.ofNat 4 (2 ^ shapeCode h)) })

/-- What the wait of an HBAR remembers: 1 it has arrived, 2 it has consumed a mark. -/
def barAux (s : State) : Nat := match waitNow s with | some w => w.aux | none => 0

/-- Nothing is left of the HBAR that waits for abandoning it to undo. -/
def forgetBar (s : State) : State := setWait s ((waitNow s).map (fun w => { w with aux := 0 }))

/-- The arrival of the HBAR that waits is withdrawn (R300). -/
def withdraw (h : Shape) (s : State) : State := updCurBerth (forgetBar s) (fun k => { k with hbar := hSet k.hbar h (hGet k.hbar h - 1) })

/-- HBAR (R300). One that finds the mark consumes it at once, and waits for completion alone; abandoned, it leaves the mark as it was
(R130). -/
def hbarBody (_o : Ops) (m : ShapeTrio) (ph : Phase) (s : State) : Body :=
  onBar s
    (let k := curBerth s
     let isOver := phaseGe (hGet k.hdone m.shape) (hGet k.hbar m.shape)
     let done := fun (t : State) => Body.fin (trioPred m.trio true t) none
     if ph ≠ .issue ∧ barAux s = 2 then timedWait ph isOver m.trio 0x0602 2 s forgetBar (done s)
     else if ph ≠ .issue ∧ barAux s = 1 then timedWait ph isOver m.trio 0x0602 1 s (withdraw m.shape) (done s)
     else if standing s m.shape && !supNow s then
       timedWait .issue isOver m.trio 0x0602 2 (clearMark m.shape s) id (done (clearMark m.shape s))
     else timedWait ph (mayEnter s m.shape) m.trio 0x0602 0 s id (.hold (arriveBar m.shape s) .timed 1))
def execHbar (o : Ops) (m : ShapeTrio) (s : State) : Host.Outcome State Fault Refusal :=
  issue (.hbar o m) o .execute false (hbarBody o m) s

/-- HBARA (R300). -/
def hbaraBody (o : Ops) (m : ShapeMod) (_ : Phase) (s : State) : Body :=
  onReady o false s (onBar s
    (if mayEnter s m.shape then
       .fin (writeDst o.d ((hGet (curBerth s).hbar m.shape + 1).setWidth 64) (arriveBar m.shape s)) none
     else .hold s .room 0))
def execHbara (o : Ops) (m : ShapeMod) (s : State) : Host.Outcome State Fault Refusal :=
  issue (.hbara o m) o .execute false (hbaraBody o m) s

/-- HBARW (R300). -/
def hbarwBody (o : Ops) (m : ShapeTrio) (ph : Phase) (s : State) : Body :=
  onReady o false s (onBar s
    (let r := readSrc o.a s
     let n : BitVec 32 := r.1.setWidth 32
     let k := curBerth s
     if phaseGe (hGet k.hbar m.shape) n = false then .trap s { code := 0x0102, info := 8 }
     else timedWait ph (phaseGe (hGet k.hdone m.shape) n) m.trio 0x0602 0 s id (.fin (trioPred m.trio true r.2) none)))
def execHbarw (o : Ops) (m : ShapeTrio) (s : State) : Host.Outcome State Fault Refusal :=
  issue (.hbarw o m) o .execute false (hbarwBody o m) s

/- Async barriers (R190, R301). -/

/-- The 128 bits of a barrier object. -/
def barPend (x : Nat) : Nat := fieldAt x 0 56
def barArmed (x : Nat) : Bool := bitAt x 56
def barFail (x : Nat) : Bool := bitAt x 58
def barFaddr (x : Nat) : Nat := fieldAt x 64 48
def barNpark (x : Nat) : Nat := fieldAt x 112 8
def barGen (x : Nat) : Nat := fieldAt x 120 8

/-- A barrier object from its fields (R190). -/
def barWord (pend : Nat) (armed fault fail : Bool) (faddr npark gen : Nat) : Nat :=
  pend % 2 ^ 56 + bitNat armed * 2 ^ 56 + bitNat fault * 2 ^ 57 + bitNat fail * 2 ^ 58 + faddr % 2 ^ 48 * 2 ^ 64
    + npark % 256 * 2 ^ 112 + gen % 256 * 2 ^ 120

/-- A barrier is complete (R190). -/
def barDone (x : Nat) : Bool := barArmed x && barPend x == 0 && !barFail x

/-- MISALIGNED and SP_BOUNDS of an SP operand of n bytes (R301). -/
def spCheck (s : State) (a : W64) (n : Nat) : Option TrapIn :=
  firstTrap [(decide (a.toNat % 16 ≠ 0), trapAt 0x0206 a 0), (!inAlloc s a.toNat n, trapAt 0x0201 a 0)]

/-- The barrier object as the stream that issues sees it. -/
def barAt (s : State) (a : W64) : Nat := leNat (spSeen s a.toNat 16)

/-- The completion of an arming is observed: the sections that the barrier governs advance (R291). -/
def observeBar (s : State) (a : W64) (gen : Nat) : State :=
  let l := (curGraph s).ilock
  (List.range l.length).foldl (fun t i =>
    match l[i]? with
    | some x =>
      if decide (x.mode = 1 ∧ x.gov = 2) && (match regionOf (curBerth t) x.govReg with | some (ofs, _, _) => decide (ofs + x.govOfs = a.toNat) | none => false) then
        if amFind (curBerth t).gens i = some gen then t
        else updCurBerth t (fun k => { k with sects := amSet k.sects i (amGet 0 k.sects i + 1), gens := amSet k.gens i gen })
      else t
    | none => t) s

/-- A copy or PCE request of the berth that names the barrier is in flight or parked. -/
def barBusy (s : State) (a : Nat) : Bool :=
  s.copies.any (fun k => decide (k.core = s.cur.1 ∧ k.berth = actBerthNo (curCore s) ∧ k.bar = a))

/-- ABARM (R301). -/
def abarmBody (o : Ops) (_ : Phase) (s : State) : Body :=
  onReady o false s
    (let a := readSrc o.a s
     let c := readSrcW o.b true false a.2
     if regionOpen s then .trap s (regionMode 2 0xFF)
     else
       match spCheck s a.1 16 with
       | some t => .trap s t
       | none =>
         if fieldAt c.1.toNat 56 8 ≠ 0 then .trap s { code := 0x0102, info := 9 }
         else if barBusy s a.1.toNat || ownTouches s s.cur.1 s.cur.2 false [(spHome s a.1.toNat, 16)] then .hold s .room 0
         else
           let x := barWord c.1.toNat true false false 0 0 (barGen (barAt s a.1) + 1)
           .fin (landBytes c.2 s.cur.1 (actBerthNo (curCore s)) (spHome s a.1.toNat) (leBytes 16 x)) none)
def execAbarm (o : Ops) (s : State) : Host.Outcome State Fault Refusal := issue (.abarm o) o .execute false (abarmBody o) s

/-- ABWAIT on a barrier, and what follows its observation (R301). -/
def barWait (ph : Phase) (m : Trio) (a : W64) (s : State) (k : Nat → Body) : Body :=
  match spCheck s a 16 with
  | some t => .trap s t
  | none =>
    match spBad s a.toNat 16 with
    | some g => spUnc s g
    | none =>
      let x := barAt s a
      afterAtoms s a.toNat 16 <| timedWait ph (barDone x || barFail x) m 0x0208 0 s id
        (if barFail x then .trap s { code := 0x0402, addr := some (BitVec.ofNat 64 (barFaddr x)) } else k x)

def abwaitBody (o : Ops) (m : Trio) (ph : Phase) (s : State) : Body :=
  onReady o false s
    (let a := readSrc o.a s
     if regionOpen s then .trap s (regionMode 2 0xFF)
     else barWait ph m a.1 s (fun x => .fin (trioPred m true (observeBar a.2 a.1 (barGen x))) none))
def execAbwait (o : Ops) (m : Trio) (s : State) : Host.Outcome State Fault Refusal :=
  issue (.abwait o m) o .execute false (abwaitBody o m) s

/-- ABTEST (R301). -/
def abtestBody (o : Ops) (m : PredMod) (ph : Phase) (s : State) : Body :=
  onReady o false s
    (let a := readSrc o.a s
     let out := fun (x : Nat) =>
       let s1 := if barDone x then observeBar a.2 a.1 (barGen x) else a.2
       Body.fin (writeK (writeDst o.d (BitVec.ofNat 64 (x % 2 ^ 64)) s1) m.pred (barDone x)) none
     if (curBerth s).det then barWait ph { tb := true } a.1 s out
     else
       match spCheck s a.1 16 with
       | some t => .trap s t
       | none =>
         match spBad s a.1.toNat 16 with
         | some g => spUnc s g
         | none => afterAtoms s a.1.toNat 16 (out (barAt s a.1)))
def execAbtest (o : Ops) (m : PredMod) (s : State) : Host.Outcome State Fault Refusal :=
  issue (.abtest o m) o .execute false (abtestBody o m) s

/-- FEWAIT (R302). -/
def fewaitBody (o : Ops) (m : WantTrio) (ph : Phase) (s : State) : Body :=
  onReady o false s
    (let a := readSrc o.a s
     match spCheck s a.1 16 with
     | some t => .trap s t
     | none =>
       let h := spHome s a.1.toNat
       let y : Sync := if m.want then .waite else .waitf
       timedWait ph (syncTurn s y [h / 16] && !ownTouches s s.cur.1 s.cur.2 false [(h, 16)]) m.trio 0x0208 0 s id
         (.fin (trioPred m.trio true a.2) none) [] (some { sync := y, gs := [h / 16] }))
def execFewait (o : Ops) (m : WantTrio) (s : State) : Host.Outcome State Fault Refusal :=
  issue (.fewait o m) o .execute false (fewaitBody o m) s

/-- WMARK (R304, R305). -/
def wmarkBody (o : Ops) (_ : Phase) (s : State) : Body :=
  onReady o false s
    (let r := readSrc o.a s
     let k := curBerth s
     let route : BitVec 32 := r.1.setWidth 32
     if regionOpen s then .trap s (regionMode 2 0xFF)
     else if k.det = false then .fin r.2 none
     else if storesVisible s false = false then .hold s .room 0
     else
       let q := nextSeq r.2 k route
       .fin { q.2 with marksT := q.2.marksT ++
         [{ gid := k.gid, sender := k.lcore, dest := tagDest route, chan := tagChan route, seq := q.1 }] } none)
def execWmark (o : Ops) (s : State) : Host.Outcome State Fault Refusal := issue (.wmark o) o .execute false (wmarkBody o) s

end Sys2Proof.Machine
end

