-- ==== Sys2Proof/Machine/Copies.lean ====
section
/-! DEFINITION. Copies, tensor maps, MCAST and PCE, their landings and their faults (R190 to R202). -/

namespace Sys2Proof.Machine

/- Ranges and checks at issue (R193, R289, R290). -/

/-- A range of an operation to be issued. -/
structure Rng where
  space : Space
  addr : W64
  n : Nat
  write : Bool
  only : Option Nat := none
  deriving DecidableEq, Repr

/-- The access that a range stands for in the checks of R290. -/
def rngAcc (s : State) (eng : Nat) (fill : Bool) (r : Rng) : Acc :=
  { curAcc s r.space r.addr r.n (if r.write then (if fill then .cwf else .cw) else .cr) with eng := eng, only := r.only }

/-- Step 2 to 4 of R193 for one range; of a GLB range the address that breaks R168. -/
def rngSp (s : State) (r : Rng) : Bool := r.space = .sp && !inAlloc s r.addr.toNat r.n
def rngVault (s : State) (r : Rng) : Bool :=
  r.space = .vlt && !grantOk (curBerth s) r.addr.toNat r.n (!r.write) r.write
def rngGlb (s : State) (r : Rng) : Option W64 :=
  let hi := fieldAt r.addr.toNat 48 16
  if r.space ≠ .glb then none
  else if !(hi == 0 || (supNow s && hi == 0x8000)) then some r.addr
  else if 2 ^ 48 < r.addr.toNat % 2 ^ 48 + r.n then some (BitVec.ofNat 64 ((r.addr.toNat / 2 ^ 48 + 1) * 2 ^ 48))
  else none

/-- The first range of a list for which a check fails. -/
def rngFirst (f : Rng → Bool) (code : Nat) (l : List Rng) : Option TrapIn :=
  (l.find? f).map (fun r => trapAt code r.addr 0)

/-- A source and a destination in one space overlap (R193). -/
def rngOverlap (a b : Rng) : Bool := a.space = b.space && rangesMeet a.addr.toNat a.n b.addr.toNat b.n

/-- A range reaches a CHECKED region over a page of a peer (R290). -/
def farCheck (s : State) (x : Acc) : Option TrapIn :=
  if x.space ≠ .glb ∨ x.sup = true then none
  else
    match (regionsTouched (graphOf s (accBerth s x).gid) x).find? (fun p => decide (p.2.mode = 1)) with
    | none => none
    | some (i, _) =>
      let k := glbKey s x
      if (pageCuts (x.n / 4096 + 2) k.2 x.n).any (fun p => match translate s (stationNo x.c) k.1 p.1 {} with
          | .ok (tier, _) => decide (tier = 3)
          | .error _ => false) then
        some (trapAt 0x0304 x.addr (fabricInfo i (amGet 0 (accBerth s x).sects i) x.eng))
      else none

/-- What the interlocking table says of a range (R193, R290). -/
def rngLock (s : State) (x : Acc) : Option TrapIn :=
  match lockCheck s x with
  | some t => some t
  | none => farCheck s x

/-- The checks of R193 at issue, then those of step 3 of R185. words: values that must be multiples of 16. -/
def copyChecks (s : State) (eng : Nat) (fill : Bool) (bar : W64) (words : List W64) (rs ws : List Rng) (selfMeet : Bool) :
    Option TrapIn :=
  let all := rs ++ ws
  match (words ++ all.map (·.addr)).find? (fun w => w.toNat % 16 ≠ 0) with
  | some w => some (trapAt 0x0206 w 0)
  | none =>
    if inAlloc s bar.toNat 16 = false then some (trapAt 0x0201 bar 0)
    else
      match rngFirst (rngSp s) 0x0201 all with
      | some t => some t
      | none =>
        match rngFirst (rngVault s) 0x0202 all with
        | some t => some t
        | none =>
          match all.findSome? (rngGlb s) with
          | some a => some (trapAt 0x0204 a 0)
          | none =>
            if rs.any (fun a => ws.any (rngOverlap a)) || selfMeet then some { code := 0x0402, info := 1 }
            else
              match all.findSome? (fun r => if r.n = 0 then none else rngLock s (rngAcc s eng fill r)) with
              | some t => some t
              | none =>
                if supNow s then none
                else
                  let w := windowsOf s s.cur.1 (actBerthNo (curCore s))
                  (all.findSome? (fun r => firstHit r.space r.addr.toNat r.n r.write w)).map
                    (fun g => trapAt 0x0303 (BitVec.ofNat 64 g.1) g.2)

/-- A block of bytes cut into chunks of 256 (R194). -/
def cutChunks : Nat → Nat → Nat → Nat → Nat → List Chunk
  | 0, _, _, _, _ => []
  | fuel + 1, src, dst, n, dest =>
    if n = 0 then []
    else { src := src, dst := dst, len := min n 256, dest := dest } :: cutChunks fuel (src + 256) (dst + 256) (n - 256) dest
def chunksOf (src dst n dest : Nat) : List Chunk := cutChunks (n / 256 + 1) src dst n dest

/-- Copies of the core that hold a permit (R120), and its PCE requests in flight (R199). -/
def permitsUsed (s : State) (pce : Bool) : Nat :=
  (s.copies.filter (fun k => decide (k.core = s.cur.1) && ((k.kind == .pce) == pce))).length

/-- A copy is issued once a permit is free and the stream's earlier stores are performed (R120, R199, R283). One of 0 bytes waits for a
permit too, and returns it at once (R193). The hub chooses the engine of a PCE request (R199): a free value. -/
def issueCopy (s s1 : State) (k : Copy) : Body :=
  let pce := k.kind == .pce
  if (if pce then 4 else 64) ≤ permitsUsed s pce ∨ (ownPosted s s.cur.1 s.cur.2).isEmpty = false then .hold s .room 1
  else if k.chunks.isEmpty then .fin s1 none
  else
    let k1 := { k with id := s1.copyNext, core := s.cur.1, berth := actBerthNo (curCore s), pilot := s.cur.2,
                       gid := (curBerth s).gid, wall := s.wall, pc := pcNow s,
                       unit := if pce then Config.freeNat (2 ^ 64 + s1.copyNext) % 64 else 0 }
    .fin { s1 with copies := s1.copies ++ [k1], copyNext := s1.copyNext + 1 } none

/-- A copy instruction inside a region (R321). -/
def onCopy (s : State) (k : Body) : Body := if regionOpen s then .trap s (regionMode 2 0xFF) else k

/-- CPY and PCE (R193, R194, R199). The checks are those of the time of issue, after any wait for a permit. -/
def cpyShared (o : Ops) (m : CopyMod) (kind : CopyKind) (_ : Phase) (s : State) : Body :=
  onReady o true s (onCopy s
    (let a := readSrc o.a s
     let c := readSrc o.b a.2
     let d := readSrc o.d c.2
     let bar := BitVec.ofNat 64 (fieldAt c.1.toNat 0 17)
     let n := fieldAt c.1.toNat 32 32
     let r : Rng := { space := m.src, addr := a.1, n := n, write := false }
     let w : Rng := { space := m.dst, addr := d.1, n := n, write := true }
     let eng := if kind = .pce then 6 else 5
     if fieldAt c.1.toNat 17 15 ≠ 0 then .trap s { code := 0x0102, info := 9 }
     else
       match copyChecks s eng m.fill bar [bar, BitVec.ofNat 64 n] [r] [w] false with
       | some t => .trap s t
       | none =>
         issueCopy s d.2 { kind := kind, srcSp := m.src, dstSp := m.dst, fill := m.fill, bar := bar.toNat,
                           chunks := chunksOf a.1.toNat d.1.toNat n 0, rd := [(a.1.toNat, n)], wr := [(d.1.toNat, n)] }))

def cpyBody (o : Ops) (m : CopyMod) : Phase → State → Body := cpyShared o m .cpy
def execCpy (o : Ops) (m : CopyMod) (s : State) : Host.Outcome State Fault Refusal := issue (.cpy o m) o .both true (cpyBody o m) s

def pceBody (o : Ops) (m : CopyMod) : Phase → State → Body := cpyShared o m .pce
def execPce (o : Ops) (m : CopyMod) (s : State) : Host.Outcome State Fault Refusal := issue (.pce o m) o .both true (pceBody o m) s

/-- A block of n bytes in SP, read at issue (R197, R198, R201). -/
def onBlock (s : State) (a : W64) (n : Nat) (k : List Byte → Body) : Body :=
  match spCheck s a n with
  | some t => .trap s t
  | none =>
    match spBad s a.toNat n with
    | some g => spUnc s g
    | none => afterAtoms s a.toNat n (k (spSeen s a.toNat n))

/-- Row i of a strided range (R197). -/
def rowAddr (base : W64) (stride : Int) (i : Nat) : W64 := base + BitVec.ofInt 64 (stride * i)

/-- CPY2 (R197). -/
def cpy2Body (o : Ops) (m : CopyMod) (_ : Phase) (s : State) : Body :=
  onReady o true s (onCopy s
    (let a := readSrc o.a s
     let c := readSrc o.b a.2
     let d := readSrc o.d c.2
     onBlock s c.1 32 (fun bs =>
       let len := leAt bs 0 4
       let rows := leAt bs 4 4
       let ss := signedOf 32 (leAt bs 8 4)
       let ds := signedOf 32 (leAt bs 12 4)
       let bar := BitVec.ofNat 64 (leAt bs 16 4)
       if leAt bs 20 12 ≠ 0 ∨ rows = 0 ∨ 65535 < rows then .trap s { code := 0x0102, info := 9 }
       else
         let is := List.range rows
         let rs : List Rng := is.map (fun i => { space := m.src, addr := rowAddr a.1 ss i, n := len, write := false })
         let ws : List Rng := is.map (fun i => { space := m.dst, addr := rowAddr d.1 ds i, n := len, write := true })
         let meet := decide (1 < rows ∧ 0 < len ∧ ds.natAbs < len)
         match copyChecks s 5 m.fill bar [bar, BitVec.ofNat 64 len, BitVec.ofInt 64 ss, BitVec.ofInt 64 ds] rs ws meet with
         | some t => .trap s t
         | none =>
           issueCopy s d.2 { kind := .cpy2, srcSp := m.src, dstSp := m.dst, fill := m.fill, bar := bar.toNat,
                             chunks := is.flatMap (fun i => chunksOf (rowAddr a.1 ss i).toNat (rowAddr d.1 ds i).toNat len 0),
                             rd := rs.map (fun r => (r.addr.toNat, r.n)), wr := ws.map (fun r => (r.addr.toNat, r.n)) })))
def execCpy2 (o : Ops) (m : CopyMod) (s : State) : Host.Outcome State Fault Refusal :=
  issue (.cpy2 o m) o .both true (cpy2Body o m) s

/- MCAST (R198). -/

/-- The logical cores of the issuer's block in a barrier shape, itself left out (R52, R198). -/
def shapeDests (g : Graph) (lc shape : Nat) : List Nat :=
  let x := lc % g.gridw
  let y := lc / g.gridw
  (List.range (g.gridw * g.gridh)).filter (fun d =>
    let dx := d % g.gridw
    let dy := d / g.gridw
    decide (d ≠ lc ∧ dx / 16 = x / 16 ∧ dy / 16 = y / 16)
      && (match shape with
          | 0 => dy == y
          | 1 => dx == x
          | 2 => true
          | _ => dx == x || dy == y))

/-- MCAST (R198). -/
def mcastBody (o : Ops) (m : CopyMod) (_ : Phase) (s : State) : Body :=
  onReady o true s (onCopy s
    (let a := readSrc o.a s
     let c := readSrc o.b a.2
     let d := readSrc o.d c.2
     onBlock s c.1 32 (fun bs =>
       let n := leAt bs 0 4
       let bar := BitVec.ofNat 64 (leAt bs 4 4)
       let nd := leAt bs 8 2
       let shape := leAt bs 10 1
       let list := leAt bs 12 4
       if leAt bs 11 1 ≠ 0 ∨ leAt bs 16 16 ≠ 0 ∨ (m.mc = true ∧ 3 < shape) ∨ (m.mc = false ∧ (nd = 0 ∨ 32 < nd)) then
         .trap s { code := 0x0102, info := 9 }
       else if m.mc = false ∧ inAlloc s list (2 * nd) = false then .trap s (trapAt 0x0201 (BitVec.ofNat 64 list) 0)
       else
         let lb := spSeen s list (2 * nd)
         let dests := if m.mc then shapeDests (curGraph s) (curBerth s).lcore.toNat shape
           else (List.range nd).map (fun i => leAt lb (2 * i) 2)
         let at' := fun (t : Nat) => BitVec.ofNat 64 (castAddr d.1.toNat t)
         let r : Rng := { space := m.src, addr := a.1, n := n, write := false }
         let ws : List Rng := dests.map (fun t => { space := .spx, addr := at' t, n := n, write := true })
         match (if m.mc then none else spBad s list (2 * nd)) with
         | some g => spUnc s g
         | none =>
         afterAtoms s list (if m.mc then 0 else 2 * nd) <|
         match copyChecks s 5 m.fill bar [bar, BitVec.ofNat 64 n, BitVec.ofNat 64 (d.1.toNat % 2 ^ 48)] [r] ws false with
         | some t => .trap s t
         | none =>
           issueCopy s d.2 { kind := .mcast, srcSp := m.src, dstSp := .spx, fill := m.fill, bar := bar.toNat,
                             chunks := dests.flatMap (fun t => chunksOf a.1.toNat d.1.toNat n t),
                             rd := [(a.1.toNat, n)], wr := dests.map (fun t => ((at' t).toNat, n)) })))
def execMcast (o : Ops) (m : CopyMod) (s : State) : Host.Outcome State Fault Refusal :=
  issue (.mcast o m) o .execute true (mcastBody o m) s

/- Tensor maps (R34, R35, R200 to R202). -/

/-- The fields of a tensor map. -/
structure TMap where
  rank : Nat
  etype : Nat
  win : Bool
  planes : Bool
  pw : Nat
  fill : Nat
  ext : List Nat
  str : List Nat
  span : List Nat
  fr : Nat
  fs : Nat
  sh : Nat
  sw : Nat
  ph : Nat
  pwd : Nat
  dh : Nat
  dw : Nat
  deriving DecidableEq, Repr

def tmapOf (bs : List Byte) : TMap :=
  let ax := fun (i : Nat) => leAt bs (8 + 8 * i) 8
  let w := leAt bs 0x30 4
  { rank := leAt bs 2 1, etype := leAt bs 3 1, win := bitAt (leAt bs 4 1) 0, planes := bitAt (leAt bs 4 1) 1, pw := leAt bs 5 1,
    fill := leAt bs 6 2,
    ext := (List.range 5).map (fun i => fieldAt (ax i) 0 32),
    str := (List.range 5).map (fun i => fieldAt (ax i) 32 24 + (if i = 0 then 0 else leAt bs (0x33 + i) 1 * 2 ^ 24)),
    span := (List.range 5).map (fun i => fieldAt (ax i) 56 8),
    fr := fieldAt w 0 4, fs := fieldAt w 4 4, sh := fieldAt w 8 4, sw := fieldAt w 12 4, ph := fieldAt w 16 4, pwd := fieldAt w 20 4,
    dh := fieldAt w 24 4, dw := fieldAt w 28 4 }

/-- Bytes of an element: S8, N8 and RAW 1, S16 and N16 2 (R201). -/
def tmapElem (t : TMap) : Nat := if t.etype = 1 ∨ t.etype = 4 then 2 else 1

/-- The map and its record pass R35. -/
def tmapOk (bs trec : List Byte) : Bool :=
  let t := tmapOf bs
  decide (t.etype = 0 ∨ t.etype = 1 ∨ t.etype = 3 ∨ t.etype = 4 ∨ t.etype = 13) && decide (leAt bs 4 1 < 4) && decide (leAt bs 0x38 8 = 0)
    && decide (1 ≤ t.rank ∧ t.rank ≤ 5) && (!t.win || decide (3 ≤ t.rank))
    && decide (fieldAt (leAt bs 8 8) 32 24 = 0)
    && (List.range 5).all (fun i => decide (t.ext.getD i 0 ≠ 0) && (decide (i < t.rank) || decide (t.ext.getD i 0 = 1 ∧ t.span.getD i 0 = 0)))
    && (!t.planes || decide (1 ≤ t.pw ∧ t.pw ≤ 16))
    && (!t.win || decide (1 ≤ t.fr ∧ 1 ≤ t.fs ∧ 1 ≤ t.sh ∧ 1 ≤ t.sw ∧ t.ph ≤ 14 ∧ t.pwd ≤ 14 ∧ 1 ≤ t.dh ∧ t.dh ≤ 8 ∧ 1 ≤ t.dw ∧ t.dw ≤ 8
        ∧ t.ph < (t.fr - 1) * t.dh + 1 ∧ t.pwd < (t.fs - 1) * t.dw + 1))
    && (rcdOf trec).isSome

/-- The staged entry of a map (R200). -/
def stagedMap (s : State) (n : Nat) : Option MapEnt :=
  (curCore s).maps.find? (fun e => decide (e.gid = (curBerth s).gid ∧ e.idx = n))

/-- A map and its record, read from memory and checked (R35). -/
def fetchMap (s : State) (n : Nat) : Except Stop (List Byte × List Byte) :=
  let g := curGraph s
  let b := curBerth s
  let bad : Except Stop (List Byte × List Byte) := .error (.trap { code := 0x0404 })
  if g.tmapn ≤ n then bad
  else
    match glbBytes s (stationNo s.cur.1) b.pasid ((g.tmaptab.toNat + 64 * n) % 2 ^ 48) 64 { rd := true } with
    | .error e => .error e
    | .ok bs =>
      match rcdBytes s s.cur.1 b (leAt bs 0 2) with
      | .error (.trap t) => if t.code = 0x0203 then bad else .error (.trap t)
      | .error e => .error e
      | .ok r => if tmapOk bs r then .ok (bs, r) else bad

/-- The map store with an entry for a map as the newest (R200). -/
def stageMap (s : State) (e : MapEnt) : State :=
  updCurCore s (fun c =>
    let rest := c.maps.filter (fun x => !decide (x.gid = e.gid ∧ x.idx = e.idx))
    let live := fun (x : MapEnt) => c.berths.toList.any (fun b => decide (b.gid = x.gid ∧ b.state ≠ .free))
    let room := if rest.length < 8 then rest
      else match rest.findIdx? (fun x => !live x) with
        | some i => dropAt rest i
        | none => rest.tail
    { c with maps := room ++ [e] })

/-- TMAPS (R200). -/
def tmapsBody (o : Ops) (_ : Phase) (s : State) : Body :=
  onReady o false s
    (let a := readSrc o.a s
     let n := a.1.toNat
     match stagedMap s n with
     | some e => .fin (stageMap a.2 e) none
     | none =>
       match fetchMap s n with
       | .error e => stopBody s e
       | .ok (bs, r) => .fin (stageMap a.2 { gid := (curBerth s).gid, idx := n, map := bs, trec := r }) none)
def execTmaps (o : Ops) (s : State) : Host.Outcome State Fault Refusal := issue (.tmaps o) o .both false (tmapsBody o) s

/-- OH and OW (R202). -/
def outH (t : TMap) : Int := ((t.ext.getD 2 0 : Int) + 2 * t.ph - ((t.fr - 1) * t.dh + 1 : Nat)) / t.sh + 1
def outW (t : TMap) : Int := ((t.ext.getD 1 0 : Int) + 2 * t.pwd - ((t.fs - 1) * t.dw + 1 : Nat)) / t.sw + 1

def spanOf (t : TMap) (i : Nat) : Nat := t.span.getD i 0 + 1

/-- Bytes of the output (R201). -/
def tmapOut (t : TMap) : Nat :=
  if t.planes then t.pw * 512
  else if t.win then 4096 * tmapElem t
  else (List.range 5).foldl (fun a i => a * spanOf t i) 1 * tmapElem t

/-- What R201 adds to TMAP_INVALID. -/
def walkBad (t : TMap) (org : List Int) : Bool :=
  if t.win then decide (64 < t.fr * t.fs * spanOf t 0) || decide (outH t < 1) || decide (outW t < 1) || decide (org.getD 1 0 < 0)
  else t.planes && !(decide (spanOf t 0 = 64 ∧ spanOf t 1 = 64 ∧ spanOf t 2 = 1 ∧ spanOf t 3 = 1 ∧ spanOf t 4 = 1))

/-- What an element of the output is: a fixed value, or the element at an offset of the record (R202). -/
inductive Elem where
  | fixed (v : Nat)
  | at (ofs : Nat)
  deriving DecidableEq, Repr

/-- Element (m, k) of the window walk (R202). -/
def winElem (t : TMap) (org : List Int) (m k : Nat) : Elem :=
  let cb := spanOf t 0
  let p := org.getD 1 0 + m
  let j := k / cb
  let c := org.getD 0 0 + ((k % cb : Nat) : Int)
  let ow := outW t
  if outH t * ow ≤ p ∨ t.fr * t.fs ≤ j then .fixed 0
  else
    let h := p / ow * t.sh - t.ph + ((j / t.fs * t.dh : Nat) : Int)
    let w := p % ow * t.sw - t.pwd + ((j % t.fs * t.dw : Nat) : Int)
    let n := org.getD 3 0
    if 0 ≤ h ∧ h < t.ext.getD 2 0 ∧ 0 ≤ w ∧ w < t.ext.getD 1 0 ∧ 0 ≤ c ∧ c < t.ext.getD 0 0 ∧ 0 ≤ n ∧ n < t.ext.getD 3 0 then
      .at (c.toNat * tmapElem t + 16 * (w.toNat * t.str.getD 1 0 + h.toNat * t.str.getD 2 0 + n.toNat * t.str.getD 3 0))
    else .fixed t.fill

/-- The element of the box walk at axis indices (R202). -/
def boxElem (t : TMap) (org : List Int) (idx : List Nat) : Elem :=
  let co := (List.range 5).map (fun i => org.getD i 0 + ((idx.getD i 0 : Nat) : Int))
  if (List.range 5).all (fun i => decide (0 ≤ co.getD i 0 ∧ co.getD i 0 < t.ext.getD i 0)) then
    .at ((co.getD 0 0).toNat * tmapElem t
      + 16 * ((List.range 5).drop 1).foldl (fun a i => a + (co.getD i 0).toNat * (if i < t.rank then t.str.getD i 0 else 0)) 0)
  else .fixed t.fill

/-- The axis indices of element number e of a box, axis 0 fastest. -/
def boxIdx (t : TMap) (e : Nat) : List Nat :=
  let e1 := e / spanOf t 0
  let e2 := e1 / spanOf t 1
  let e3 := e2 / spanOf t 2
  [e % spanOf t 0, e1 % spanOf t 1, e2 % spanOf t 2, e3 % spanOf t 3, e3 / spanOf t 3 % spanOf t 4]

/-- Element (m, k) of a 64 × 64 output. -/
def blockElem (t : TMap) (org : List Int) (m k : Nat) : Elem :=
  if t.win then winElem t org m k else boxElem t org [k, m, 0, 0, 0]

/-- The elements that byte y of the output depends on, with the bit each gives; none: a whole byte of one element. -/
def outByte (t : TMap) (org : List Int) (rd : Nat → Nat) (y : Nat) : Byte :=
  let e := tmapElem t
  let val := fun (x : Elem) => match x with | .fixed v => v | .at o => rd o
  if t.planes then
    let q := y / 512
    let m := y % 512 / 8
    let k0 := y % 8 * 8
    BitVec.ofNat 8 ((List.range 8).foldl (fun a j =>
      a + bitNat (bitAt (val (blockElem t org m (k0 + j))) (t.pw - 1 - q)) * 2 ^ j) 0)
  else
    let n := y / e
    let x := if t.win then winElem t org (n / 64) (n % 64) else boxElem t org (boxIdx t n)
    BitVec.ofNat 8 (fieldAt (val x) (8 * (y % e)) 8)

/-- The record offsets that bytes of the output read. -/
def outReads (t : TMap) (org : List Int) (y n : Nat) : List Nat :=
  ((List.range n).flatMap (fun i =>
    let z := y + i
    let one := fun (x : Elem) => match x with | .at o => [o] | .fixed _ => []
    if t.planes then (List.range 8).flatMap (fun j => one (blockElem t org (z % 512 / 8) (z % 8 * 8 + j)))
    else
      let m := z / tmapElem t
      one (if t.win then winElem t org (m / 64) (m % 64) else boxElem t org (boxIdx t m)))).eraseDups

/-- CPYT (R201). The checks of R193 take the whole record, its EXTENT bytes from BASE on and the granules that they touch, as the source
(DESIGN CHOICE, log entry 90). -/
def cpytBody (o : Ops) (m : CopyMod) (_ : Phase) (s : State) : Body :=
  onReady o true s (onCopy s
    (let a := readSrc o.a s
     let c := readSrc o.b a.2
     let d := readSrc o.d c.2
     let n := a.1.toNat
     match (match stagedMap s n with | some e => Except.ok (e.map, e.trec) | none => fetchMap s n) with
     | .error e => stopBody s e
     | .ok (mb, rb) =>
       onBlock s c.1 32 (fun bs =>
         let org := (List.range 5).map (fun i => signedOf 32 (leAt bs (4 * i) 4))
         let bar := BitVec.ofNat 64 (leAt bs 0x14 4)
         let t := tmapOf mb
         let len := tmapOut t
         if leAt bs 0x18 8 ≠ 0 then .trap s { code := 0x0102, info := 9 }
         else if walkBad t org then .trap s { code := 0x0404 }
         else
           match rcdOf rb with
           | none => .trap s { code := 0x0404 }
           | some rc =>
             let base := BitVec.ofNat 64 rc.base
             let r : Rng := { space := rc.space, addr := base, n := rc.ext, write := false, only := rc.ilreg }
             let w : Rng := { space := m.dst, addr := d.1, n := len, write := true }
             match (match rcdCheck (curBerth s).sects (some rc) base 0 0 true false .plain 5 with
                      | some x => some x
                      | none =>
                        if [bar, d.1].any (fun x => decide (x.toNat % 16 ≠ 0)) then
                          some (trapAt 0x0206 (if bar.toNat % 16 ≠ 0 then bar else d.1) 0)
                        else
                          let r16 := { r with addr := BitVec.ofNat 64 (granFrom rc.base), n := rc.ext + rc.base % 16 }
                          copyChecks s 5 m.fill bar [] [r16] [w] false) with
             | some x => .trap s x
             | none =>
               issueCopy s d.2 { kind := .cpyt, srcSp := rc.space, dstSp := m.dst, fill := m.fill, bar := bar.toNat,
                                 chunks := chunksOf 0 d.1.toNat len 0, rd := [(rc.base, rc.ext)], wr := [(d.1.toNat, len)],
                                 map := mb, trec := rb, org := org })))
def execCpyt (o : Ops) (m : CopyMod) (s : State) : Host.Outcome State Fault Refusal :=
  issue (.cpyt o m) o .both true (cpytBody o m) s

/- Landings (R190, R191, R194, R195). -/

/-- Where bytes of an address of a copy lie, with the tier of each piece (0 for memory that has none). -/
def copyPlace (s : State) (k : Copy) (spc : Space) (a n : Nat) (nd : Need) : Except Stop (List (Nat × Nat × Nat)) :=
  let b := berthAt (coreOf s k.core) k.berth
  match spc with
  | .sp => .ok [(0, spAddr k.core (b.spB * 2048 + a), n)]
  | .vlt => .ok [(0, vaultAddr (a / 2 ^ 23) (a % 2 ^ 23), n)]
  | .spx =>
    match spxTarget s k.gid (BitVec.ofNat 64 a) n with
    | .ok (c, tb, ofs) => .ok [(0, spAddr c ((berthAt (coreOf s c) tb).spB * 2048 + ofs), n)]
    | .error r => .error (.trap (trapAt 0x0209 (BitVec.ofNat 64 a) r))
  | .glb =>
    let pasid := if bitAt a 63 then 0 else b.pasid
    match translateAll s (stationNo k.core) pasid nd (pageCuts (n / 4096 + 2) (a % 2 ^ 48) n) with
    | .error e => .error e
    | .ok l => .ok (l.map (fun p => (p.1, if p.1 = 3 then p.2.1 else tierFlat p.1 p.2.1, p.2.2)))

/-- The bytes at places; a peer's bytes are free values. -/
def placeBytes (s : State) (l : List (Nat × Nat × Nat)) : List Byte :=
  l.flatMap (fun p => if p.1 = 3 then (List.range p.2.2).map (fun i => Config.freeByte s.fresh (p.2.1 + i)) else rdBytes s.mem p.2.1 p.2.2)

/-- What a chunk meets: it can land with these bytes at these places, or is first sent to a peer on whose page some of them lie, or
waits for a peer, or stops. addr: the address for FADDR. -/
inductive ChunkRun where
  | land (bytes : List Byte) (pieces : List (Nat × Nat × Nat))
  | send (bytes : List Byte) (pieces : List (Nat × Nat × Nat))
  | wait
  | stall (kind : Nat) (pasid : BitVec 20) (vpage addr : Nat)
  | fail (code addr : Nat) (bad : Option Nat)

/-- The first byte on a page that an access from an address on reaches (R195). -/
def onPage (addr vpage : Nat) : Nat :=
  if addr % 2 ^ 48 / 4096 = vpage then addr else addr / 2 ^ 48 * 2 ^ 48 + 4096 * vpage

def stopRun (addr : Nat) : Stop → ChunkRun
  | .stall k p v => .stall k p v (onPage addr v)
  | .trap t => .fail t.code (match t.addr with | some a => a.toNat | none => addr) none
  | .unc g a => .fail 0x0207 a.toNat (some g)

/-- The first uncorrectable granule of pieces that follow an address, with its address (R181). -/
def placeBad (s : State) : Nat → List (Nat × Nat × Nat) → Option (Nat × Nat)
  | _, [] => none
  | a, (tier, p, n) :: l =>
    match (if tier = 3 then none else (granules [(p, n)]).find? (isBad s)) with
    | some g => some (g, granFrom a + (16 * g - granFrom p))
    | none => placeBad s (a + n) l

/-- A piece lies on a page of a device that may not be addressed (R351, R354). -/
def farBad (s : State) (l : List (Nat × Nat × Nat)) : Bool := l.any (fun p => decide (p.1 = 3) && devBad s (pieceDev p))

/-- The destination address of a chunk. -/
def chunkDst (k : Copy) (j : Chunk) : Nat := if k.kind = .mcast then castAddr j.dst j.dest else j.dst

/-- The source bytes of a chunk (R194, R202), or what stops them. -/
def chunkSource (s : State) (k : Copy) (j : Chunk) : Except ChunkRun (List Byte) :=
  let kind := if k.kind = .pce then 5 else 3
  let read : Nat → Nat → Except ChunkRun (List Byte) := fun a n =>
    match copyPlace s k k.srcSp a n { rd := true, kind := kind } with
    | .error e => Except.error (stopRun a e)
    | .ok l =>
      match placeBad s a l with
      | some (g, b) => Except.error (ChunkRun.fail 0x0207 b (some g))
      | none => if farBad s l then Except.error (ChunkRun.fail 0x0503 a none) else Except.ok (placeBytes s l)
  if k.kind = .cpyt then
    let t := tmapOf k.map
    let e := tmapElem t
    match rcdOf k.trec with
    | none => .error (.fail 0x0404 0 none)
    | some rc =>
      let reads := outReads t k.org j.src j.len
      match reads.find? (fun o => decide (rc.ext < o + e)) with
      | some o => .error (.fail 0x0203 (rc.base + o) none)
      | none =>
        match reads.findSome? (fun o => match read (rc.base + o) e with | Except.error x => some x | Except.ok _ => none) with
        | some x => .error x
        | none =>
          .ok ((List.range j.len).map (fun i => outByte t k.org
            (fun o => match read (rc.base + o) e with | Except.ok b => leNat b | Except.error _ => 0) (j.src + i)))
  else read j.src j.len

/-- Where a chunk's bytes go. -/
def chunkPlace (s : State) (k : Copy) (j : Chunk) : Except Stop (List (Nat × Nat × Nat)) :=
  copyPlace s k k.dstSp (chunkDst k j) j.len { wr := true, kind := if k.kind = .pce then 6 else 4 }

/-- The code with which a store that carries a chunk's bytes to a peer ended unperformed. -/
def chunkLost (s : State) (j : Chunk) : Option Nat :=
  j.ops.findSome? (fun id => match findRop s id with
    | none => some 0x0504
    | some r => if r.done && !r.perf then (match r.rep with | some (.trap code) => some code | _ => some 0x0504) else none)

/-- What becomes of a chunk (R194, R195). One that was sent to a peer lands when all its stores there are performed. -/
def chunkRun (s : State) (k : Copy) (j : Chunk) : ChunkRun :=
  if j.ops.isEmpty then
    match chunkSource s k j with
    | .error x => x
    | .ok bs =>
      match chunkPlace s k j with
      | .error e => stopRun (chunkDst k j) e
      | .ok l =>
        if farBad s l then .fail 0x0503 (chunkDst k j) none
        else if l.any (fun p => decide (p.1 = 3)) then .send bs l
        else .land bs l
  else
    match chunkLost s j with
    | some code => .fail code (chunkDst k j) none
    | none =>
      if j.ops.all (fun id => (findRop s id).any (·.perf)) then
        (match chunkPlace s k j with
         | .error e => stopRun (chunkDst k j) e
         | .ok l => .land j.data l)
      else .wait

/-- Bytes on a peer's page go to the peer in one packet, for the operation that r describes (R194). -/
def sendPiece (s : State) (r : ROp) (pasid : BitVec 20) (sync : Sync) (p : Nat × Nat × Nat) (bs : List Byte) : State × Nat :=
  let id := s.fabric.ropNext
  let dev := pieceDev p
  let q : ROp := { r with id := id, kind := .chunk, dev := dev, seq := seqTo s dev, ctx := (openOut s dev).born, wall := s.wall }
  let s1 := updFab s (fun f => { f with rops := f.rops ++ [q], ropNext := id + 1 })
  (sendPkt s1 dev (.rst id pasid (BitVec.ofNat 48 p.2.1) bs sync [] 0), id)

/-- The bytes of a piece in packets of at most 256 bytes (R344). -/
def sendCuts (r : ROp) (pasid : BitVec 20) (sync : Sync) : Nat → State → Nat → Nat × Nat × Nat → List Byte → State × List Nat
  | 0, s, _, _, _ => (s, [])
  | fuel + 1, s, va, p, bs =>
    if bs = [] then (s, [])
    else
      let x := sendPiece s { r with va := BitVec.ofNat 64 va } pasid sync p (bs.take 256)
      let y := sendCuts r pasid sync fuel x.1 (va + 256) (p.1, p.2.1 + 256, p.2.2 - 256) (bs.drop 256)
      (y.1, x.2 :: y.2)

/-- The pieces of a range that lie on pages of peers leave, with the operations that carry them (R168, R194). -/
def sendPieces (r : ROp) (pasid : BitVec 20) (sync : Sync) : State → Nat → List ((Nat × Nat × Nat) × List Byte) → State × List Nat
  | s, _, [] => (s, [])
  | s, va, (p, bs) :: l =>
    if p.1 = 3 then
      let x := sendCuts r pasid sync (bs.length / 256 + 1) s va p bs
      let y := sendPieces r pasid sync x.1 (va + p.2.2) l
      (y.1, x.2 ++ y.2)
    else sendPieces r pasid sync s (va + p.2.2) l

/-- Operations that have ended for those that waited for them are kept no longer. -/
def forgetRops (s : State) (ids : List Nat) : State :=
  updFab s (fun f => { f with rops := f.rops.filter (fun r => !ids.contains r.id) })

/-- The bytes of a copy's chunk leave for the peers (R194). -/
def sendChunk (s : State) (k : Copy) (va : Nat) (l : List ((Nat × Nat × Nat) × List Byte)) : State × List Nat :=
  let b := berthAt (coreOf s k.core) k.berth
  sendPieces { core := k.core, pilot := k.pilot, gid := k.gid, task := b.task, ord := b.ordered, pc := k.pc } b.pasid
    (if k.fill then .fill else .plain) s va l

/-- The home address of the barrier of a copy. -/
def copyBar (s : State) (k : Copy) : Nat := spAddr k.core ((berthAt (coreOf s k.core) k.berth).spB * 2048 + k.bar)

def barGet (s : State) (k : Copy) : Nat := rdNat s.mem (copyBar s k) 16
def barPut (s : State) (k : Copy) (x : Nat) : State := { s with mem := wrBytes s.mem (copyBar s k) (leBytes 16 x) }

/-- ENGINE and EID of a copy's records (R402): a package copy engine has a unit number. -/
def copyEng (k : Copy) : Nat := if k.kind = .pce then 5 else 4
def copyEid (k : Copy) : Nat := if k.kind = .pce then k.unit else k.core

/-- A landing subtracts its bytes from the barrier (R191). -/
def barLand (s : State) (k : Copy) (n : Nat) : State :=
  let x := barGet s k
  if barArmed x = false ∨ barPend x < n then
    let s1 := barPut s k (barWord 0 (barArmed x) (bitAt x 57) true (barFaddr x) (barNpark x) (barGen x) + fieldAt x 59 5 * 2 ^ 59)
    raiseBerth s1 k.core k.berth { code := 0x0403, addr := BitVec.ofNat 64 k.bar, pc := k.pc, engine := copyEng k, eid := copyEid k, space := 1 }
  else barPut s k (x - n)

/-- Bytes of a copy land on this device, and under FILL their granules become full (R168, R194, R201). -/
def landChunk (s : State) (k : Copy) (bs : List Byte) (l : List (Nat × Nat × Nat)) : State :=
  let here := (l.zip (dealOut (l.map (·.2)) bs)).filter (fun p => p.1.1 ≠ 3)
  let s1 := landPieces s k.core k.berth (here.map (·.2))
  if k.fill then
    (granules ((l.filter (fun p => decide (p.1 < 2))).map (·.2))).foldl (fun t g => feSet t g true) s1
  else s1

def updCopy (s : State) (id : Nat) (f : Copy → Copy) : State :=
  { s with copies := s.copies.map (fun k => if k.id = id then f k else k) }

/-- A copy whose chunks have all landed is complete; its permit returns (R194, R416). A failed one ends when none of its chunks is
in flight any more (R195). -/
def finishCopy (s : State) (id : Nat) : State :=
  match s.copies.find? (fun k => k.id == id) with
  | some k =>
    if k.chunks.all (·.landed) then
      let s1 := { s with copies := s.copies.filter (fun x => x.id != id) }
      if k.st = .failed then s1 else sampleSource s1 k.core k.berth 6 (s.wall - k.wall)
    else s
  | none => s

/-- A chunk of a copy that has not landed: at a parked copy, one before the chunk at which it is parked. -/
def openChunk (s : State) (id j : Nat) : Option (Copy × Chunk) :=
  match s.copies.find? (fun k => k.id == id) with
  | some k =>
    match k.chunks[j]?, k.st with
    | some c, .parked i => if c.landed = false ∧ j < i then some (k, c) else none
    | some c, _ => if c.landed then none else some (k, c)
    | none, _ => none
  | none => none

/-- CHUNK_LANDING (R194): the bytes for a peer leave first, and the chunk lands when they have been performed there. Accesses that
wait at a granule that a FILL makes full are tested at once (R356). -/
def execChunkLanding (id j : Nat) (s : State) : Host.Outcome State Fault Refusal :=
  .next (match openChunk s id j with
    | none => s
    | some (k, c) =>
      match chunkRun s k c with
      | .land bs l =>
        let s1 := finishCopy (updCopy (barLand (landChunk s k bs l) k c.len) id (fun x =>
          { x with chunks := updAt x.chunks j (fun y => { y with landed := true }) })) id
        let s2 := if c.ops.isEmpty then s1 else forgetRops s1 c.ops
        if k.fill then retestAll s2 else s2
      | .send bs l =>
        let x := sendChunk s k (chunkDst k c) (l.zip (dealOut (l.map (·.2)) bs |>.map (·.2)))
        updCopy x.1 id (fun q => { q with chunks := updAt q.chunks j (fun y => { y with ops := x.2, data := bs }) })
      | _ => s)

/-- A copy is parked at its station at a chunk (R195). -/
def parkCopy (s : State) (k : Copy) (j kind : Nat) (pasid : BitVec 20) (vpage addr : Nat) : State :=
  let s1 := stationFault s (stationNo k.core) { who := .copy k.id, kind := kind, pasid := pasid, vpage := vpage, cluster := clusterNo k.core }
  let x := barGet s1 k
  let s2 := barPut s1 k (barWord (barPend x) (barArmed x) true (barFail x) addr (min 255 (barNpark x + 1)) (barGen x))
  let s3 := updCopy s2 k.id (fun y => { y with st := .parked j })
  putRec s3 { berthRec s3 k.core k.berth 0x0401 with engine := copyEng k, eid := copyEid k, addr := BitVec.ofNat 64 addr, pc := k.pc, flags := 4 * 3 }

/-- COPY_FAULT_PARKED (R195). -/
def execCopyFaultParked (id j : Nat) (s : State) : Host.Outcome State Fault Refusal :=
  .next (match openChunk s id j with
    | none => s
    | some (k, c) =>
      if k.st ≠ .running then s
      else match chunkRun s k c with
        | .stall kind p v a => parkCopy s k j kind p v a
        | _ => s)

/-- The chunks of a copy that stay in flight when it fails at one of them: those that were issued before (R195). -/
def stillFlying (k : Copy) (j : Nat) : List Chunk :=
  match k.st with
  | .running => k.chunks.take j
  | .parked i => dropAt (k.chunks.take i) j
  | .failed => dropAt k.chunks j

/-- A copy fails at a chunk (R195): FAIL and FADDR are set, no further chunk is issued, and the cause goes to the issuing berth. A
parked copy is parked no more. -/
def failCopy (s : State) (k : Copy) (j code addr : Nat) (bad : Option Nat) : State :=
  let x := barGet s k
  let parked := match k.st with | .parked _ => true | _ => false
  let n := if parked then barNpark x - 1 else barNpark x
  let s1 := barPut s k (barWord (barPend x) (barArmed x) (bitAt x 57 && (!parked || decide (n ≠ 0))) true addr n (barGen x))
  let s2 := { updCopy s1 k.id (fun y => { y with st := .failed, chunks := stillFlying k j }) with
    stations := s1.stations.map (fun p => (p.1, { p.2 with parked := p.2.parked.filter (fun r => r.who != .copy k.id) })) }
  let s3 := match bad with | some g => uncRec s2 k.core k.berth g (copyEng k) (copyEid k) | none => s2
  let s4 := if k.st = .failed then s3
    else raiseBerth s3 k.core k.berth { code := code, addr := BitVec.ofNat 64 addr, pc := k.pc, engine := copyEng k, eid := copyEid k }
  finishCopy s4 k.id

/-- COPY_FAILED (R195). A chunk of a failed copy that meets a replayable fault is in flight no more. -/
def execCopyFailed (id j : Nat) (s : State) : Host.Outcome State Fault Refusal :=
  .next (match openChunk s id j with
    | none => s
    | some (k, c) =>
      match chunkRun s k c with
      | .fail code a bad => failCopy s k j code a bad
      | .stall _ _ _ a => if k.st = .failed then failCopy s k j 0x0402 a none else s
      | _ => s)

/-- A parked copy is tried again after a replay: NPARK falls, and FAULT clears with the last. It goes on from the faulting chunk,
which may fault anew (R179, R195). -/
def unparkCopy (s : State) (id : Nat) : State :=
  match s.copies.find? (fun k => k.id == id) with
  | none => s
  | some k =>
    match k.st with
    | .parked i =>
      let x := barGet s k
      let n := barNpark x - 1
      let s1 := barPut (updCopy s id (fun y => { y with st := .running })) k
        (barWord (barPend x) (barArmed x) (bitAt x 57 && decide (n ≠ 0)) (barFail x) (barFaddr x) n (barGen x))
      (match openChunk s1 id i with
       | some (k1, c) => (match chunkRun s1 k1 c with
         | .stall kind p v a => parkCopy s1 k1 i kind p v a
         | _ => s1)
       | none => s1)
    | _ => s

end Sys2Proof.Machine
end

