-- ==== Sys2Proof/Machine/CtlRegs.lean ====
section
/-! DEFINITION. MFX and MTX: the control registers (R82, R141, R153 to R156). -/

namespace Sys2Proof.Machine

/-- The user access of R82. -/
inductive Access where
  | ro | rw | w1c | none
  deriving DecidableEq, Repr

def accessOf : CtlReg → Access
  | .cyc | .wall | .ratio | .lcore | .pcore | .berth | .graph | .taskts | .status | .pfxv | .quantum | .tlast => .ro
  | .toc | .tow | .dl _ | .pwidth | .rmode | .fptrap | .seed | .viewV | .viewT | .viewA | .tabexp | .tcr0 | .tcr1 => .rw
  | .fpflags | .accsat => .w1c
  | .trapCause | .trapPc | .trapAddr | .trapInfo | .trapStream => .none

/-- STATUS (R141). -/
def statusWord (s : State) : Nat :=
  let t := curStream s
  let b := curBerth s
  bitNat t.pp + bitNat (supNow s) * 2 + bitNat b.det * 4 + bitNat b.qres * 8 + bitNat b.cres * 16 + bitNat b.dlmiss * 32
    + bitNat t.gear * 64 + bitNat b.ordered * 128 + bitNat b.sliced * 256 + bitNat s.cur.2 * 512

/-- The timestamp of a running ordered task, 0 in a tile task (R329). -/
def tasktsOf (s : State) : Nat :=
  let b := curBerth s
  if b.ordered then match (curGraph s).ords[b.task]? with | some o => o.ts | none => 0 else 0

/-- TCR0 and TCR1 as words: V stands at bit 32 (R358). -/
def tcrWord (v : Option (BitVec 32)) (pad : Nat) : Nat :=
  match v with
  | some t => t.toNat + 2 ^ 32
  | none => pad

/-- The value MFX reads (R153). -/
def readCtl (s : State) (r : CtlReg) : W64 :=
  let k := curCore s
  let t := curStream s
  let b := curBerth s
  match r with
  | .cyc => BitVec.ofNat 64 (cycOf s s.cur.1)
  | .wall => BitVec.ofNat 64 s.wall
  | .ratio => (clusterOf s (clusterNo s.cur.1)).ratio
  | .toc => t.toc
  | .tow => t.tow
  | .dl i => dlGet k i
  | .lcore => b.lcore.setWidth 64
  | .pcore => BitVec.ofNat 64 s.cur.1
  | .berth => (actBerthNo k).setWidth 64
  | .graph => BitVec.ofNat 64 b.gid
  | .taskts => BitVec.ofNat 64 (tasktsOf s)
  | .status => BitVec.ofNat 64 (statusWord s)
  | .pfxv => t.pfxv.setWidth 64
  | .pwidth => t.pwidth.setWidth 64
  | .rmode => t.rmode.setWidth 64
  | .fpflags => k.ex.fpflags.setWidth 64
  | .fptrap => k.ex.fptrap.setWidth 64
  | .seed => b.seed
  | .quantum => BitVec.ofNat 64 b.quantum
  | .viewV => k.viewV.setWidth 64
  | .viewT => k.viewT.setWidth 64
  | .viewA => k.viewA.setWidth 64
  | .tabexp => k.tabexp.setWidth 64
  | .tcr0 => BitVec.ofNat 64 (tcrWord t.tcr0 (fieldAt t.tcrPad.toNat 0 32))
  | .tcr1 => BitVec.ofNat 64 (tcrWord t.tcr1 (fieldAt t.tcrPad.toNat 32 32))
  | .tlast => BitVec.ofNat 64 (tcrWord t.tlast 0)
  | .trapCause => k.tcause
  | .trapPc => k.tpc
  | .trapAddr => k.taddr
  | .trapInfo => k.tinfo
  | .trapStream => BitVec.ofNat 64 (bitNat k.tstream)
  | .accsat => BitVec.ofNat 64 (bitNat b.accsat)

/-- The value is one the register's map admits (R155). -/
def ctlValueOk (r : CtlReg) (v : Nat) : Bool :=
  match r with
  | .pwidth => decide (1 ≤ v ∧ v ≤ 16)
  | .rmode => decide (v < 6)
  | .fpflags | .fptrap => decide (v < 32)
  | .seed => decide (v ≠ 0)
  | .viewV => viewVOk v
  | .viewT => viewTOk v
  | .viewA => viewAOk v
  | .tabexp => decide (1000 ≤ v ∧ v ≤ 10000000)
  | .tcr0 | .tcr1 => decide (v < 2 ^ 33)
  | .trapCause => decide (v < 2 ^ 18)
  | .trapStream | .accsat => decide (v < 2)
  | _ => true

/-- TCR0 or TCR1 from a word: the tablet, and what TAB reads while V = 0 (R358). -/
def tcrOf (v : Nat) : Option (BitVec 32) := if bitAt v 32 then some (BitVec.ofNat 32 v) else none

/-- A slot written by MTX with FIRED set counts as fired now (R131, R144). -/
def writeDl (s : State) (i : BitVec 2) (v : W64) : State :=
  updCurCore s (fun k => if dlFired v then dlAtSet (dlWrite k i v) i (cycOf s s.cur.1) else dlWrite k i v)

/-- What MTX writes (R154, R155). FPFLAGS and FPTRAP of either stream are the execute stream's (R252). -/
def writeCtl (s : State) (r : CtlReg) (v : W64) : State :=
  match r with
  | .toc => updCur s (fun t => { t with toc := v })
  | .tow => updCur s (fun t => { t with tow := v })
  | .dl i => writeDl s i v
  | .pwidth => updCur s (fun t => { t with pwidth := v.setWidth 5 })
  | .rmode => updCur s (fun t => { t with rmode := v.setWidth 3 })
  | .fpflags => updStream s s.cur.1 false (fun t => { t with fpflags := t.fpflags &&& ~~~ (v.setWidth 5) })
  | .fptrap => updStream s s.cur.1 false (fun t => { t with fptrap := v.setWidth 5 })
  | .seed => updCurCore (updCurBerth s (fun b => { b with seed := v })) (fun k =>
      { k with vq := k.vq.map (fun x => { x with draws := false }) })
  | .viewV => updCurCore s (fun k => { k with viewV := v.setWidth 32 })
  | .viewT => updCurCore s (fun k => { k with viewT := v.setWidth 32 })
  | .viewA => updCurCore s (fun k => { k with viewA := v.setWidth 32 })
  | .tabexp => updCurCore s (fun k => { k with tabexp := v.setWidth 24 })
  | .tcr0 => updCur s (fun t => { t with tcr0 := tcrOf v.toNat, tcrPad := (t.tcrPad.extractLsb' 32 32) ++ v.setWidth 32 })
  | .tcr1 => updCur s (fun t => { t with tcr1 := tcrOf v.toNat, tcrPad := v.setWidth 32 ++ t.tcrPad.setWidth 32 })
  | .trapCause => updCurCore s (fun k => { k with tcause := v })
  | .trapPc => updCurCore s (fun k => { k with tpc := v })
  | .trapAddr => updCurCore s (fun k => { k with taddr := v })
  | .trapInfo => updCurCore s (fun k => { k with tinfo := v })
  | .trapStream => updCurCore s (fun k => { k with tstream := v.getLsbD 0 })
  | .accsat => updCurBerth s (fun b => { b with accsat := b.accsat && !v.getLsbD 0 })
  | _ => s

/-- FPFLAGS or ACCSAT named by the execute stream: it waits at issue until its vector and matrix operations have completed,
the scale deliveries among them (R156, R275). -/
def ctlWaits (s : State) (r : CtlReg) : Bool :=
  match r with
  | .fpflags | .accsat => !s.cur.2 && !(enginesIdle s && sendsDone s s.cur.1)
  | _ => false

/-- MFX (R154). The trap of a register that needs the other mode has TRAPINFO 0: no rule gives it one (DESIGN CHOICE, log entry 88). -/
def mfxBody (o : Ops) (_ : Phase) (s : State) : Body :=
  match o.a with
  | .x r =>
    onReady o false s
      (if accessOf r = .none ∧ supNow s = false then .trap s { code := 0x0105 }
       else if ctlWaits s r then .hold s .room 0
       else .fin (writeDst o.d (readCtl s r) s) none)
  | _ => .fin s none
def execMfx (o : Ops) (s : State) : Host.Outcome State Fault Refusal := issue (.mfx o) o .both false (mfxBody o) s

/-- MTX (R154, R155). TRAPINFO is 0 for PRIVILEGED, and holds FIELD 7 for a register that is read only and 8 for a value: no rule gives them
(DESIGN CHOICE, log entry 88). -/
def mtxBody (o : Ops) (_ : Phase) (s : State) : Body :=
  match o.d with
  | .x r =>
    onReady o false s
      (if (accessOf r = .none ∨ accessOf r = .ro) ∧ supNow s = false then .trap s { code := 0x0105 }
       else if accessOf r = .ro then .trap s { code := 0x0102, info := 7 }
       else if ctlWaits s r then .hold s .room 0
       else
         let v := readSrc o.a s
         if ctlValueOk r v.1.toNat = false then .trap s { code := 0x0102, info := 8 }
         else .fin (writeCtl v.2 r v.1) none)
  | _ => .fin s none
def execMtx (o : Ops) (s : State) : Host.Outcome State Fault Refusal := issue (.mtx o) o .both false (mtxBody o) s

end Sys2Proof.Machine
end

