-- ==== Sys2Proof/Machine/Resets.lean ====
section
/-! DEFINITION. Resets and bring-up (R406 to R408, R421, R422, R424, R425). -/

namespace Sys2Proof.Machine

/- The supply (R4, R59, R127). -/

def updPower (s : State) (f : Power → Power) : State := { s with power := f s.power }

/-- The stack rail lies within its band (R4). -/
def inBand (mv : Nat) : Bool := decide (1150 ≤ mv ∧ mv ≤ 1450)

/-- The cluster clock in units of 1/15 MHz for a rail within the band (R4). -/
def bandClock (mv : Nat) : Nat := if mv ≤ 1300 then 9000 + 10 * (mv - 1150) else 10500 + 8 * (mv - 1300)

/-- The rail for a clock of the band, in whole mV (R4). -/
def railFor (mhz : Nat) : Nat := if mhz ≤ 700 then 1150 + 3 * (mhz - 600) / 2 else 1300 + 15 * (mhz - 700) / 8

/-- The setpoint: the lowest of the four requests, within the band (R59). -/
def setpoint (p : Power) : Nat := max 600 (min 780 (min (min p.fwmax p.budget) (min p.thermal p.slack)))

/-- The rail follows the setpoint (R59), unless it has left its band: then it stays what was measured (R4, R127). -/
def followSetpoint (s : State) : State :=
  updPower s (fun p => if inBand p.railMV then { p with railMV := railFor (setpoint p) } else p)

/-- SUPPLY_OUT_OF_BAND (R127): the rail has been outside its band for more than 1 µs. -/
def raiseSupply (s : State) : State :=
  match s.power.outSince with
  | some w =>
    if s.power.outRaised = false ∧ 1000 < s.wall - w then updPower (deviceRec s 0x0701 12 0 []) (fun p => { p with outRaised := true })
    else s
  | none => s

/-- The rail is measured: WALL since which it is out of its band, and the record of an excursion that ends (R127). -/
def noteRail (s : State) (mv : Nat) : State :=
  updPower (raiseSupply s) (fun p =>
    { p with railMV := mv, outSince := if inBand mv then none else some (p.outSince.getD s.wall), outRaised := !inBand mv && p.outRaised })

/- Resets (R406 to R408). -/

/-- What a warm reset keeps of a memory: the DRAM tiers, and the host's memory, which is not the device's (R407). unit:
bytes for each address of the map. -/
def keepWarm (m : Memory) (unit : Nat) : Memory := wrZeros m (vaultBase / unit) ((hostBase - vaultBase) / unit)

/-- A cold reset leaves only the host's memory. -/
def keepCold (m : Memory) (unit : Nat) : Memory := wrZeros m 0 (hostBase / unit)

/-- RESETCAUSE after a reset of a cause (R406): a cause raised while a reset is in progress only joins ALSO. -/
def causeFw (f : Fw) (cause code : Nat) : Fw :=
  if f.phase < 5 ∧ cause ≠ 1 then { f with also := f.also ||| BitVec.ofNat 8 (2 ^ (cause - 1)) }
  else { f with first := cause, also := 0, rcode := BitVec.ofNat 16 code }

/- The post-mortem image (R421). The places of the fields within a section are the model's choice (DESIGN CHOICE, log entry 74). -/

/-- The header: RESETCAUSE, WALL and HEAD. -/
def imageHeader (s : State) (fw : Fw) : List Byte :=
  leBytes 4 0x4D50514B ++ leBytes 4 1 ++ leBytes 8 (fw.first + fw.also.toNat * 2 ^ 8 + fw.rcode.toNat * 2 ^ 16) ++ leBytes 8 s.wall
    ++ leBytes 4 s.flog.head.toNat ++ leBytes 4 0x1B313

/-- The code of a berth's STATE (R49). -/
def stateNo (x : BerthState) : Nat :=
  match x with
  | .free => 0
  | .loading => 1
  | .live => 2
  | .stopping => 3

/-- The summary of a core: 64 bytes. -/
def coreSummary (s : State) (c : Nat) : List Byte :=
  let k := coreOf s c
  let b := if k.act.isSome then actBerth k else {}
  [0, 1, 2, 3].flatMap (fun i => leBytes 1 (stateNo (berthAt k i).state)) ++ leBytes 4 b.gid ++ leBytes 2 b.lcore.toNat ++ leBytes 2 0
    ++ leBytes 4 b.acts ++ leBytes 8 k.ex.pc.toNat ++ leBytes 8 k.pi.pc.toNat ++ leBytes 8 k.tcause.toNat
    ++ leBytes 8 (statusWord { s with cur := (c, false) }) ++ leBytes 8 (statusWord { s with cur := (c, true) }) ++ leBytes 8 (cycOf s c)

/-- The state of a memory station: 256 bytes. -/
def stationSummary (s : State) (st : Nat) : List Byte :=
  sliceZ (leBytes 4 (amGet [] s.fabric.retry st).length
    ++ leBytes 4 (s.dirty.filter (fun l => homeStation (64 * l) == st)).length
    ++ leBytes 4 (s.bad.cells.filter (fun x => decide (16 * x.1 < vaultBase) && homeStation (16 * x.1) == st)).length) 0 256

/-- Lanes of a width code, and the code of a number of lanes (R343). -/
def widthLanes (w : Nat) : Nat := if w = 3 then 4 else w
def lanesWidth (l : Nat) : Nat := if l = 4 then 3 else l

/-- The port registers (R343), the delivery contexts open to the device of the port, and the fill of the siding: 64 bytes. -/
def portSummary (s : State) (p : Nat) : List Byte :=
  let k := portOf s p
  sliceZ (leBytes 4 (lanesWidth k.width + bitNat k.up * 4 + k.peer % 256 * 2 ^ 8 + k.losses * 2 ^ 16) ++ leBytes 4 k.maxw ++ List.replicate 24 0
    ++ leBytes 4 ((s.fabric.out.filter (fun x => x.dst == k.peer)).length + (s.fabric.inn.filter (fun x => x.src == k.peer)).length)
    ++ leBytes 4 s.fabric.siding.length) 0 64

/-- A signal-box entry: GID, spawn index or core, state, and the slices that hold its granules: 32 bytes. -/
def boxEntry (r : Region) (who state : Nat) : List Byte :=
  let held := r.reads.map (fun z => sliceOf z.addr) ++ r.stores.flatMap (fun z => (granules [(z.addr, z.bytes.length)]).map (fun q => sliceOf (16 * q)))
  let mask := (List.range 16).foldl (fun a i => a + bitNat (held.contains i) * 2 ^ i) 0
  sliceZ (leBytes 4 r.gid ++ leBytes 4 who ++ leBytes 4 state ++ leBytes 4 mask) 0 32

def boxEntries (s : State) : List (List Byte) :=
  s.cores.filterMap (fun p => p.2.region.map (fun r =>
      boxEntry r (if r.implicit then (actBerth p.2).task else p.1) (if r.irrevocable then 3 else if r.overflow then 2 else if r.commit then 1 else 0)))
    ++ s.graphs.flatMap (fun g => (List.range g.ords.length).filterMap (fun i => ((g.ords[i]?).bind (·.region)).map (fun r => boxEntry r i 4)))

/-- Counts of the rack's entries. -/
def rackSummary (s : State) : List Byte :=
  let n := fun (x : RackState) => (s.fabric.rack.filter (fun p => p.2.st == x)).length
  leBytes 4 (n .pending) ++ leBytes 4 (n .landed) ++ leBytes 4 (n .dead)

/-- The sections of the image below the signature, each at its offset and in pieces of at most 4 KiB. -/
def imageParts (s : State) (fw : Fw) : List (Nat × List Byte) :=
  (0, sliceZ (imageHeader s fw) 0 256)
    :: (List.range 4).map (fun i => (0x100 + 4096 * i, sliceZ s.lastFaults.reverse.flatten (4096 * i) 4096))
    ++ (List.range 16).map (fun i => (0x4100 + 4096 * i, (List.range 64).flatMap (fun j => coreSummary s (64 * i + j))))
    ++ [(0x14100, (List.range 16).flatMap (stationSummary s)), (0x15100, (List.range 32).flatMap (portSummary s))]
    ++ (List.range 4).map (fun i => (0x15900 + 4096 * i, sliceZ (boxEntries s).flatten (4096 * i) 4096))
    ++ [(0x19900, sliceZ (rackSummary s) 0 2048)]

/-- The image is written; its signature is a free value (R421). -/
def writeImage (s : State) (fw : Fw) : State :=
  let a := gddrBase + s.fw.pmbase.toNat / 4096 * 4096
  { s with mem := (imageParts s fw).foldl (fun m p => wrBytes m (a + p.1) p.2) (forget s.mem (a + 0x1A100) 4627 s.fresh), fresh := s.fresh + 1 }

/-- PMBASE names a place for an image (R422). -/
def imageRoom (s : State) : Bool := decide (s.fw.pmbase.toNat / 4096 % 2 ^ 36 ≠ 0)

/-- The custodian keeps the image that is there (R422). -/
def loseImage (s : State) : State := { s with fw := { s.fw with pmlost := if s.fw.pmlost = 255 then 255 else s.fw.pmlost + 1 } }

/-- An image that is being written stays part-written: its bytes are free values, and VALID stays 0 (R422). -/
def dropImage (s : State) : State :=
  { s with mem := forget s.mem (gddrBase + s.fw.pmbase.toNat / 4096 * 4096) 0x1B313 s.fresh, fresh := s.fresh + 1, fw := { s.fw with imaging := false } }

/-- The station caches write back their dirty lines, or mark a line that cannot be written back uncorrectable (R407). Which
lines those are is a free choice (DESIGN CHOICE, log entry 74). -/
def flushDirty (s : State) : State :=
  let t := ((List.range s.dirty.length).zip s.dirty).foldl (fun u p =>
    if Config.freeNat (s.fresh + p.1) % 2 = 0 then u else [0, 1, 2, 3].foldl (fun v i => setBad v (4 * p.2 + i) true) u) s
  { t with dirty := [], fresh := s.fresh + s.dirty.length }

/-- Causes with a post-mortem image (R407). -/
def hasImage (cause : Nat) : Bool := decide (5 ≤ cause)

/-- The clusters after WALL was set, or kept over a reset: each stands at that WALL and counts the window in which it lies. The cyc
that it has counted in the window before WALL jumped stay in its count (DESIGN CHOICE, log entry 82). -/
def clustersAt (wall : Nat) (f : Nat → Cluster) : AMap Cluster :=
  (List.range 128).map (fun n => (n, { f n with win := wall / 1024, edgeWall := wall }))

/-- The device is reset by a cause (R406, R407): 1 power-on, 2 brownout, 3 CXL hot reset, 4 CXL FLR, 5 watchdog, 6 fatal error,
7 thermal trip, 8 custodian-ordered; c holds its RESETCAUSE. Every register takes its reset value but for what R407 keeps, the straps,
the parts not present, the supply, and the model's own fields. After a failed signature boot stops in recovery mode (R405, R425). -/
def resetNow (s1 : State) (c : Fw) (cause code : Nat) : State :=
  let cold := decide (cause ≤ 2)
  let s := if cold then s1 else flushDirty s1
  let fw : Fw :=
    { phase := if cause = 6 ∧ code = 0x0901 then 15 else 1,
      first := if cause = 1 then 1 else c.first, also := if cause = 1 then 0 else c.also, rcode := if cause = 1 then 0 else c.rcode,
      pmbase := if cold then 0 else s.fw.pmbase, pmvalid := !cold && s.fw.pmvalid, pmlost := if cold then 0 else s.fw.pmlost,
      setWall := cold || s.fw.setWall, train := decide (cause ≠ 4) || s.fw.train,
      image := match s.fw.staged with | some i => i.1 | none => s.fw.image, spdm := s.fw.spdm, reportWall := if cold then 0 else s.wall }
  let fab : Fabric :=
    { x := s.fabric.x, y := s.fabric.y, gxm1 := s.fabric.gxm1, gym1 := s.fabric.gym1, sent := s.fabric.sent,
      ports := s.fabric.ports.map (fun p =>
        if cause = 4 then (p.1, { p.2 with queue := [], partway := none }) else (p.1, ({ lanes := p.2.lanes } : Port))) }
  let wall := if cold then 0 else s.wall
  followSetpoint
  { mem := if cold then keepCold s.mem 1 else keepWarm s.mem 1,
    fe := if cold then keepCold s.fe 16 else keepWarm s.fe 16,
    bad := if cold then keepCold s.bad 16 else keepWarm s.bad 16,
    wall := wall, clusters := if cold then [] else clustersAt wall (fun _ => {}), absent := s.absent, gddr := s.gddr, lpddr := s.lpddr, fabric := fab, fw := fw,
    net := { sent := s.net.sent, reports := s.net.reports },
    flog := if cold then {} else s.flog, lastFaults := if cold then [] else s.lastFaults,
    power := { railMV := s.power.railMV, temps := s.power.temps, wallFrac := s.power.wallFrac,
               outSince := s.power.outSince.map (fun w => if cold then wall else w), outRaised := s.power.outRaised },
    msix := s.msix, hostOut := s.hostOut, cur := s.cur, agenda := s.agenda, turn := s.turn, fresh := s.fresh, arrNext := s.arrNext }

/-- A reset is raised (R406, R421, R422). One that a post-mortem image precedes waits until that is written; meanwhile a further cause of
that kind only joins ALSO, and any other reset leaves the image part-written. -/
def resetDevice (s : State) (cause code : Nat) : State :=
  if s.fw.waiting.isSome then
    let c : Fw := { s.fw with also := s.fw.also ||| BitVec.ofNat 8 (2 ^ (cause - 1)) }
    if hasImage cause then { s with fw := c } else resetNow (dropImage s) c cause code
  else
    let c := causeFw s.fw cause code
    if hasImage cause && imageRoom s then
      if s.fw.pmvalid then resetNow (loseImage s) c cause code
      else
        let t := writeImage s c
        { t with fw := { t.fw with imaging := true, waiting := some (cause, code), first := c.first, also := c.also, rcode := c.rcode } }
    else resetNow s c cause code

/-- The signature of an image is complete, and the reset that it precedes follows (R421, R422). -/
def finishImage (s : State) (cause code : Nat) : State :=
  resetNow { s with fw := { s.fw with pmvalid := true, imaging := false, waiting := none } } s.fw cause code

/- The measurement register (R425). -/

/-- A digest is extended into the measurement register. -/
def extendMeas (m : List W64) (digest : Nat) : List W64 :=
  (List.range 8).map (fun i => Config.measurement ((leNat (m.flatMap (fun x => leBytes 8 x.toNat)) + 2 ^ 512 * digest) * 8 + i))

/-- A boot stage is measured (R425). -/
def measureStage (stage : Nat) (f : Fw) : Fw := { f with meas := extendMeas f.meas (Config.stageDigest stage f.image) }

/-- The device identity key is derived from the fused secret and the firmware measurement (R426). -/
def deriveKey (f : Fw) : Fw := { f with key := some (Config.identityKey (leNat (f.meas.flatMap (fun x => leBytes 8 x.toNat)))) }

/-- POWER_ON_RESET (R407). -/
def execPowerOnReset (s : State) : Host.Outcome State Fault Refusal := .next (resetDevice s 1 0)

/-- BROWNOUT_RESET (R407, R59): the rail is below 1.10 V. -/
def execBrownoutReset (s : State) : Host.Outcome State Fault Refusal :=
  .next (if s.power.railMV < 1100 then resetDevice s 2 0 else s)

/-- CXL_HOT_RESET (R407). -/
def execCxlHotReset (s : State) : Host.Outcome State Fault Refusal := .next (resetDevice s 3 0)

/-- CXL_FLR (R407). -/
def execCxlFlr (s : State) : Host.Outcome State Fault Refusal := .next (resetDevice s 4 0)

/-- The 10 ms between two reports of the dispatcher, in ns (R424). -/
def reportNs : Nat := 10000000

/-- DISPATCHER_REPORT (R424). -/
def execDispatcherReport (s : State) : Host.Outcome State Fault Refusal :=
  .next (if s.fw.phase = 5 then { s with fw := { s.fw with reportWall := s.wall } } else s)

/-- WATCHDOG (R424): ten reports were missed. -/
def execWatchdog (s : State) : Host.Outcome State Fault Refusal :=
  .next (if s.fw.phase = 5 ∧ 10 * reportNs ≤ s.wall - s.fw.reportWall then resetDevice (deviceRec s 0x0903 13 0 []) 5 0 else s)

/-- The parts of the hub die that raise INTERNAL_CHECK, as ENGINE (R402, R405): 9 the junction with the tablet racks, 11 the berth table,
8 the signal box, which an operand that names no other stands for. -/
def checkEngine (e : Nat) : Nat := if e = 9 ∨ e = 11 then e else 8

/-- FATAL_ERROR_RESET (R405, R407): INTERNAL_CHECK is recorded and resets the device. Above the code the operand holds ENGINE (8 bits)
and the unit (16 bits) in which the check failed (DESIGN CHOICE, log entry 92). The other RESET-DEVICE codes have steps of their own. -/
def execFatalErrorReset (code : Nat) (s : State) : Host.Outcome State Fault Refusal :=
  .next (if code % 2 ^ 16 = 0x0803 then
      resetDevice (deviceRec s 0x0803 (checkEngine (fieldAt code 16 8)) (fieldAt code 24 16) []) 6 0x0803
    else s)

/-- The widest power-of-two subset of the working lanes, not above MAXW. MAXW 0 allows the least width, one lane (R345, R343; DESIGN
CHOICE, log entry 83). -/
def usableLanes (lanes maxw : Nat) : Nat :=
  let l := if 4 ≤ lanes then 4 else if 2 ≤ lanes then 2 else lanes
  min l (max 1 (widthLanes maxw))

/-- The port leads inside the grid (R342). -/
def usedPort (s : State) (p : Nat) : Bool := decide (p % 16 < 15) && inGrid s (peerOf s p)

/-- A port trains (R343, R424): it is kept down, with LINK_DEGRADED detail 3, where its far end is not the device it should
be. -/
def trainPort (s : State) (p : Nat) : State :=
  if usedPort s p = false then s
  else
    let k := portOf s p
    let peer := Config.farEnd p
    if peer = peerOf s p ∧ k.lanes ≠ 0 then
      setPort s p { k with up := true, width := usableLanes k.lanes k.maxw, peer := peer, retrain := false }
    else
      let s1 := setPort s p { k with up := false, width := 0, peer := peer, retrain := false }
      if peer = peerOf s p then s1 else deviceRec s1 0x0505 9 p (leBytes 1 3)

/-- LOCKTAB from the page that Limman chose: never zero (R420). -/
def lockPage (p : BitVec 36) : W64 := BitVec.ofNat 64 (4096 * if p = 0 then 1 else p.toNat)

/-- WALL is set (R124, R424). -/
def setBootWall (s : State) (w : Nat) : State := { s with wall := w, clusters := clustersAt w (clusterOf s) }

/-- BOOT_PHASE_ADVANCE (R424, R425): bring-up completes a phase; a post-mortem image that a reset waits for comes before (R421). An image
that does not verify is recorded, resets the device and leaves it in recovery mode (R405). Each stage is measured. WALL is set only
after a reset that has cleared it, and links are trained only where the reset did not keep them (R407). -/
def execBootPhaseAdvance (s : State) : Host.Outcome State Fault Refusal :=
  .next (match s.fw.waiting with
    | some w => finishImage s w.1 w.2
    | none =>
      match s.fw.phase with
      | 1 => { s with fw := { measureStage 0 s.fw with phase := 2 } }
      | 2 =>
        if Config.imageVerifies s.fw.image then { s with fw := { deriveKey (measureStage 1 s.fw) with phase := 3 } }
        else resetDevice (deviceRec s 0x0901 13 0 []) 6 0x0901
      | 3 => { s with fw := { s.fw with phase := 4 } }
      | 4 =>
        let t := if s.fw.train then (List.range 32).foldl trainPort s else s
        let u := if t.fw.setWall then setBootWall t (Config.wallAtBoot t.fresh) else t
        let f : Fw := { u.fw with phase := 5, reportWall := u.wall, setWall := false, train := false }
        { u with fresh := t.fresh + 2, fw := { f with locktab := some (lockPage (Config.lockTab (t.fresh + 1))) } }
      | _ => s)

/-- THERMAL_TRIP (R61): a cluster has reached 115 °C. -/
def execThermalTrip (n : Nat) (s : State) : Host.Outcome State Fault Refusal :=
  if 128 ≤ n then .fault (.noSuchUnit n)
  else .next (if 1150 ≤ amGet 0 s.power.temps n then resetDevice (deviceRec s 0x0703 12 n []) 7 0 else s)

end Sys2Proof.Machine
end

