-- ==== Sys2Proof/Machine/System.lean ====
section
/-! DEFINITION. The system group (R387 to R396): system calls, the return from a trap, contexts, gauges, marks, IDLE, fault
reports and single steps. -/

namespace Sys2Proof.Machine

/-- SYSCALL (R388). -/
def syscallBody (o : Ops) (_ : Phase) (s : State) : Body :=
  onReady o false s
    (let n := readSrc o.a s
     let a := readSrc o.b n.2
     .trap s { code := 0x0113, addr := some a.1, info := n.1 })
def execSyscall (o : Ops) (s : State) : Host.Outcome State Fault Refusal := issue (.syscall o) o .execute false (syscallBody o) s

/-- TRET (R389). -/
def tretBody (_o : Ops) (_ : Phase) (s : State) : Body :=
  if (curCore s).tpc.toNat % 4 ≠ 0 then .trap s { code := 0x0206, info := (curCore s).tpc } else .ended (returnTrap s s.cur.1)
def execTret (o : Ops) (s : State) : Host.Outcome State Fault Refusal := issue (.tret o) o .supervisor false (tretBody o) s

/- CTXSV and CTXLD (R390). -/

def ctxN (x : Nat) : BitVec 6 := BitVec.ofNat 6 x
def ctxClass (x : Nat) : Nat := fieldAt x 6 3
def ctxStream (x : Nat) : Bool := bitAt x 9

/-- The selector is legal. -/
def ctxOk (x : Nat) : Bool := decide (x < 2 ^ 10 ∧ ctxClass x < 4)

/-- k0 to k7 as bits; bit 0 reads 1. -/
def predBits (k : Vector Bool 8) : Nat := (List.range 8).foldl (fun a i => a + bitNat (kGet k (BitVec.ofNat 3 i)) * 2 ^ i) 0
def predOf (v : Nat) : Vector Bool 8 := Vector.ofFn (fun i => bitAt v i.val && decide (i.val ≠ 0))

/-- The item that a selector names. -/
def ctxGet (k : Core) (x : Nat) : W64 :=
  let t := streamOf k (ctxStream x)
  match ctxClass x with
  | 0 => sGet t.s (ctxN x)
  | 1 => BitVec.ofNat 64 (predBits t.k)
  | 2 => if ctxStream x = k.tstream then k.tpc else t.pc
  | _ => BitVec.ofNat 64 (bitNat t.shPp + t.shPfxv.toNat * 2 ^ 16)

def ctxPut (k : Core) (x : Nat) (v : W64) : Core :=
  let p := ctxStream x
  let t := streamOf k p
  match ctxClass x with
  | 0 => let k1 := setStream k p { t with s := sSet t.s (ctxN x) v }
         if p then k1 else dropTag k1 (ctxN x)
  | 1 => setStream k p { t with k := predOf v.toNat }
  | 2 => if p = k.tstream then { k with tpc := v } else setStream k p { t with pc := v, buf := [] }
  | _ => setStream k p { t with shPp := v.getLsbD 0, shPfxv := v.extractLsb' 16 16 }

def ctxsvBody (o : Ops) (_ : Phase) (s : State) : Body :=
  onReady o false s
    (let a := readSrc o.a s
     if ctxOk a.1.toNat = false then .trap s { code := 0x0102, info := 8 }
     else .fin (writeDst o.d (ctxGet (curCore s) a.1.toNat) a.2) none)
def execCtxsv (o : Ops) (s : State) : Host.Outcome State Fault Refusal := issue (.ctxsv o) o .supervisor false (ctxsvBody o) s

def ctxldBody (o : Ops) (_ : Phase) (s : State) : Body :=
  onReady o false s
    (let a := readSrc o.a s
     let b := readSrc o.b a.2
     if ctxOk a.1.toNat = false then .trap s { code := 0x0102, info := 8 }
     else if ctxClass a.1.toNat = 2 ∧ b.1.toNat % 4 ≠ 0 then .trap s { code := 0x0206, info := b.1 }
     else .fin (updCurCore b.2 (fun k => ctxPut k a.1.toNat b.1)) none)
def execCtxld (o : Ops) (s : State) : Host.Outcome State Fault Refusal := issue (.ctxld o) o .supervisor false (ctxldBody o) s

/- Gauges (R391, R392). -/

/-- The gauge operand is legal. -/
def gaugeOk (x : Nat) : Bool := decide (x < 2 ^ 7) && (bitAt x 6 || decide (fieldAt x 0 6 < 4))

/-- A configuration is legal for a core or a device gauge. -/
def gaugeCfgOk (dev : Bool) (c : Nat) : Bool :=
  let src := fieldAt c 0 6
  (decide (src = 0) || (if dev then decide (3 ≤ src ∧ src ≤ 10) else decide (1 ≤ src ∧ src ≤ 7)))
    && (bitAt c 6 || decide (fieldAt c 48 16 ≠ 0))

/-- A gauge after it is armed. -/
def gaugeArm (g : Gauge) (cfg : W64) (b : Option (BitVec 2)) : Gauge :=
  let who := if fieldAt cfg.toNat 0 6 = 0 then none else b
  if cfg.getLsbD 7 then { cfg := cfg, min := BitVec.allOnes 64, berth := who } else { g with cfg := cfg, berth := who }

def gaugeBody (o : Ops) (_ : Phase) (s : State) : Body :=
  onReady o false s
    (let a := readSrc o.a s
     let b := readSrc o.b a.2
     let x := a.1.toNat
     let dev := bitAt x 6
     if gaugeOk x = false then .trap s { code := 0x0102, info := 8 }
     else if dev = true ∧ supNow s = false then .trap s { code := 0x0105 }
     else if gaugeCfgOk dev b.1.toNat = false then .trap s { code := 0x0102, info := 9 }
     else if dev then
       .fin { b.2 with dgauges := amSet b.2.dgauges (fieldAt x 0 6) (gaugeArm (amGet {} b.2.dgauges (fieldAt x 0 6)) b.1 none) } none
     else
       let i : BitVec 2 := BitVec.ofNat 2 x
       .fin (updCurCore b.2 (fun k => gaugeSet k i (gaugeArm (gaugeGet k i) b.1 (some (actBerthNo k))))) none)
def execGauge (o : Ops) (s : State) : Host.Outcome State Fault Refusal := issue (.gauge o) o .execute false (gaugeBody o) s

/-- An item of a gauge (R392). -/
def gaugeItem (g : Gauge) (n : Nat) : W64 :=
  match n with
  | 0 => g.min
  | 1 => g.max
  | 2 => BitVec.ofNat 64 g.count
  | 3 => BitVec.ofNat 64 g.sum
  | 20 => g.cfg
  | i => BitVec.ofNat 64 (g.bins.getD (i - 4) 0)

def greadBody (o : Ops) (_ : Phase) (s : State) : Body :=
  onReady o false s
    (let a := readSrc o.a s
     let b := readSrc o.b a.2
     let x := a.1.toNat
     if gaugeOk x = false then .trap s { code := 0x0102, info := 8 }
     else if 20 < b.1.toNat then .trap s { code := 0x0102, info := 9 }
     else
       let g := if bitAt x 6 then amGet {} s.dgauges (fieldAt x 0 6) else gaugeGet (curCore s) (BitVec.ofNat 2 x)
       .fin (writeDst o.d (gaugeItem g b.1.toNat) b.2) none)
def execGread (o : Ops) (s : State) : Host.Outcome State Fault Refusal := issue (.gread o) o .execute false (greadBody o) s

/-- TMARK (R393, R418). -/
def tmarkBody (o : Ops) (_ : Phase) (s : State) : Body :=
  onReady o false s
    (let a := readSrc o.a s
     .fin (writeTrace a.2 s.cur.1 (actBerthNo (curCore s)) 2 0 (fieldAt a.1.toNat 0 32) (fieldAt a.1.toNat 32 32) s.wall) none)
def execTmark (o : Ops) (s : State) : Host.Outcome State Fault Refusal := issue (.tmark o) o .execute false (tmarkBody o) s

/-- IDLE (R394): what has arrived since the stream was held, and whether its limit is over. -/
def idleBody (o : Ops) (ph : Phase) (s : State) : Body :=
  onReady o false s
    (let a := readSrc o.a s
     let seen := if ph = .issue then 0 else match waitNow s with | some w => w.aux | none => 0
     let isOver := decide (a.1 ≠ 0 ∧ a.1.toNat ≤ edgeOf s s.cur.1 - (waitStart s).2)
     let reason := seen + 4 * bitNat isOver
     if ph = .issue ∨ reason = 0 then .hold s .idle seen else .fin (writeDst o.d (BitVec.ofNat 64 reason) a.2) none)
def execIdle (o : Ops) (s : State) : Host.Outcome State Fault Refusal := issue (.idle o) o .supervisor false (idleBody o) s

/-- The record that FAULTRPT writes from an image (R395). -/
def reportRec (s : State) (bs : List Byte) : RecIn :=
  let k := curCore s
  { berthRec s s.cur.1 (actBerthNo k) (leAt bs 2 2) with
    action := leAt bs 1 1 % 16, engine := leAt bs 4 1, eid := leAt bs 6 2, addr := BitVec.ofNat 64 (leAt bs 0x18 8),
    pc := BitVec.ofNat 64 (leAt bs 0x20 8), wall := k.twall, detail := sliceZ bs 0x30 16,
    flags := bitNat (bitAt k.tcause.toNat 16) + 2 * bitNat (bitAt k.tcause.toNat 17) + 4 * fieldAt (leAt bs 0x13 1) 2 4 }

/-- The image is legal (R395). -/
def reportOk (bs : List Byte) : Bool :=
  let act := leAt bs 1 1 % 16
  decide (leAt bs 2 2 ≠ 0) && decide (act ≤ 4) && decide (leAt bs 1 1 / 16 = severityOf act)

/-- FAULTRPT (R395). -/
def faultrptBody (o : Ops) (_ : Phase) (s : State) : Body :=
  onReady o false s
    (let a := readSrc o.a s
     let p := a.1.toNat
     if p % 16 ≠ 0 then .trap s (trapAt 0x0206 a.1 0)
     else if inAlloc s p 64 = false then .trap s (trapAt 0x0201 a.1 0)
     else
       match spBad s p 64 with
       | some g => spUnc s g
       | none =>
         let bs := spSeen s p 64
         afterAtoms s p 64 <|
         if reportOk bs = false then .trap s { code := 0x0102, info := 8 }
         else
           let r := reportRec s bs
           let w := writeRec a.2 r
           match r.action with
           | 2 => .ended (failTask w.1 s.cur.1 r.code)
           | 3 => .ended (failBerthGraph w.1 s.cur.1 r.code)
           | 4 => .ended (resetDevice w.1 6 r.code)
           | _ => .fin (writeDst o.d (BitVec.ofNat 64 (bitNat w.2)) w.1) none)
def execFaultrpt (o : Ops) (s : State) : Host.Outcome State Fault Refusal := issue (.faultrpt o) o .supervisor false (faultrptBody o) s

/-- SUPSTEP (R396). -/
def supstepBody (o : Ops) (_ : Phase) (s : State) : Body :=
  onReady o false s
    (let a := readSrc o.a s
     if 3 < a.1.toNat then .trap s { code := 0x0102, info := 8 }
     else .fin (updCurCore a.2 (fun k => { k with step := a.1.setWidth 2 })) none)
def execSupstep (o : Ops) (s : State) : Host.Outcome State Fault Refusal := issue (.supstep o) o .supervisor false (supstepBody o) s

end Sys2Proof.Machine
end

