-- ==== Sys2Proof/Machine/Launch.lean ====
section
/-! DEFINITION. Launching (R40 to R45, R63, R142): launch packets, their queues, the checks of packet and graph, admission,
reports, and the instruction LAUNCH. -/

namespace Sys2Proof.Machine

/- The dispatcher's own reads and writes (R44, R63). -/

/-- The translation station through which the dispatcher reaches descriptors, reports and save slots: the spec names none (DESIGN
CHOICE, log entry 28). -/
def dispStation : Nat := 0

/-- The pieces of a GLB range with their tiers, none where an address of it is not canonical or faults, or where its device may not
be addressed. -/
def dispPieces (s : State) (pasid : BitVec 20) (va n : Nat) (nd : Need) : Option (List (Nat × Nat × Nat)) :=
  if 2 ^ 48 < va + n then none
  else
    match translateAll s dispStation pasid nd (pageCuts (n / 4096 + 2) va n) with
    | .error _ => none
    | .ok l =>
      let ps := l.map (fun p => (p.1, if p.1 = 3 then p.2.1 else tierFlat p.1 p.2.1, p.2.2))
      if farBad s ps then none else some ps

/-- The pieces that lie on this device or in the host's memory. -/
def herePieces (l : List (Nat × Nat × Nat)) : List (Nat × Nat) := (l.filter (fun p => p.1 ≠ 3)).map (·.2)

/-- n bytes of a GLB range: none where they cannot be read or a granule is uncorrectable. A peer's bytes are free values. -/
def dispBytes (s : State) (pasid : BitVec 20) (va n : Nat) : Option (List Byte) :=
  match dispPieces s pasid va n { rd := true } with
  | none => none
  | some ps => if (granules (herePieces ps)).any (isBad s) then none else some (placeBytes s ps)

/-- Bytes written to a GLB range: none where it cannot be written or a granule is uncorrectable. Those on a page of a peer leave for it,
in the operations named, which belong to no task (R63, R168). -/
def dispSend (s : State) (pasid : BitVec 20) (va : Nat) (bs : List Byte) : Option (State × List Nat) :=
  match dispPieces s pasid va bs.length { wr := true } with
  | none => none
  | some ps =>
    if (granules (herePieces ps)).any (isBad s) then none
    else
      let l := ps.zip (dealOut (ps.map (·.2)) bs |>.map (·.2))
      some (sendPieces { core := noCore } pasid .plain (l.foldl (fun t p => if p.1.1 = 3 then t
        else noteDirty { t with mem := wrBytes t.mem p.1.2.1 p.2 } p.1.2.1 p.2.length) s) va l)

/-- A write of the context-save engine. What goes to a page of a peer is not awaited (DESIGN CHOICE, log entry 28). -/
def dispWrite (s : State) (pasid : BitVec 20) (va : Nat) (bs : List Byte) : Option State :=
  (dispSend s pasid va bs).map (fun x => forgetRops x.1 x.2)

/-- The completions that the dispatcher remembers (R45). A packet that never came to its checks (reason 15) is none of them (DEDUCED, log
entry 76). -/
def noteDone (s : State) (gid code : Nat) : State := { s with fw := { s.fw with done := ((gid, code) :: s.fw.done).take 4096 } }

/- Reports (R63). -/

/-- The 32 bytes of a residency report or completion record, DONE the last of them (R63). -/
def reportBytes (gid ltag kind reason code count wall aux faults : Nat) : List Byte :=
  leBytes 4 gid ++ leBytes 4 ltag ++ leBytes 1 kind ++ leBytes 1 reason ++ leBytes 2 code ++ leBytes 4 count
    ++ leBytes 8 wall ++ leBytes 4 aux ++ leBytes 2 (min faults 0xFFFF) ++ leBytes 1 0 ++ leBytes 1 1

/-- A report has been written, and VECTOR is signalled, or it was dropped, with DROP and REPORT_DROPPED (R42, R63). Written or dropped, a
completion is then remembered (R45, R63, R64). -/
def endReport (s : State) (p : RepPend) (written : Bool) : State :=
  let s1 :=
    if written then (if (ctxOf s p.ctx).irqen then { s with msix := (ctxOf s p.ctx).vector.toNat :: s.msix } else s)
    else
      deviceRec (setCtx s p.ctx { ctxOf s p.ctx with drop := true }) 0x0607 11 0
        (leBytes 4 p.gid ++ leBytes 1 p.kind ++ leBytes 1 0 ++ leBytes 2 (if p.kind = 2 then p.code else 0))
  if p.done then noteDone s1 p.gid p.code else s1

/-- The report p is written; on a page of a peer it is on its way until it has been performed there (R63, R168). A copy goes back to the
endpoint of a rack scheduler that sent the packet. -/
def putReport (s : State) (rack : Option Nat) (pasid : BitVec 20) (va : Nat) (p : RepPend) (bs : List Byte) : State :=
  let s1 := match dispSend s pasid va bs with
    | none => endReport s p false
    | some (t, []) => endReport t p true
    | some (t, ops) => { t with repPend := t.repPend ++ [{ p with ops := ops }] }
  match rack with
  | some e => { s1 with net := { s1.net with reports := (e, bs) :: s1.net.reports } }
  | none => s1

/-- A report on its way ends when all its bytes have been performed at the peer, or some never will be (R63). -/
def settleReport (s : State) (p : RepPend) : State :=
  let t := forgetRops { s with repPend := s.repPend.filter (· != p) } p.ops
  if (chunkLost s { ops := p.ops }).isSome then endReport t p false
  else if p.ops.all (fun id => (findRop s id).any (·.perf)) then endReport t p true
  else s
def settleReports (s : State) : State := s.repPend.foldl settleReport s

/-- The completion record of a GID is on its way to a peer: the GID is pending still (R64; DEDUCED, log entry 34). -/
def onItsWay (s : State) (gid : Nat) : Bool := s.repPend.any (fun p => p.done && p.gid == gid)

/-- The fields of a packet (R40). -/
def pkGid (p : List Byte) : Nat := leAt p 0x08 4
def pkPasid (p : List Byte) : BitVec 20 := BitVec.ofNat 20 (leAt p 0x0C 4)
def pkCaddr (p : List Byte) : Nat := leAt p 0x28 8
def pkSave (p : List Byte) : Nat := leAt p 0x30 8
def pkNpre (p : List Byte) : Nat := leAt p 0x12 2
def pkFlags (p : List Byte) : Nat := leAt p 0x11 1
def pkPre (p : List Byte) : List Nat := (List.range (min 4 (pkNpre p))).map (fun i => leAt p (0x18 + 4 * i) 4)

/-- What a rejection takes from a packet or from the graph that was admitted (R40, R43). -/
structure Rejected where
  ctx : Nat
  rack : Option Nat
  pasid : BitVec 20
  caddr : Nat
  gid : Nat
  ltag : Nat

/-- A rejection (R43, R44): a completion record with CODE 0x0604, or DROP and a device record where CADDR names no report area. done: the
dispatcher remembers it. -/
def rejectAt (s : State) (x : Rejected) (reason : Nat) (done : Bool) : State :=
  if x.caddr = 0 ∨ x.caddr % 64 ≠ 0 then
    let s1 := deviceRec (setCtx s x.ctx { ctxOf s x.ctx with drop := true }) 0x0604 11 0 (leBytes 1 reason)
    if done then noteDone s1 x.gid 0x0604 else s1
  else
    putReport s x.rack x.pasid (x.caddr + 0x20) { ctx := x.ctx, gid := x.gid, kind := 2, code := 0x0604, done := done }
      (reportBytes x.gid x.ltag 2 reason 0x0604 0 s.wall 0xFFFFFFFF 0)

/-- A packet is rejected (R43, R44). -/
def rejectPacket (s : State) (ctx : Nat) (k : LaunchPkt) (reason : Nat) (done : Bool) : State :=
  let p := k.bytes
  rejectAt s { ctx := ctx, rack := k.rack, pasid := pkPasid p, caddr := pkCaddr p, gid := pkGid p, ltag := leAt p 0x14 4 } reason done

/-- A packet enters its context's queue, or is rejected at once with reason 15 (R43). ready: the device is up (R424).
True: enqueued. -/
def enqueue (s : State) (ctx : Nat) (ready : Bool) (k : LaunchPkt) : State × Bool :=
  let c := ctxOf s ctx
  if ready = false ∨ c.enable = false ∨ 256 ≤ c.queue.length then
    (rejectPacket (setCtx s ctx { c with fullseen := true }) ctx k 15 false, false)
  else (setCtx s ctx { c with queue := c.queue ++ [k] }, true)

/-- DOORBELL (R42): a copy of STAGE is enqueued. -/
def execDoorbell (ctx : Nat) (s : State) : Host.Outcome State Fault Refusal :=
  if ctx < 16 then .next (enqueue s ctx (decide (s.fw.phase = 5)) { bytes := (ctxOf s ctx).stage, host := true }).1 else .fault (.noSuchUnit ctx)

/-- RACK_LAUNCH_PACKET (R41): the filter decides, and counts what it discards. -/
def execRackLaunchPacket (endpoint : Nat) (packet : List Byte) (s : State) : Host.Outcome State Fault Refusal :=
  .next (if s.fw.allow.any (fun e => e.2 == endpoint) then
      (enqueue s s.fw.rackctx true { bytes := sliceZ packet 0 64, rack := some endpoint }).1
    else { s with fw := { s.fw with rackDrops := s.fw.rackDrops + 1 } })

/-- What a host's read of a 32-bit word of a launch context's page returns (R42): STAGE and DOORBELL read 0. -/
def pageWord (c : LaunchCtx) (ofs : Nat) : BitVec 32 :=
  BitVec.ofNat 32 (match ofs with
    | 0x44 => c.queue.length + bitNat c.fullseen * 2 ^ 16 + bitNat c.drop * 2 ^ 17 + bitNat c.enable * 2 ^ 31
    | 0x48 => c.vector.toNat + bitNat c.irqen * 2 ^ 16
    | 0x4C => c.cpasid.toNat + bitNat c.anypasid * 2 ^ 31
    | _ => 0)

/- LAUNCH (R142). -/

/-- The packet of a LAUNCH reaches the queue of the context that launched the issuing graph (R41). -/
def launchNow (o : Ops) (s : State) (p : List Byte) : Body :=
  let g := curGraph s
  let r := enqueue s g.ctx true { bytes := p, pasid := if supNow s then none else some g.pasid }
  .fin (writeDst o.d (if r.2 then 0 else 15) r.1) none

/-- The packet lies in SP, or behind a record as a 64-byte load (R142). -/
def launchBody (o : Ops) (ph : Phase) (s : State) : Body :=
  onReady o false s
    (if regionOpen s then .trap s (regionMode 2 0xFF)
     else
       let t : Except Stop Target := match o.a with
         | .b n => recTarget s n.toNat 0 1 64 .ld .plain (loadEng s false)
         | _ => .ok { x := curAcc s .sp (readSrc o.a s).1 64 .ld }
       let far := fun (start : State → State) => remoteWait ph false {} start s (fun rs s1 => launchNow o s1 (layReplies ((heldData s).getD []) rs))
       if (heldRop s).isSome then far id else
       match t with
       | .error e => stopBody s e
       | .ok g =>
         match (if checkedBefore ph s then none else accChecks s g 16) with
         | some e => .trap s e
         | none =>
           match locate s g.x 0 with
           | .error e => stopChecked s e
           | .ok (.peer dev a) =>
             if devBad s dev then .trap s (trapAt 0x0503 g.x.addr 0) else far (startLoad dev g.x.addr a 64 .plain)
           | .ok (.mixed l) => mixedLoad {} g.x l ph s
           | .ok (.here ps) =>
             if ownTouches s s.cur.1 s.cur.2 true ps then .hold s .room 1
             else
               match badTrap s g.x (granules ps) with
               | some b => b
               | none => launchNow o (noteAcc s g.x) (ps.flatMap (seenBytes s s.cur.1 s.cur.2)))
def execLaunch (o : Ops) (s : State) : Host.Outcome State Fault Refusal := issue (.launch o) o .both false (launchBody o) s

/- The checks of R19 and R44. -/

/-- A list of options that all hold a value. -/
def optAll {α : Type} : List (Option α) → Option (List α)
  | [] => some []
  | x :: t => match x, optAll t with
    | some v, some l => some (v :: l)
    | _, _ => none

/-- The 8-byte words of a list. -/
def wordsOf (bs : List Byte) (n : Nat) : List W64 := (List.range n).map (fun i => BitVec.ofNat 64 (leAt bs (8 * i) 8))

/-- What the dispatcher reads of a task: descriptor, region list and successor list (R20, R23, R24). -/
structure TaskIn where
  td : List Byte
  regs : List W64
  succ : List W64

def tdLcore (t : TaskIn) : Nat := leAt t.td 0 2
def tdFlags (t : TaskIn) : Nat := leAt t.td 2 2
def tdStart (t : TaskIn) : Nat := leAt t.td 4 4
def tdRegreq (t : TaskIn) : Nat := leAt t.td 8 4
def tdSpreq (t : TaskIn) : Nat := leAt t.td 12 4
def tdNvault (t : TaskIn) : Nat := leAt t.td 0x1D 1
def tdHandlers (td : List Byte) : List W64 := (List.range 16).map (fun i => BitVec.ofNat 64 (leAt td (0x40 + 8 * i) 8))

def readTask (s : State) (pasid : BitVec 20) (va : Nat) : Option TaskIn :=
  match dispBytes s pasid va 256 with
  | none => none
  | some td =>
    let n := leAt td 0x1C 1
    let m := leAt td 0x30 4
    match (if n = 0 ∨ 32 < n then some [] else dispBytes s pasid (leAt td 0x20 8) (8 * n)),
          (if m = 0 then some [] else dispBytes s pasid (leAt td 0x28 8) (8 * m)) with
    | some r, some q => some { td := td, regs := wordsOf r (if 32 < n then 0 else n), succ := wordsOf q m }
    | _, _ => none

/-- Sender-set records as they follow one another (R37): the records, or none where one cannot be read. -/
structure SendIn where
  head : Nat
  set : List Nat

def readSenders (s : State) (pasid : BitVec 20) : Nat → Nat → Option (List SendIn)
  | 0, _ => some []
  | n + 1, va =>
    match dispBytes s pasid va 8 with
    | none => none
    | some h =>
      let cnt := leAt h 6 2
      let len := (2 * cnt + 7) / 8 * 8
      match dispBytes s pasid (va + 8) len with
      | none => none
      | some b =>
        match readSenders s pasid n (va + 8 + len) with
        | none => none
        | some l => some ({ head := leAt h 0 6, set := (List.range cnt).map (fun i => leAt b (2 * i) 2) } :: l)

/-- A graph as read: descriptor, tasks, interlocking table, sender sets. -/
structure GraphIn where
  gd : List Byte
  tasks : List TaskIn
  locks : List (List Byte)
  sends : List SendIn

def gdW (g : GraphIn) : Nat := leAt g.gd 8 2
def gdH (g : GraphIn) : Nat := leAt g.gd 0x0A 2
def gdOtask (g : GraphIn) : Nat := leAt g.gd 0x48 4
def gdCode (g : GraphIn) : Nat := leAt g.gd 0x50 8

/-- Reason 2 by TASKS alone: the task table is not read (R19). -/
def tasksBad (gd : List Byte) : Bool := decide (leAt gd 0x0C 4 = 0 ∨ 65536 < leAt gd 0x0C 4)

def readGraph (s : State) (pasid : BitVec 20) (gd : List Byte) : Option GraphIn :=
  let n := if tasksBad gd then 0 else leAt gd 0x0C 4
  let m := leAt gd 0x2C 2
  match optAll ((List.range n).map (fun i => readTask s pasid (leAt gd 0x10 8 + 256 * i))),
        (if m = 0 ∨ 256 < m then some [] else dispBytes s pasid (leAt gd 0x38 8) (32 * m)),
        readSenders s pasid (leAt gd 0x2E 2) (leAt gd 0x40 8) with
  | some ts, some lb, some ss =>
    some { gd := gd, tasks := ts, locks := (List.range (if 256 < m then 0 else m)).map (fun i => sliceZ lb (32 * i) 32), sends := ss }
  | _, _, _ => none

/-- The graph has an ordered-task kernel, and task i is it (R36). Without HASORD there is none, whatever OTASK holds (DESIGN CHOICE,
log entry 75). -/
def isKernel (g : GraphIn) (i : Nat) : Bool := bitAt (leAt g.gd 4 4) 1 && decide (i = gdOtask g)

/-- The tile tasks: every task but the ordered-task kernel (R36). -/
def tileTasks (g : GraphIn) : List TaskIn :=
  (((List.range g.tasks.length).zip g.tasks).filter (fun p => !isKernel g p.1)).map (·.2)

/-- The vault grants a task uses (R27). -/
def grantsIn (t : TaskIn) : List (List Byte) := (List.range (min 4 (tdNvault t))).map (fun j => sliceZ t.td (0xC0 + 16 * j) 16)

/-- A view register holds a reserved value (R79). -/
def viewBad (v t a : Nat) : Bool :=
  decide (2 ^ 17 ≤ v ∨ 256 < fieldAt v 8 9 ∨ 2 ^ 14 ≤ t ∨ 32 < fieldAt t 8 6 ∨ 2 ^ 12 ≤ a ∨ 8 < fieldAt a 8 4)

/-- Reason 1 (R19): a wrong VERSION, SIZE, count or reserved field. Of the grant slots the first NVAULT are looked at (DESIGN CHOICE,
log entry 75). -/
def headBad (gd : List Byte) : Bool :=
  decide (leAt gd 0 2 ≠ 1 ∨ leAt gd 2 2 ≠ 128 ∨ 4 ≤ leAt gd 4 4 ∨ leAt gd 0x58 40 ≠ 0 ∨ 1024 < leAt gd 0x28 2
    ∨ 1024 < leAt gd 0x2A 2 ∨ 256 < leAt gd 0x2C 2 ∨ leAt gd 0x18 8 % 4 ≠ 0 ∨ leAt gd 0x10 8 % 64 ≠ 0)
def taskBad (t : TaskIn) : Bool :=
  decide (2 ≤ tdFlags t ∨ leAt t.td 0x34 4 ≠ 0 ∨ 32 < leAt t.td 0x1C 1 ∨ 4 < tdNvault t ∨ 256 < leAt t.td 0x1E 2)
    || viewBad (leAt t.td 0x10 4) (leAt t.td 0x14 4) (leAt t.td 0x18 4)
    || (tdHandlers t.td).any (fun h => decide (fieldAt h.toNat 52 2 ≠ 0))
    || (grantsIn t).any (fun g => decide (fieldAt (leAt g 0 4) 30 2 ≠ 0 ∨ 8 ≤ leAt g 8 4 ∨ leAt g 12 4 ≠ 0))
    || t.succ.any (fun e => decide (fieldAt e.toNat 48 16 ≠ 0 ∨ fieldAt e.toNat 32 16 = 0))
/-- A record of a sender set is malformed. The padding behind its indices is not looked at: R37 calls it zeros and names no check (DESIGN
CHOICE, log entry 75). -/
def sendBad (x : SendIn) : Bool :=
  decide (fieldAt x.head 35 13 ≠ 0 ∨ x.set.length = 0 ∨ 4096 < x.set.length)
    || (x.set.zip x.set.tail).any (fun p => decide (p.2 ≤ p.1))

/-- Reason 5 (R24, R25). -/
def regOfs (r : W64) : Nat := fieldAt r.toNat 0 17
def regSize (r : W64) : Nat := 16 * fieldAt r.toNat 17 14
def regNum (r : W64) : Nat := fieldAt r.toNat 35 5
def regionsBad (t : TaskIn) : Bool :=
  let lim := (tdSpreq t + 2047) / 2048 * 2048
  t.regs.any (fun r => decide (fieldAt r.toNat 34 1 ≠ 0 ∨ fieldAt r.toNat 40 24 ≠ 0 ∨ regOfs r % 16 ≠ 0 ∨ regSize r = 0
      ∨ 16 * 8192 < regSize r ∨ lim < regOfs r + regSize r))
    || (List.range t.regs.length).any (fun i => (t.regs.drop (i + 1)).any (fun q =>
        let r := t.regs.getD i 0
        decide (regNum q = regNum r) || rangesMeet (regOfs r) (regSize r) (regOfs q) (regSize q)))

/-- Reason 6 (R27, R28). -/
def grantBad (g : List Byte) : Bool :=
  let w := leAt g 0 4
  let len := leAt g 4 4
  decide (len = 0 ∨ fieldAt (leAt g 8 4) 0 2 = 0 ∨ fieldAt w 0 23 % 16 ≠ 0 ∨ len % 16 ≠ 0 ∨ 2 ^ 23 < fieldAt w 0 23 + len)

/-- Reason 7 (R11, R13): the first word of an entry lies in the code. R13 holds for entry 0 of the ordered-task kernel too (DESIGN
CHOICE, log entry 75). -/
def entryBad (codesize : Nat) (h : W64) : Bool :=
  h.getLsbD 63 && (decide (codesize < 4 * fieldAt h.toNat 0 26 + 12)
    || (h.getLsbD 62 && decide (codesize < 4 * fieldAt h.toNat 26 26 + 12)))
def handlersBad (codesize : Nat) (t : TaskIn) : Bool :=
  let h0 := (tdHandlers t.td).headD 0
  !(h0.getLsbD 63 && h0.getLsbD 54) || (tdHandlers t.td).any (entryBad codesize)

/-- Reason 8 (R32). -/
def lockBad (g : GraphIn) (e : List Byte) : Bool :=
  let spc := leAt e 0x10 1
  let mode := leAt e 0x11 1
  let attr := leAt e 0x13 1
  let wr := leAt e 0x14 4
  let gov := leAt e 0x18 4
  let kind := fieldAt gov 0 2
  let ofs := fieldAt gov 9 17
  decide (leAt e 0 8 % 16 ≠ 0 ∨ leAt e 8 8 = 0 ∨ leAt e 8 8 % 16 ≠ 0 ∨ spc = 0 ∨ 3 < spc ∨ 4 < mode ∨ 4 ≤ attr
      ∨ (attr ≠ 0 ∧ mode ≠ 2) ∨ (bitAt attr 1 = true ∧ kind ≠ 1) ∨ 2 ^ 19 ≤ wr ∨ 2 ^ 26 ≤ gov ∨ kind = 3 ∨ (mode = 1 ∧ kind = 0) ∨ leAt e 0x1E 2 ≠ 0
      ∨ (4095 < leAt e 0x1C 2 ∧ leAt e 0x1C 2 ≠ 0xFFFF))
    || (decide (kind = 2) && (decide (ofs % 16 ≠ 0) || (tileTasks g).any (fun t =>
        !(t.regs.any (fun r => decide (regNum r = fieldAt gov 4 5 ∧ ofs + 16 ≤ regSize r))))))
def locksBad (g : GraphIn) : Bool :=
  g.locks.any (lockBad g)
    || (List.range g.locks.length).any (fun i => (g.locks.drop (i + 1)).any (fun b =>
        let a := g.locks.getD i []
        decide (leAt a 0x10 1 = leAt b 0x10 1) && rangesMeet (leAt a 0 8) (leAt a 8 8) (leAt b 0 8) (leAt b 8 8)))

/-- Reason 9 (R19, R23): every successor list is looked at, and the tile tasks for a STARTCNT of 0, which the ordered-task kernel always
has (DESIGN CHOICE, log entry 75). -/
def succBad (g : GraphIn) : Bool :=
  g.tasks.any (fun t => t.succ.any (fun e => decide (g.tasks.length ≤ fieldAt e.toNat 0 32)))
    || !(tileTasks g).any (fun t => decide (tdStart t = 0))

/-- Reason 10 (R36). -/
def kernelBad (g : GraphIn) : Bool :=
  let has := bitAt (leAt g.gd 4 4) 1
  let ocap := leAt g.gd 0x4C 4
  (tileTasks g).any (fun t => bitAt (tdFlags t) 0 || t.succ.any (fun e => has && decide (fieldAt e.toNat 0 32 = gdOtask g)))
    || (if has then
          match g.tasks[gdOtask g]? with
          | none => true
          | some k =>
            !(bitAt (tdFlags k) 0) || decide (tdLcore k ≠ 0xFFFF ∨ tdStart k ≠ 0 ∨ k.succ ≠ [] ∨ leAt k.td 0x1E 2 ≠ 0 ∨ ocap = 0
              ∨ 65536 < ocap) || (tdHandlers k.td).tail.any (fun h => h.getLsbD 63)
        else decide (gdOtask g ≠ 0xFFFFFFFF))

/-- Reason 11 (R38): each channel that stands in a CHM bit of a task, c0 in another entry than the first, has its one sender set. The
ordered-task kernel needs none: its only message is START, which is outside every set (DESIGN CHOICE, log entry 75). -/
def needsSet (hs : List W64) (c : Nat) : Bool :=
  ((List.range hs.length).zip hs).any (fun p => bitAt (fieldAt p.2.toNat 54 8) c && (decide (c ≠ 0) || decide (p.1 ≠ 0)))
def sendersBad (g : GraphIn) : Bool :=
  ((List.range g.tasks.length).zip g.tasks).any (fun p =>
    !isKernel g p.1 && (List.range 8).any (fun c =>
      needsSet (tdHandlers p.2.td) c
        && decide ((g.sends.filter (fun x => decide (fieldAt x.head 0 32 = p.1 ∧ fieldAt x.head 32 3 = c))).length ≠ 1)))

/-- The first reason whose check fails. -/
def firstReason : List (Bool × Nat) → Option Nat
  | [] => none
  | (b, r) :: t => if b then some r else firstReason t

/-- The checks of R19, in ascending order. det: a deterministic launch. -/
def graphReason (g : GraphIn) (det : Bool) : Option Nat :=
  let n := gdW g * gdH g
  firstReason
    [(headBad g.gd || g.tasks.any taskBad || g.sends.any sendBad, 1),
     (decide (n = 0 ∨ 4096 < n) || tasksBad g.gd, 2),
     ((tileTasks g).any (fun t => decide (n ≤ tdLcore t)), 3),
     (g.tasks.any (fun t => decide (65536 < tdRegreq t ∨ 131072 < tdSpreq t)), 4),
     (g.tasks.any regionsBad, 5),
     (g.tasks.any (fun t => (grantsIn t).any grantBad), 6),
     (g.tasks.any (handlersBad (gdCode g)), 7),
     (locksBad g, 8), (succBad g, 9), (kernelBad g, 10),
     (det && (!bitAt (leAt g.gd 4 4) 0 || sendersBad g), 11)]

/- Placement on a grid of cores (R52, R53), as the admission check and the binds share it. -/

/-- Offsets in the order of folding: 0, 1, −1, 2, −2 and so on (R53). -/
def foldOffsets : List Int := 0 :: (List.range 15).flatMap (fun i => [((i + 1 : Nat) : Int), -((i + 1 : Nat) : Int)])

/-- The physical cores of quadrant q for logical column x and row y of a block, in order (R53). -/
def foldCores (q x y : Nat) : List Nat :=
  let line (z : Nat) : List Nat := foldOffsets.filterMap (fun d =>
    let v := (z : Int) + d
    if 0 ≤ v ∧ v < 16 then some v.toNat else none)
  (line y).flatMap (fun r => (line x).map (fun c => q * 256 + r * 16 + c))

/-- The lowest base at which n units fit beside ranges in use, below a limit. -/
def fitBase (used : List (Nat × Nat)) (n limit : Nat) : Option Nat :=
  if limit < n then none else (List.range (limit - n + 1)).find? (fun b => !used.any (fun u => rangesMeet u.1 u.2 b n))

/-- The register store in KiB and the scratchpad in rows that requests take (R21, R22). -/
def regKiB (req : Nat) : Nat := (req + 1023) / 1024
def spRows (req : Nat) : Nat := (req + 2047) / 2048

/-- What a core has given out: berths, KiB, rows. -/
def fitsIn (u : Nat × Nat × Nat) (r p : Nat) : Bool := decide (u.1 < 4 ∧ u.2.1 + r ≤ 64 ∧ u.2.2 + p ≤ 64)

/-- Requests placed one after another on an empty quadrant q of the device as fitted (R52). Each: column, row, KiB, rows. -/
def placeEmpty (absent : List Nat) (q : Nat) : List (Nat × Nat × Nat × Nat) → AMap (Nat × Nat × Nat) → Bool
  | [], _ => true
  | (x, y, r, p) :: t, used =>
    match (foldCores q x y).find? (fun c => !absent.contains c && fitsIn (amGet (0, 0, 0) used c) r p) with
    | none => false
    | some c =>
      let u := amGet (0, 0, 0) used c
      placeEmpty absent q t (amSet used c (u.1 + 1, u.2.1 + r, u.2.2 + p))

/-- The block of a logical core (R52). -/
def blockOf (w lc : Nat) : Nat := lc % w / 16 + lc / w / 16 * ((w + 15) / 16)

/-- What each logical core of a graph needs at once: the largest of its tasks, which run one after another (R8). -/
def coreNeeds (g : GraphIn) : AMap (Nat × Nat) :=
  (tileTasks g).foldl (fun m t =>
    let o := amGet (0, 0) m (tdLcore t)
    amSet m (tdLcore t) (max o.1 (regKiB (tdRegreq t)), max o.2 (spRows (tdSpreq t)))) []

/-- Reason 16 (R52): some block fits into no quadrant. It is tried once on an empty quadrant, its logical cores in rising
order, each on the first core that has room in the order of R53 (DESIGN CHOICE, log entry 75). -/
def placementBad (s : State) (g : GraphIn) : Bool :=
  let w := gdW g
  let needs := coreNeeds g
  let blocks := (needs.map (fun p => blockOf w p.1)).eraseDups
  blocks.any (fun b =>
    let l := (needs.filter (fun p => blockOf w p.1 == b)).map (fun p => (p.1 % w % 16, p.1 / w % 16, p.2.1, p.2.2))
    !(List.range 4).any (fun q => placeEmpty s.absent q l []))

/- Admission (R44, R45). -/

/-- Reason 13 (R44): a malformed packet. -/
def packetBad (s : State) (ctx : Nat) (k : LaunchPkt) : Bool :=
  let p := k.bytes
  let c := ctxOf s ctx
  decide (2 ^ 20 ≤ leAt p 0x0C 4 ∨ 4 ≤ leAt p 0x10 1 ∨ 8 ≤ pkFlags p ∨ 4 < pkNpre p ∨ leAt p 0x38 8 ≠ 0 ∨ leAt p 0 8 % 64 ≠ 0
      ∨ pkCaddr p % 64 ≠ 0)
    || (bitAt (pkFlags p) 1 && decide (pkSave p = 0 ∨ pkSave p % 4096 ≠ 0))
    || (List.range 4).any (fun i => decide (pkNpre p ≤ i) && decide (leAt p (0x18 + 4 * i) 4 ≠ 0))
    || (k.host && !c.anypasid && decide (pkPasid p ≠ c.cpasid))
    || (match k.pasid with | some x => decide (pkPasid p ≠ x) | none => false)

/-- Reason 14 (R44). -/
def gidBad (s : State) (k : LaunchPkt) : Bool :=
  let gid := pkGid k.bytes
  decide (gid = 0) || (pkPre k.bytes).contains gid || (findGraph s gid).isSome

/-- A prerequisite is pending: its graph is admitted, or its completion record is on its way (R45, R64). -/
def prePending (s : State) (gid : Nat) : Bool := (findGraph s gid).isSome || onItsWay s gid

/-- A prerequisite is failed (R45). -/
def preFailed (s : State) (gid : Nat) : Bool :=
  !prePending s gid && (match s.fw.done.find? (fun e => e.1 == gid) with | some e => decide (e.2 ≠ 0) | none => false)

/-- An interlocking entry from its bytes (R32). -/
def lockOf (e : List Byte) : ILock :=
  let wr := leAt e 0x14 4
  let gov := leAt e 0x18 4
  { base := leAt e 0 8, len := leAt e 8 8, space := leAt e 0x10 1, mode := leAt e 0x11 1,
    pattern := BitVec.ofNat 8 (leAt e 0x12 1), emul := bitAt (leAt e 0x13 1) 0, ordred := bitAt (leAt e 0x13 1) 1,
    wcore := fieldAt wr 0 16, weng := fieldAt wr 16 3, gov := fieldAt gov 0 2, shape := fieldAt gov 2 2,
    govReg := fieldAt gov 4 5, govOfs := fieldAt gov 9 17 }

/-- A task of an admitted graph. -/
def taskOf (va : Nat) (prio : BitVec 2) (t : TaskIn) : Task :=
  { lcore := tdLcore t, tdesc := BitVec.ofNat 64 va, counter := tdStart t, start0 := decide (tdStart t = 0),
    succ := t.succ.map (fun e => (fieldAt e.toNat 0 32, fieldAt e.toNat 32 16)), regreq := tdRegreq t, spreq := tdSpreq t,
    prio := prio, ownGrant := (grantsIn t).any (fun g => bitAt (leAt g 8 4) 2) }

/-- The admitted graph of a packet (R40, R18). -/
def graphFrom (ctx : Nat) (k : LaunchPkt) (g : GraphIn) : Graph :=
  let p := k.bytes
  let prio := BitVec.ofNat 2 (leAt p 0x10 1)
  let tab := leAt g.gd 0x10 8
  { gid := pkGid p, pasid := pkPasid p, prio := prio, det := bitAt (pkFlags p) 0, pre := bitAt (pkFlags p) 1,
    coll := bitAt (pkFlags p) 2, ltag := BitVec.ofNat 32 (leAt p 0x14 4), caddr := BitVec.ofNat 64 (pkCaddr p),
    save := BitVec.ofNat 64 (pkSave p), ctx := ctx, rack := k.rack, prereq := pkPre p, gridw := gdW g, gridh := gdH g,
    code := BitVec.ofNat 64 (leAt g.gd 0x18 8), codesize := BitVec.ofNat 64 (gdCode g), pool := BitVec.ofNat 64 (leAt g.gd 0x20 8),
    pooln := leAt g.gd 0x28 2, tmaptab := BitVec.ofNat 64 (leAt g.gd 0x30 8), tmapn := leAt g.gd 0x2A 2,
    ilock := g.locks.map lockOf,
    senders := g.sends.map (fun x => { task := fieldAt x.head 0 32, chan := BitVec.ofNat 3 (fieldAt x.head 32 3), set := x.set }),
    detOk := bitAt (leAt g.gd 4 4) 0, hasOrd := bitAt (leAt g.gd 4 4) 1, otask := gdOtask g, ocap := leAt g.gd 0x4C 4,
    okern := BitVec.ofNat 64 (tab + 256 * gdOtask g),
    tasks := ((List.range g.tasks.length).zip g.tasks).map (fun q => taskOf (tab + 256 * q.1) prio q.2) }

/-- Tasks whose counters are 0 become eligible (R23). -/
def freeTasks (wall : Nat) (g : Graph) : Graph :=
  { g with tasks := ((List.range g.tasks.length).zip g.tasks).map (fun p =>
      if p.2.st = .waiting ∧ p.2.counter = 0 ∧ p.1 ≠ g.otask then { p.2 with st := .eligible, since := wall } else p.2) }

/-- The graph becomes active (R45). -/
def activate (wall : Nat) (g : Graph) : Graph := freeTasks wall { g with active := true, activeWall := wall }

/-- A graph that was admitted is rejected with reason 12 (R45). -/
def rejectGraph (s : State) (g : Graph) : State :=
  let s1 := { s with graphs := s.graphs.filter (fun x => x.gid != g.gid) }
  rejectAt s1 { ctx := g.ctx, rack := g.rack, pasid := g.pasid, caddr := g.caddr.toNat, gid := g.gid, ltag := g.ltag.toNat } 12 true

/-- The prerequisites of a waiting graph are looked at (R45): rejected, still waiting, or active. A GID that was admitted anew between
its completion and this look counts as pending again (DEDUCED, log entry 76). -/
def recheck (s : State) (g : Graph) : State :=
  if g.active then s
  else if g.prereq.any (preFailed s) then rejectGraph s g
  else
    let left := g.prereq.filter (prePending s)
    updGraph s g.gid (fun x => if left.isEmpty then activate s.wall { x with prereq := [] } else { x with prereq := left })

/-- The cached lines of a graph's code are invalidated at its admission (R69). -/
def dropCode (s : State) (g : Graph) : State :=
  { s with clusters := s.clusters.map (fun p => (p.1, { p.2 with icache := p.2.icache.filter (fun l =>
      !(decide (l.pasid = g.pasid) && rangesMeet (64 * l.addr) 64 g.code.toNat g.codesize.toNat)) })) }

/-- A packet that was taken is checked and admitted, or rejected (R44). -/
def admitGraph (s : State) (ctx : Nat) (k : LaunchPkt) : State :=
  let rej (r : Nat) : State := rejectPacket s ctx k r true
  if packetBad s ctx k then rej 13
  else if gidBad s k then rej 14
  else
    match dispBytes s (pkPasid k.bytes) (leAt k.bytes 0 8) 128 with
    | none => rej 1
    | some gd =>
      match readGraph s (pkPasid k.bytes) gd with
      | none => rej 1
      | some g =>
        match graphReason g (bitAt (pkFlags k.bytes) 0) with
        | some r => rej r
        | none =>
          if placementBad s g then rej 16
          else if (pkPre k.bytes).any (preFailed s) then rej 12
          else
            let x := graphFrom ctx k g
            recheck (dropCode { s with graphs := s.graphs ++ [x] } x) x

/-- DISPATCHER_TAKE_PACKET (R44): round robin from the context after the one served last. -/
def execDispatcherTakePacket (s : State) : Host.Outcome State Fault Refusal :=
  .next (match ((List.range 16).map (fun i => (s.lastCtx + 1 + i) % 16)).find? (fun c => !(ctxOf s c).queue.isEmpty) with
    | none => s
    | some c =>
      match (ctxOf s c).queue with
      | [] => s
      | k :: t => admitGraph { setCtx s c { ctxOf s c with queue := t } with lastCtx := c } c k)

/-- PREREQ_RECHECK (R45). -/
def execPrereqRecheck (gid : Nat) (s : State) : Host.Outcome State Fault Refusal :=
  .next (match findGraph s gid with
    | some g => recheck s g
    | none => s)

end Sys2Proof.Machine
end

