-- ==== Sys2Proof/Machine/Berths.lean ====
section
/-! DEFINITION. Berths (R46 to R55, R60): placement and binds, LOADING, priorities, pre-emption, migration, the context-save
engine (R398 to R401), and the messages of moved tasks. -/

namespace Sys2Proof.Machine

/- Room on a core (R53, R196). -/

def allBerthNos : List (BitVec 2) := [0, 1, 2, 3]

/-- A berth has a copy, PCE request or network request outstanding (R196, R369). -/
def engineBusy (s : State) (c : Nat) (b : BitVec 2) : Bool :=
  s.copies.any (fun k => decide (k.core = c ∧ k.berth = b)) || s.net.reqs.any (fun r => decide (r.core = c ∧ r.berth = b))

/-- Stores of a berth have still to be performed: a move of its memory follows them (R283, R400). -/
def storesLeft (s : State) (c : Nat) (b : BitVec 2) : Bool := s.posted.any (fun p => p.core == c && p.berth == b)

/-- The berth holds its allocation (R409). -/
def berthHeld (s : State) (c : Nat) (b : BitVec 2) : Bool :=
  decide ((berthAt (coreOf s c) b).state ≠ .free) || engineBusy s c b

/-- The lowest free berth of a core with room for r KiB and p rows: berth, REGB and SPB (R53). -/
def roomAt (s : State) (c r p : Nat) : Option (BitVec 2 × Nat × Nat) :=
  if s.absent.contains c || (pairOf s (pairNo c)).noBind then none
  else
    let k := coreOf s c
    let held := allBerthNos.filter (berthHeld s c)
    match allBerthNos.find? (fun b => !berthHeld s c b), fitBase (held.map (fun b => ((berthAt k b).regB, (berthAt k b).regN))) r 64,
        fitBase (held.map (fun b => ((berthAt k b).spB, (berthAt k b).spN))) p 64 with
    | some b, some x, some y => some (b, x, y)
    | _, _, _ => none

/-- A place for a task: core, berth, REGB, SPB. -/
structure Spot where
  core : Nat
  berth : BitVec 2
  regB : Nat
  spB : Nat
  deriving DecidableEq, Repr

def spotOf (s : State) (c r p : Nat) : Option Spot :=
  (roomAt s c r p).map (fun x => { core := c, berth := x.1, regB := x.2.1, spB := x.2.2 })

/-- The first core of quadrant q, in the order of folding, that has room for a task of a graph (R53). -/
def spotIn (s : State) (g : Graph) (q : Nat) (t : Task) : Option Spot :=
  (foldCores q (t.lcore % g.gridw % 16) (t.lcore / g.gridw % 16)).findSome? (fun c =>
    spotOf s c (regKiB t.regreq) (spRows t.spreq))

/-- A spot taken in a trial. -/
def takeSpot (s : State) (x : Spot) (r p : Nat) : State :=
  updBerth s x.core x.berth (fun k => { k with state := .loading, regB := x.regB, regN := r, spB := x.spB, spN := p })

/-- A quadrant can hold these tasks at once (R52). -/
def canHold (s : State) (g : Graph) (q : Nat) : List Task → Bool
  | [] => true
  | t :: l =>
    match spotIn s g q t with
    | none => false
    | some x => canHold (takeSpot s x (regKiB t.regreq) (spRows t.spreq)) g q l

/-- A quadrant's headroom: of each pair, its grant less the sum of the two layer currents of its last report. Which current a
grant is held against is the model's choice (R58, DESIGN CHOICE, log entry 75). -/
def headroom (s : State) (q : Nat) : Int :=
  (List.range 16).foldl (fun a i =>
    let p := pairOf s (q * 16 + i)
    a + ((10 * p.grant : Nat) : Int) - ((p.upMA + p.loMA : Nat) : Int)) 0
/-- The temperature of a cluster, and that of the hottest cluster of a quadrant (R52). -/
def tempOf (s : State) (n : Nat) : Int := amGet 0 s.power.temps n
def hottest (s : State) (q : Nat) : Int :=
  (List.range 32).foldl (fun a i => max a (tempOf s (q * 32 + i))) (tempOf s (q * 32))

/-- Tests 2 to 4 of R52. -/
def betterHome (s : State) (a b : Nat) : Bool :=
  decide (headroom s b < headroom s a ∨ (headroom s a = headroom s b ∧
    (hottest s a < hottest s b ∨ (hottest s a = hottest s b ∧ a < b))))
def bestHome (s : State) : List Nat → Option Nat
  | [] => none
  | a :: t => match bestHome s t with
    | none => some a
    | some b => if betterHome s b a then some b else some a

/-- The home quadrant of a block that has none yet (R52). -/
def chooseHome (s : State) (g : Graph) (blk : Nat) : Option Nat :=
  let now := g.tasks.filter (fun t => decide ((t.st = .eligible ∨ t.st = .saved) ∧ blockOf g.gridw t.lcore = blk))
  match (List.range 4).filter (fun q => canHold s g q now) with
  | [] => bestHome s ((List.range 4).filter (fun q => now.any (fun t => (spotIn s g q t).isSome)))
  | l => bestHome s l

/-- Where a task would be bound now, with the quadrant (R52, R53). -/
def placeTask (s : State) (g : Graph) (t : Task) : Option (Nat × Spot) :=
  let blk := blockOf g.gridw t.lcore
  match (match amFind g.homes blk with | some q => some q | none => chooseHome s g blk) with
  | none => none
  | some q => (spotIn s g q t).map (fun x => (q, x))

/- Who is bound next (R8, R46). -/

/-- A task may be bound: eligible, or saved, and no other task of its logical core stands before it (R8). -/
def taskWaits (g : Graph) (i : Nat) (t : Task) : Bool :=
  g.active && !g.failing && !g.complete && decide (i ≠ g.otask) && (t.st == .eligible || t.st == .saved)
    && !((List.range g.tasks.length).zip g.tasks).any (fun p =>
        decide (p.1 ≠ i ∧ p.2.lcore = t.lcore)
          && (decide (p.2.st = .bound) || decide (p.2.st = .saved ∧ t.st ≠ .saved) || decide (p.2.st = .eligible ∧ t.st = .eligible ∧ p.1 < i)))

/-- The key of R46. -/
structure BindKey where
  prio : Nat
  wall : Nat
  gid : Nat
  task : Nat
  deriving DecidableEq, Repr

def keyLess (a b : BindKey) : Bool :=
  decide (a.prio < b.prio ∨ (a.prio = b.prio ∧ (a.wall < b.wall ∨ (a.wall = b.wall ∧ (a.gid < b.gid ∨ (a.gid = b.gid ∧ a.task < b.task))))))

/-- Every task that waits to be bound, with its key. -/
def waitingTasks (s : State) : List BindKey :=
  s.graphs.flatMap (fun g => ((List.range g.tasks.length).zip g.tasks).filterMap (fun p =>
    if taskWaits g p.1 p.2 then some { prio := p.2.prio.toNat, wall := g.activeWall, gid := g.gid, task := p.1 } else none))

def taskAtKey (s : State) (k : BindKey) : Option (Graph × Task) :=
  match findGraph s k.gid with
  | none => none
  | some g => (g.tasks[k.task]?).map (fun t => (g, t))

/-- The first task in the order of R46 that can be placed, and its place. -/
def firstBind (s : State) : Option (BindKey × Nat × Spot) :=
  (waitingTasks s).foldl (fun best k =>
    if (match best with | some b => keyLess k b.1 | none => true) then
      match taskAtKey s k with
      | none => best
      | some (g, t) => match placeTask s g t with
        | none => best
        | some x => some (k, x)
    else best) none

/-- A task takes a berth: the bind record is written and the berth goes to LOADING (R49, R50). -/
def bindAt (s : State) (g : Graph) (i : Nat) (t : Task) (q : Nat) (x : Spot) (move : Bool) : State :=
  let s1 := updGraph s g.gid (fun h =>
    { setTask h i (fun u => { u with st := .bound, prio := g.prio, aged := 0 }) with homes := amSet h.homes (blockOf g.gridw t.lcore) q })
  reslice (updBerth s1 x.core x.berth (fun _ =>
    { gid := g.gid, task := i, lcore := BitVec.ofNat 16 t.lcore, state := .loading, prio := g.prio, det := g.det, pre := g.pre,
      coll := g.coll, regB := x.regB, regN := regKiB t.regreq, spB := x.spB, spN := spRows t.spreq, tdesc := t.tdesc, pasid := g.pasid,
      ownV := BitVec.ofNat 7 (clusterNo x.core), seed := BitVec.ofNat 64 ((i + 1) * 0x9E3779B97F4A7C15), bindWall := s.wall,
      moveWall := if move then some s.wall else none, restore := t.slot })) x.core

/-- The next bind is that of a task (R46). -/
def bindNext (s : State) (gid task : Nat) (saved : Bool) : State :=
  match firstBind s with
  | none => s
  | some (k, q, x) =>
    if k.gid = gid ∧ k.task = task then
      match taskAtKey s k with
      | none => s
      | some (g, t) => if decide (t.st = .saved) = saved then bindAt s g task t q x saved else s
    else s

/-- BIND_TASK (R53). -/
def execBindTask (gid task : Nat) (s : State) : Host.Outcome State Fault Refusal := .next (bindNext s gid task false)

/-- RESTORE (R401): a saved task is bound as any other, and LOADING reads its slot. -/
def execRestore (gid task : Nat) (s : State) : Host.Outcome State Fault Refusal := .next (bindNext s gid task true)

/- LOADING (R50). -/

/-- A vault grant as loaded (R27, R28). -/
def grantOf (own : BitVec 7) (g : List Byte) : Grant :=
  let w := leAt g 0 4
  let fl := leAt g 8 4
  { ofs := BitVec.ofNat 23 (fieldAt w 0 23), vault := if bitAt fl 2 then own else BitVec.ofNat 7 (fieldAt w 23 7),
    len := BitVec.ofNat 32 (leAt g 4 4), rd := bitAt fl 0, wr := bitAt fl 1, own := bitAt fl 2 }

/-- Handler table, region list, grants and views enter the core (R50, R9). -/
def loadTables (k : Berth) (t : TaskIn) : Berth :=
  { k with handlers := tdHandlers t.td, regions := t.regs, grants := (grantsIn t).map (grantOf k.ownV),
           viewV0 := BitVec.ofNat 32 (leAt t.td 0x10 4), viewT0 := BitVec.ofNat 32 (leAt t.td 0x14 4),
           viewA0 := BitVec.ofNat 32 (leAt t.td 0x18 4) }

/-- The full/empty bits of n granules from a flat granule number. -/
def setFes (s : State) (g n : Nat) (v : Bool) : State :=
  { s with fe := if v then wrBytes s.fe g (List.replicate n 1) else wrZeros s.fe g n }

/-- Bytes of SRAM cleared whole: good again (R181). -/
def clearSram (s : State) (a n : Nat) : State := { s with mem := wrZeros s.mem a n, bad := wrZeros s.bad (a / 16) (n / 16) }

/-- The scratchpad allocation is unspecified, data and full/empty bits (R26, R171). -/
def forgetAlloc (s : State) (c : Nat) (k : Berth) : State :=
  let a := spAddr c (k.spB * 2048)
  { s with mem := forget s.mem a (k.spN * 2048) s.fresh, fe := forget s.fe (a / 16) (k.spN * 128) (s.fresh + 1), fresh := s.fresh + 2 }

/-- Named regions at START (R25). -/
def initRegions (s : State) (c : Nat) (k : Berth) : State :=
  k.regions.foldl (fun t r =>
    let a := spAddr c (k.spB * 2048 + regOfs r)
    let t1 := if bitAt r.toNat 31 then clearSram t a (regSize r) else t
    setFes t1 (a / 16) (regSize r / 16) (bitAt r.toNat 32)) (forgetAlloc s c k)

/-- The register-store allocation holds zero (R21). -/
def zeroRegs (s : State) (c : Nat) (k : Berth) : State := clearSram s (rsAddr c (k.regB * 1024)) (k.regN * 1024)

/- Save slots (R398, R399). -/

def slotAt (g : Graph) (i : Nat) : Nat := g.save.toNat + 0x1000 + i * 0x3C000

/-- The lowest clear bit of the slot bitmap (R398). Only a pre-emptible graph has a save area (R40). -/
def freeSlot (s : State) (g : Graph) : Option Nat :=
  if g.pre = false then none
  else
    match dispBytes s g.pasid g.save.toNat 4096 with
    | none => none
    | some p => (List.range (min 16384 (leAt p 0 4))).find? (fun i => !bitAt (leAt p (0x800 + i / 8) 1) (i % 8))

/-- A slot's bit in the bitmap is written. -/
def slotBit (s : State) (g : Graph) (i : Nat) (v : Bool) : Option State :=
  let a := g.save.toNat + 0x800 + i / 8
  match dispBytes s g.pasid a 1 with
  | none => none
  | some b =>
    let x := leNat b
    let y := x % 2 ^ (i % 8) + bitNat v * 2 ^ (i % 8) + x / 2 ^ (i % 8 + 1) * 2 ^ (i % 8 + 1)
    dispWrite s g.pasid a (leBytes 1 y)

/-- The header of a message as sent (R203). -/
def msgHeader (m : Msg) : List Byte :=
  leBytes 4 m.route.toNat ++ leBytes 2 m.sender.toNat ++ leBytes 2 m.seq.toNat ++ leBytes 4 m.sendt.toNat ++ leBytes 2 m.len
    ++ leBytes 2 (bitNat m.ord + 2 * bitNat m.det)

/-- A message entry of a slot (R399). -/
def msgEntry (m : Msg) (place : Nat) : List Byte :=
  msgHeader m ++ sliceZ m.payload 0 256 ++ leBytes 8 m.arr ++ leBytes 1 place ++ leBytes 1 (tagChan m.route).toNat ++ leBytes 2 0
    ++ leBytes 4 (if place = 2 then m.win else 0)

/-- The messages of a berth in the order of R400. -/
def slotMsgs (k : Berth) : List (List Byte) :=
  (k.chans.toList.flatten.map (fun m => msgEntry m 0)) ++ (k.park.map (fun p => msgEntry p.msg 1)) ++ (k.winStore.map (fun m => msgEntry m 2))

def acctBytes32 (v : Vector (BitVec 32) 4) : List Byte := v.toList.flatMap (fun x => leBytes 4 x.toNat)

/-- The header of a slot (R399). -/
def slotHeader (k : Berth) (st : Nat) : List Byte :=
  leBytes 4 0x5653514B ++ leBytes 2 1 ++ leBytes 2 st ++ leBytes 4 k.gid ++ leBytes 4 k.task ++ leBytes 2 k.lcore.toNat
    ++ leBytes 1 k.regN ++ leBytes 1 k.spN ++ leBytes 4 k.acts ++ leBytes 8 k.seed.toNat ++ leBytes 8 (bitNat k.accsat)
    ++ acctBytes32 k.hbar ++ leBytes 4 k.posted.toNat ++ leBytes 2 (slotMsgs k).length ++ leBytes 2 (bitNat k.failMark.isSome)
    ++ List.replicate 448 0

/-- Bits as bytes, the first bit the least significant of the first byte. -/
def packBits (l : List Bool) (n : Nat) : List Byte :=
  (List.range n).map (fun i => BitVec.ofNat 8 ((List.range 8).foldl (fun a j => a + bitNat (l.getD (8 * i + j) false) * 2 ^ j) 0))

/-- The parts of a slot with their offsets, STATE the last of them (R399, R400). -/
def slotParts (s : State) (c : Nat) (k : Berth) : List (Nat × List Byte) :=
  let sp := spAddr c (k.spB * 2048)
  [(0x600, (slotMsgs k).flatten), (0xA000, rdBytes s.mem (rsAddr c (k.regB * 1024)) (k.regN * 1024))]
    ++ k.regions.map (fun r => (0x1A000 + regOfs r, rdBytes s.mem (sp + regOfs r) (regSize r)))
    ++ [(0x3A000, packBits ((List.range (k.spN * 128)).map (fun i => feGet s (sp / 16 + i))) (k.spN * 16)),
        (0x200, (List.range 256).flatMap (fun i => leBytes 4 (amGet 0 k.sects i))), (0, slotHeader k 0), (6, leBytes 2 1)]

/-- A berth is written to a slot (R399, R400): none where a part of it cannot be written. -/
def writeSlot (s : State) (c : Nat) (k : Berth) (g : Graph) (i : Nat) : Option State :=
  (slotParts s c k).foldl (fun o p =>
    match o with
    | none => none
    | some t => if p.2 = [] then some t else dispWrite t g.pasid (slotAt g i + p.1) p.2) (some s)

/-- The context-save engine saves a berth and frees it (R400): none where no slot can be had. -/
def saveBerth (s : State) (c : Nat) (b : BitVec 2) : Option State :=
  let k := berthAt (coreOf s c) b
  let g := graphOf s k.gid
  match freeSlot s g with
  | none => none
  | some i =>
    match writeSlot s c k g i with
    | none => none
    | some s1 =>
      match slotBit s1 g i true with
      | none => none
      | some s2 =>
        let s3 := writeAcct s2 c b 2
        let s4 := updGraph s3 k.gid (fun h => setTask h k.task (fun t =>
          { t with st := .saved, slot := some i, prio := g.prio, aged := 0, since := s.wall, markCode := k.failMark.getD 0,
                   last := BitVec.ofNat 3 (bitNat k.qres + 2 * bitNat k.cres + 4 * bitNat k.dlmiss), hbar := k.hbar, hdone := k.hdone,
                   gens := k.gens, lastSpawn := k.lastSpawn }))
        let s5 := updCore s4 c (fun x =>
          { x with gauges := x.gauges.map (fun y => if y.berth = some b then { y with berth := none, cfg := 0 } else y) })
        some (reslice (updBerth s5 c b (fun x => { x with state := .free, stopFor := none, chans := Vector.replicate 8 [], park := [], winStore := [] })) c)

/-- A message from an entry of a slot (R399): PLACE and the message. -/
def slotMsg (gid : Nat) (e : List Byte) : Nat × Msg :=
  let len := min 256 (leAt e 12 2)
  (leAt e 280 1,
   { gid := gid, route := BitVec.ofNat 32 (leAt e 0 4), sender := BitVec.ofNat 16 (leAt e 4 2), seq := BitVec.ofNat 16 (leAt e 6 2),
     sendt := BitVec.ofNat 32 (leAt e 8 4), len := len, payload := sliceZ e 16 len, ord := bitAt (leAt e 14 2) 0,
     det := bitAt (leAt e 14 2) 1, arr := leAt e 272 8, win := leAt e 284 4 })

def putSlotMsg (wall : Nat) (k : Berth) (x : Nat × Msg) : Berth :=
  match x.1 with
  | 0 => chanSet k (tagChan x.2.route) (chanGet k (tagChan x.2.route) ++ [x.2])
  | 1 => { k with park := k.park ++ [{ msg := x.2, since := wall }] }
  | _ => { k with winStore := k.winStore ++ [x.2] }

/-- What a slot gives a berth (R399, R401). -/
def slotBerth (wall : Nat) (k : Berth) (t : Task) (bs : List Byte) : Berth :=
  let h (i : Nat) : BitVec 32 := BitVec.ofNat 32 (leAt bs (0x28 + 4 * i) 4)
  let k1 : Berth :=
    { k with acts := leAt bs 0x14 4, seed := BitVec.ofNat 64 (leAt bs 0x18 8), accsat := bitAt (leAt bs 0x20 8) 0,
             hbar := Vector.ofFn (fun i => h i.val), hdone := t.hdone, gens := t.gens, lastSpawn := t.lastSpawn,
             posted := BitVec.ofNat 64 (leAt bs 0x38 4), failMark := if bitAt (leAt bs 0x3E 2) 0 ∨ t.markCode ≠ 0 then some t.markCode else none,
             sects := ((List.range 256).map (fun i => (i, leAt bs (0x200 + 4 * i) 4))).filter (fun p => p.2 != 0),
             qres := t.last.getLsbD 0, cres := t.last.getLsbD 1, dlmiss := t.last.getLsbD 2 }
  ((List.range (min 136 (leAt bs 0x3C 2))).map (fun i => slotMsg k.gid (sliceZ bs (0x600 + 288 * i) 288))).foldl (putSlotMsg wall) k1

/-- What a slot gives the memories of a berth (R401). -/
def slotMemory (s : State) (c : Nat) (k : Berth) (bs : List Byte) : State :=
  let sp := spAddr c (k.spB * 2048)
  let s1 := forgetAlloc (zeroRegs s c k) c k
  let s2 := { s1 with mem := wrBytes s1.mem (rsAddr c (k.regB * 1024)) (sliceZ bs 0xA000 (k.regN * 1024)) }
  let s3 := k.regions.foldl (fun t r =>
    let t1 := clearSram t (sp + regOfs r) (regSize r)
    { t1 with mem := wrBytes t1.mem (sp + regOfs r) (sliceZ bs (0x1A000 + regOfs r) (regSize r)) }) s2
  { s3 with fe := wrBytes s3.fe (sp / 16) ((List.range (k.spN * 128)).map (fun i =>
      if bitAt (leAt bs (0x3A000 + i / 8) 1) (i % 8) then 1 else 0)) }

/-- LOADING reads a slot and marks it empty (R401). -/
def loadSlot (s : State) (c : Nat) (b : BitVec 2) (g : Graph) (t : Task) (i : Nat) : Option State :=
  match dispBytes s g.pasid (slotAt g i) 0x3C000 with
  | none => none
  | some bs =>
    match dispWrite s g.pasid (slotAt g i + 6) (leBytes 2 0) with
    | none => none
    | some s1 =>
      match slotBit s1 g i false with
      | none => none
      | some s2 => some (updBerth (slotMemory s2 c (berthAt (coreOf s2 c) b) bs) c b (fun k => slotBerth s.wall k t bs))

/- LOADING to LIVE (R50, R13, R51, R64). -/

/-- The START message (R13). -/
def startMsg (wall : Nat) (gid lcore : Nat) (det : Bool) (payload : List Byte) : Msg :=
  { gid := gid, route := BitVec.ofNat 32 (lcore * 2 ^ 16), sender := 0xFFFF, seq := 0, sendt := BitVec.ofNat 32 wall,
    len := payload.length, payload := payload, det := det, arr := wall }

/-- The quadrants that hold berths of a graph (R63). -/
def quadsOf (s : State) (gid : Nat) : Nat :=
  (List.range 4).foldl (fun a q => a + bitNat ((berthsOf s gid).any (fun p => quadNo p.1 == q)) * 2 ^ q) 0

/-- The residency report, once every task with STARTCNT = 0 has received START (R64). -/
def residency (s : State) (gid : Nat) : State :=
  match findGraph s gid with
  | none => s
  | some g =>
    let tiles := (((List.range g.tasks.length).zip g.tasks).filter (fun p => p.1 != g.otask)).map (·.2)
    if g.resident ∨ tiles.any (fun t => t.start0 && !t.started) then s
    else
      putReport (updGraph s gid (fun h => { h with resident := true })) g.rack g.pasid g.caddr.toNat { ctx := g.ctx, gid := gid, kind := 1 }
        (reportBytes gid g.ltag.toNat 1 0 0 (tiles.filter (·.started)).length s.wall (quadsOf s gid) 0)

/-- The berth becomes LIVE and its remap entry is set (R50, R51, R110). Window messages that may enter their channels do so:
windows may have closed while the task was saved (R305). -/
def goLive (s : State) (c : Nat) (b : BitVec 2) : State :=
  let k := berthAt (coreOf s c) b
  let s1 := updBerth s c b (fun x => { x with state := .live, stopFor := none, used := 0, restore := none })
  releaseWins 65 (updGraph s1 k.gid (fun g => { g with remap := amSet g.remap k.lcore.toNat (b.toNat, c) })) c b

/-- What LOADING_DONE makes of a berth whose descriptor can be read. START enters channel 0, and an IDLE of the core sees it arrive (R13,
R394). -/
def loaded (s : State) (c : Nat) (b : BitVec 2) (g : Graph) (t : Task) (d : TaskIn) : Option State :=
  let k := berthAt (coreOf s c) b
  let s1 := updBerth s c b (fun x => loadTables x d)
  match k.restore with
  | some i =>
    (loadSlot s1 c b g t i).map (fun s2 =>
      goLive (updGraph s2 k.gid (fun h => setTask h k.task (fun u => { u with slot := none, markCode := 0, last := 0 }))) c b)
  | none =>
    let len := leAt d.td 0x1E 2
    match (if len = 0 then some [] else dispBytes s g.pasid (leAt d.td 0x38 8) len) with
    | none => none
    | some pl =>
      let k1 := berthAt (coreOf s1 c) b
      let s2 := goLive (zeroRegs (initRegions s1 c k1) c k1) c b
      let s3 := updBerth (noteIdle s2 c 1) c b (fun x => chanSet x 0 (chanGet x 0 ++ [startMsg s.wall k.gid k.lcore.toNat k.det pl]))
      some (residency (updGraph s3 k.gid (fun h => setTask h k.task (fun u => { u with started := true }))) k.gid)

/-- LOADING_DONE (R50): once the engines of the core have left the register store, and no store of the berth's last owner is
on its way. -/
def execLoadingDone (c : Nat) (b : BitVec 2) (s : State) : Host.Outcome State Fault Refusal :=
  if 1024 ≤ c then .fault (.noSuchUnit c)
  else
    let k := berthAt (coreOf s c) b
    .next (if k.state ≠ .loading ∨ storesLeft s c b ∨ !(coreOf s c).mat.queue.isEmpty then s
      else
        match findGraph s k.gid with
        | none => s
        | some g =>
          match g.tasks[k.task]?, readTask s g.pasid k.tdesc.toNat with
          | some t, some d => (loaded s c b g t d).getD s
          | _, _ => s)

/- Stops (R48, R50, R60, R397). -/

/-- A berth runs an activation. -/
def berthRuns (s : State) (c : Nat) (b : BitVec 2) : Bool :=
  match (coreOf s c).act with | some a => a.berth == b | none => false

/-- The remap entry of a berth is cleared (R51). -/
def clearRemap (s : State) (c : Nat) (b : BitVec 2) : State :=
  updGraph s (berthAt (coreOf s c) b).gid (fun g =>
    { g with remap := g.remap.filter (fun e => !decide (e.2.2 = c ∧ e.2.1 = b.toNat)) })

/-- STOP_BERTH (R50, R51): LIVE to STOPPING for the stop that has been decided. A debug stop waits for the boundary and for
copies (R419). -/
def execStopBerth (c : Nat) (b : BitVec 2) (s : State) : Host.Outcome State Fault Refusal :=
  if 1024 ≤ c then .fault (.noSuchUnit c)
  else
    let k := berthAt (coreOf s c) b
    .next (if k.state ≠ .live ∨ k.stopFor = none ∨ (k.stopFor = some .debug ∧ (berthRuns s c b ∨ engineBusy s c b)) then s
      else updBerth (clearRemap s c b) c b (fun x => { x with state := .stopping }))

/-- BERTH_FREE (R50): a berth stopped under FAIL-GRAPH that runs nothing (R65, R409). -/
def execBerthFree (c : Nat) (b : BitVec 2) (s : State) : Host.Outcome State Fault Refusal :=
  if 1024 ≤ c then .fault (.noSuchUnit c)
  else
    let k := berthAt (coreOf s c) b
    .next (if k.state ≠ .stopping ∨ k.stopFor ≠ some .failGraph ∨ berthRuns s c b then s
      else
        let s1 := writeAcct (logPending s c b) c b 3
        let s2 := if k.ordered then s1 else updGraph s1 k.gid (fun g => setTask g k.task (fun t => { t with st := .failed }))
        releaseBerth s2 c b)

/-- PRIORITY_AGING (R46). -/
def execPriorityAging (gid task : Nat) (s : State) : Host.Outcome State Fault Refusal :=
  .next (match (findGraph s gid).bind (fun g => g.tasks[task]?) with
    | none => s
    | some t =>
      if (t.st = .eligible ∨ t.st = .saved) ∧ t.prio ≠ 0 ∧ (t.aged + 1) * 1000000 ≤ s.wall - t.since then
        updGraph s gid (fun g => setTask g task (fun u => { u with prio := u.prio - 1, aged := u.aged + 1 }))
      else s)

/-- The arrival of the oldest message that waits in the channels of a berth (R47): one in its handler park or window store is not yet in
a channel, and is not looked at (DESIGN CHOICE, log entry 89). -/
def oldestMsg (k : Berth) : Option Nat :=
  k.chans.toList.flatten.foldl (fun a m => match a with | none => some m.arr | some x => some (min x m.arr)) none

/-- BERTH_PRIORITY_RAISE (R47). -/
def execBerthPriorityRaise (c : Nat) (b : BitVec 2) (s : State) : Host.Outcome State Fault Refusal :=
  if 1024 ≤ c then .fault (.noSuchUnit c)
  else
    let k := berthAt (coreOf s c) b
    .next (match oldestMsg k with
      | none => s
      | some m =>
        let from0 := max (k.actWall.getD k.bindWall) m
        if k.state ≠ .free ∧ k.prio ≠ 0 ∧ (k.raised + 1) * 1000000 ≤ s.wall - from0 then
          updBerth s c b (fun x => { x with prio := x.prio - 1, raised := x.raised + 1 })
        else s)

/-- The berths that may be pre-empted for a task of priority p: live, of a pre-emptible graph, of lower priority, with a free
save slot (R48, R398). The priority of a berth is its effective one, raised or not (DESIGN CHOICE, log entry 89). A migration that is due
gives way (R60). -/
def victims (s : State) (p : Nat) : List (Nat × BitVec 2) :=
  (s.cores.flatMap (fun e => allBerthNos.map (fun b => (e.1, b)))).filter (fun x =>
    let k := berthAt (coreOf s x.1) x.2
    k.state == .live && !k.ordered && k.pre && decide (p < k.prio.toNat)
      && (match k.stopFor with | none => true | some (.migrate _) => true | _ => false) && (freeSlot s (graphOf s k.gid)).isSome)

/-- The lowest priority first, then the berth bound most recently (R48), then the lower logical index among tasks of a
deterministic graph (R56). -/
def victimFirst (s : State) (a b : Nat × BitVec 2) : Bool :=
  let x := berthAt (coreOf s a.1) a.2
  let y := berthAt (coreOf s b.1) b.2
  decide (y.prio.toNat < x.prio.toNat ∨ (x.prio = y.prio ∧ (y.bindWall < x.bindWall
    ∨ (x.bindWall = y.bindWall ∧ x.det = true ∧ x.gid = y.gid ∧ x.lcore.toNat < y.lcore.toNat))))

/-- PREEMPT (R48): an eligible task that cannot be bound has a berth pre-empted. -/
def execPreempt (gid task : Nat) (s : State) : Host.Outcome State Fault Refusal :=
  .next (match findGraph s gid with
    | none => s
    | some g =>
      match g.tasks[task]? with
      | none => s
      | some t =>
        if taskWaits g task t = false ∨ (placeTask s g t).isSome then s
        else
          match (victims s t.prio.toNat).foldl (fun best x => match best with
              | none => some x
              | some y => if victimFirst s x y then some x else some y) none with
          | none => s
          | some v => updBerth s v.1 v.2 (fun k => { k with stopFor := some .preempt }))

/-- The cores to which a berth may migrate, in the order of R53: clusters of its quadrant at least 4 degrees cooler (R60). -/
def migrateTo (s : State) (c : Nat) (k : Berth) : Option Nat :=
  let g := graphOf s k.gid
  (foldCores (quadNo c) (k.lcore.toNat % g.gridw % 16) (k.lcore.toNat / g.gridw % 16)).find? (fun d =>
    decide (clusterNo d ≠ clusterNo c ∧ tempOf s (clusterNo d) + 40 ≤ tempOf s (clusterNo c)) && (roomAt s d k.regN k.spN).isSome)

/-- A berth is due for migration (R60). -/
def migrates (s : State) (c : Nat) (b : BitVec 2) : Bool :=
  let k := berthAt (coreOf s c) b
  let t := (graphOf s k.gid).tasks.getD k.task {}
  k.state == .live && !k.ordered && decide (k.stopFor = none) && decide ((10 * s.fw.tmig : Nat) < tempOf s (clusterNo c))
    && !t.ownGrant && (match k.moveWall with | some w => decide (500000 ≤ s.wall - w) | none => true)
    && (migrateTo s c k).isSome && (freeSlot s (graphOf s k.gid)).isSome

/-- MIGRATE (R60): at most one berth per quadrant in 100 µs, the least urgent first, then the lowest LCORE. -/
def execMigrate (c : Nat) (b : BitVec 2) (s : State) : Host.Outcome State Fault Refusal :=
  if 1024 ≤ c then .fault (.noSuchUnit c)
  else
    let k := berthAt (coreOf s c) b
    let q := quadNo c
    let late := match amFind s.quadMove q with | some w => decide (100000 ≤ s.wall - w) | none => true
    let others := (s.cores.flatMap (fun e => allBerthNos.map (fun d => (e.1, d)))).filter (fun x => quadNo x.1 == q && migrates s x.1 x.2)
    let first := others.all (fun x =>
      let y := berthAt (coreOf s x.1) x.2
      decide (y.prio.toNat < k.prio.toNat ∨ (y.prio = k.prio ∧ k.lcore.toNat ≤ y.lcore.toNat)))
    .next (if late && first && migrates s c b then
        match migrateTo s c k with
        | some d => { updBerth s c b (fun x => { x with stopFor := some (.migrate d) }) with quadMove := amSet s.quadMove q s.wall }
        | none => s
      else s)

/-- A task that has been saved for a migration is bound at its target, if that still has room (R55, R60). -/
def landMigrant (s : State) (gid task d : Nat) : State :=
  match findGraph s gid with
  | none => s
  | some g =>
    match g.tasks[task]? with
    | none => s
    | some t =>
      match spotOf s d (regKiB t.regreq) (spRows t.spreq) with
      | some x => bindAt s g task t (quadNo d) x true
      | none => s

/-- CONTEXT_SAVE (R397, R400), once the berth's stores are performed. A berth for which no slot can be had is not saved and lives on (R398). -/
def execContextSave (c : Nat) (b : BitVec 2) (s : State) : Host.Outcome State Fault Refusal :=
  if 1024 ≤ c then .fault (.noSuchUnit c)
  else
    let k := berthAt (coreOf s c) b
    .next (if k.state ≠ .stopping ∨ berthRuns s c b ∨ engineBusy s c b ∨ storesLeft s c b ∨ !(coreOf s c).mat.queue.isEmpty then s
      else
        match k.stopFor with
        | some .preempt => (saveBerth s c b).getD (goLive s c b)
        | some (.migrate d) =>
          match saveBerth s c b with
          | some s1 => landMigrant s1 k.gid k.task d
          | none => goLive s c b
        | _ => s)

/-- MESSAGE_FORWARD (R55): a held message whose task is live again enters it, in its sender's order, once there is room where it
belongs: none is lost by a move. -/
def execMessageForward (k : Nat) (s : State) : Host.Outcome State Fault Refusal :=
  .next (match s.heldMsgs[k]? with
    | none => s
    | some m =>
      if (s.heldMsgs.take k).any (fun x => sameFlow x m) then s
      else
        let s1 := { s with heldMsgs := dropAt s.heldMsgs k }
        match liveAt s m.gid (tagDest m.route) with
        | some (c, b) => if roomFor s1 c b m then deliverBerth s1 c b m else s
        | none =>
          if movingAt s m.gid (tagDest m.route) then s
          else if (findGraph s m.gid).isSome then parkDevice s1 m else s1)

/- Completion (R65, R410, R411). -/

/-- The tile tasks of an admitted graph with their indexes. -/
def tilesOf (g : Graph) : List (Nat × Task) := ((List.range g.tasks.length).zip g.tasks).filter (fun p => p.1 != g.otask)

/-- The copies, requests and remote stores of a graph have ended, and its tablets have left PENDING (R65, R375, R411). A remote store ends
by its acknowledgement or by a failure. -/
def graphSpent (s : State) (gid : Nat) : Bool :=
  !s.copies.any (fun k => k.gid == gid) && !s.net.reqs.any (fun r => r.gid == gid)
    && !s.fabric.rops.any (fun r => r.gid == gid && r.kind == .store && !r.acked && !r.done) && !s.fabric.rack.any (fun e => e.2.st == .pending && e.2.gid == gid)

/-- The graph is complete (R65): under FAIL-GRAPH as soon as its berths are FREE and its copies, requests and tablets have ended. -/
def isComplete (s : State) (g : Graph) : Bool :=
  g.active && !g.complete && (berthsOf s g.gid).isEmpty && !s.transit.any (fun m => m.gid == g.gid)
    && (if g.failing then graphSpent s g.gid
        else !(tilesOf g).any (fun p => p.2.st == .eligible || p.2.st == .saved || p.2.st == .bound)
          && g.ords.all (fun o => o.st == .committed || o.st == .discarded))

/-- The messages of a graph that are still parked or held. -/
def leftOver (s : State) (gid : Nat) : List Msg := (s.devPark.map (·.msg) ++ s.heldMsgs).filter (fun m => m.gid == gid)

/-- What is still parked or held for a graph is discarded, each with its record (R410). -/
def dropParked (s : State) (gid : Nat) : State :=
  ((leftOver s gid).foldl (fun t m => unboundRec t m 0xFFFF 1) s |> fun t =>
    { t with devPark := t.devPark.filter (fun p => p.msg.gid != gid), heldMsgs := t.heldMsgs.filter (fun m => m.gid != gid),
             marksT := t.marksT.filter (fun m => m.gid != gid) })

/-- The code a graph completes with (R65, R410). -/
def finalCode (g : Graph) (parked : Bool) : Nat :=
  if g.failCode ≠ 0 then g.failCode
  else if parked then 0x0601
  else if (tilesOf g).all (fun p => p.2.st == .finished) then 0 else 0x0608

/-- GRAPH_COMPLETE (R65). -/
def execGraphComplete (gid : Nat) (s : State) : Host.Outcome State Fault Refusal :=
  .next (match findGraph s gid with
    | none => s
    | some g =>
      if isComplete s g then
        let code := finalCode g (!(leftOver s gid).isEmpty)
        updGraph (dropParked s gid) gid (fun h => { h with complete := true, completeWall := s.wall, failCode := code })
      else s)

/-- AUX of a completion record (R63). -/
def auxOf (g : Graph) : Nat :=
  if g.failCode = 0x0608 then
    (match (tilesOf g).find? (fun p => !p.2.started) with | some p => p.1 | none => 0xFFFFFFFF)
  else g.failTask.getD 0xFFFFFFFF

/-- Everything that R411 waits for has ended: copies, requests, remote stores, tablets, events, records and stores. -/
def graphQuiet (s : State) (gid : Nat) : Bool :=
  graphSpent s gid && !s.asyncs.any (fun a => a.gid == gid) && !s.posted.any (fun p => p.gid == gid)

/-- The entries of a graph leave the map store of a core (R200). -/
def dropMaps (gid : Nat) (k : Core) : Core := { k with maps := k.maps.filter (fun e => e.gid != gid) }

/-- COMPLETION_RECORD (R63, R64, R411). The graph is then no longer admitted, and is remembered (R45). -/
def execCompletionRecord (gid : Nat) (s : State) : Host.Outcome State Fault Refusal :=
  .next (match findGraph s gid with
    | none => s
    | some g =>
      if g.complete && graphQuiet s gid then
        let s1 := { s with graphs := s.graphs.filter (fun x => x.gid != gid), cores := s.cores.map (fun p => (p.1, dropMaps gid p.2)),
                           fabric := { s.fabric with rops := s.fabric.rops.filter (fun r => r.gid != gid) } }
        putReport s1 g.rack g.pasid (g.caddr.toNat + 0x20) { ctx := g.ctx, gid := gid, kind := 2, code := g.failCode, done := true }
          (reportBytes gid g.ltag.toNat 2 0 g.failCode ((tilesOf g).filter (fun p => p.2.st == .finished)).length g.completeWall (auxOf g)
            g.faults)
      else s)

end Sys2Proof.Machine
end

