-- ==== Sys2Proof/Machine/VectorMath.lean ====
section
/-! DEFINITION. What each vector and bit-plane instruction computes from its operands (R236 to R251). -/

namespace Sys2Proof.Machine

/-- A source as the engine sees it: 256 bytes, or a scalar that every element takes (R231). -/
inductive VVal where
  | bytes (l : List Byte)
  | scalar (v : W64)
  deriving DecidableEq, Repr

/-- The inputs of a vector operation: MOD, plane width, generator state, OPA, OPB and the old OPD. -/
structure VIn where
  m : VecMod
  w : Nat
  st : W64
  a : VVal
  b : VVal
  d : VVal
  deriving DecidableEq, Repr

/-- The result of a vector operation: the 256 bytes or the scalar of OPD, the flags of each element of the destination, and
the bytes of such an element, 0 for tree nodes and scalar results (R255). -/
structure VOut where
  bytes : List Byte := []
  scalar : Option W64 := none
  fl : List Nat := []
  e : Nat := 0
  deriving DecidableEq, Repr

/-- The elements of a source in elements of e bytes (R230, R231). -/
def vElems (e : Nat) : VVal → List Nat
  | .bytes l => elemsOf e (sliceZ l 0 256)
  | .scalar v => List.replicate (256 / e) (v.toNat % 2 ^ (8 * e))

/-- A scalar source (class SS). -/
def vScalar : VVal → W64
  | .scalar v => v
  | .bytes l => leW64 (l.take 8)

/-- A vector result of elements of e bytes. -/
def vOut (e : Nat) (l : List FRes) : VOut := { bytes := elemBytes e (l.map (·.bits)), fl := l.map (·.flags), e := e }

/-- A result of raw elements, which raises nothing. -/
def vRaw (e : Nat) (l : List Nat) : VOut := vOut e (l.map (fun b => { bits := b, flags := 0 }))

/-- The lists of A, B and D in elements of TYPE, with their index (R236). -/
def vZip (x : VIn) : List (Nat × Nat × Nat × Nat) :=
  let e := vbytes x.m.ty
  (List.range (256 / e)).zip ((vElems e x.a).zip ((vElems e x.b).zip (vElems e x.d)))

/-- An elementwise operation (R236). -/
def vMap (x : VIn) (f : Nat → Nat → Nat → Nat → FRes) : VOut :=
  vOut (vbytes x.m.ty) ((vZip x).map (fun p => f p.1 p.2.1 p.2.2.1 p.2.2.2))

/-- A float result rounded in the instruction's mode, with the flags of its operands. -/
def vRound (x : VIn) (t : VType) (i : Nat) (r : Exact × Nat) : FRes :=
  let q := roundFloat r.1 (fmtOf t) x.m.rnd x.st i x.m.sat
  { q with flags := q.flags ||| r.2 }

/-- An integer result written by to_int (R206). -/
def vInt (x : VIn) (v : Int) : FRes := { bits := toInt v x.m.ty x.m.sat, flags := 0 }

def rdI (x : VIn) (b : Nat) : Int := readInt x.m.ty b
def rdF (x : VIn) (b : Nat) : FVal := readF (fmtOf x.m.ty) b

/- Group 0xA_ (R236, R237). -/

def vaddOp (x : VIn) : VOut :=
  vMap x (fun i a b _ =>
    if isFloat x.m.ty then vRound x x.m.ty i (addF (rdF x a) (rdF x b) x.m.rnd) else vInt x (rdI x a + rdI x b))

def vsubOp (x : VIn) : VOut :=
  vMap x (fun i a b _ =>
    if isFloat x.m.ty then vRound x x.m.ty i (addF (rdF x a) (negF (rdF x b)) x.m.rnd) else vInt x (rdI x a - rdI x b))

def vmulOp (x : VIn) : VOut :=
  vMap x (fun i a b _ =>
    if isFloat x.m.ty then vRound x x.m.ty i (mulF (rdF x a) (rdF x b)) else vInt x (rdI x a * rdI x b))

def vfmaOp (x : VIn) : VOut :=
  vMap x (fun i a b d =>
    if isFloat x.m.ty then vRound x x.m.ty i (fmaF (rdF x a) (rdF x b) (rdF x d) x.m.rnd)
    else vInt x (rdI x a * rdI x b + rdI x d))

/-- MIN or MAX of two elements (R223, R236). -/
def minmaxE (t : VType) (mx : Bool) (a b : Nat) : FRes :=
  if isFloat t then minmaxF (fmtOf t) mx a b
  else { bits := if (if mx then decide (readInt t a < readInt t b) else decide (readInt t b < readInt t a)) then b else a, flags := 0 }

def vminOp (x : VIn) : VOut := vMap x (fun _ a b _ => minmaxE x.m.ty false a b)
def vmaxOp (x : VIn) : VOut := vMap x (fun _ a b _ => minmaxE x.m.ty true a b)

/-- The sign bit of a float changed; a NaN gives the canonical NaN (R236). -/
def signOp (t : VType) (f : Bool → Bool) (a : Nat) : FRes :=
  let fm := fmtOf t
  let v := readF fm a
  if isNan v then { bits := fm.canon, flags := sigFlag v }
  else { bits := withSign fm (f (bitAt a (fm.width - 1))) (a % 2 ^ (fm.width - 1)), flags := 0 }

def vabsOp (x : VIn) : VOut :=
  vMap x (fun _ a _ _ => if isFloat x.m.ty then signOp x.m.ty (fun _ => false) a else vInt x ((rdI x a).natAbs : Nat))
def vnegOp (x : VIn) : VOut :=
  vMap x (fun _ a _ _ => if isFloat x.m.ty then signOp x.m.ty (fun b => !b) a else vInt x (-(rdI x a)))

def vandOp (x : VIn) : VOut := vMap x (fun _ a b _ => { bits := a &&& b, flags := 0 })
def vorOp (x : VIn) : VOut := vMap x (fun _ a b _ => { bits := a ||| b, flags := 0 })
def vxorOp (x : VIn) : VOut := vMap x (fun _ a b _ => { bits := a ^^^ b, flags := 0 })

/-- The shift count: B mod 8e, unsigned (R236). -/
def vCount (x : VIn) (b : Nat) : Nat := b % vbits x.m.ty

def vshlOp (x : VIn) : VOut := vMap x (fun _ a b _ => vInt x (rdI x a * ((2 ^ vCount x b : Nat) : Int)))
def vshrOp (x : VIn) : VOut := vMap x (fun _ a b _ => vInt x (rdI x a / ((2 ^ vCount x b : Nat) : Int)))

/-- The relation of FUNC (R97, R234). -/
def vRel (x : VIn) : Rel := (relOf x.m.func.toNat).getD .eq

def vcmpOp (x : VIn) : VOut :=
  vMap x (fun _ a b _ =>
    let ok := if isFloat x.m.ty then relF (vRel x) (rdF x a) (rdF x b) else relInt (vRel x) (rdI x a) (rdI x b)
    { bits := if ok then 2 ^ vbits x.m.ty - 1 else 0,
      flags := if isFloat x.m.ty then sigFlag (rdF x a) ||| sigFlag (rdF x b) else 0 })

def vselOp (x : VIn) : VOut := vMap x (fun _ a b d => { bits := if d ≠ 0 then a else b, flags := 0 })

/-- VDOT4 (R237). -/
def vdot4Op (x : VIn) : VOut :=
  let a := vElems 1 x.a
  let b := vElems 1 x.b
  let d := vElems 4 x.d
  vOut 4 ((List.range 64).map (fun i =>
    { bits := toInt ((List.range 4).foldl (fun s j =>
        s + readInt x.m.ty (a.getD (4 * i + j) 0) * readInt x.m.ty2 (b.getD (4 * i + j) 0)) (readInt .s32 (d.getD i 0))) .s32 x.m.sat,
      flags := 0 }))

/- Group 0xB_ (R239 to R243). -/

/-- A function of one float (R239). -/
def vFunc (x : VIn) (f : FVal → Exact × Nat) : VOut := vMap x (fun i a _ _ => vRound x x.m.ty i (f (rdF x a)))

def vrcpOp (x : VIn) : VOut := vFunc x rcpF
def vrsqOp (x : VIn) : VOut := vFunc x rsqF
def vexp2Op (x : VIn) : VOut := vFunc x exp2F
def vlog2Op (x : VIn) : VOut := vFunc x log2F

/-- VSCALE (R240): B is a signed integer of the size of TYPE. An infinite A keeps its value, with SAT too. -/
def vscaleOp (x : VIn) : VOut :=
  vMap x (fun i a b _ =>
    match rdF x a with
    | .inf _ => { bits := a, flags := 0 }
    | v => vRound x x.m.ty i (scaleF v (signedOf (vbits x.m.ty) b)))

/-- A scalar result with the flags of its tree (R232, R241). -/
def vScalarOut (t : VType) (r : FRes) : VOut := { scalar := some (toScalar r.bits t), fl := [r.flags], e := 0 }

/-- A reduction in the tree of R227. -/
def vTree (f : Nat → Nat → FRes) (l : List FRes) : FRes :=
  (treeFold (fun p q => let r := f p.bits q.bits; { r with flags := p.flags ||| q.flags ||| r.flags }) 8 l).headD { bits := 0, flags := 0 }

/-- VREDADD (R227, R241). -/
def vredaddOp (x : VIn) : VOut :=
  let l := vElems (vbytes x.m.ty) x.a
  if isFloat x.m.ty then
    let f := fmtOf x.m.ty2
    let leaf := fun a => if x.m.ty2 = x.m.ty then { bits := a, flags := 0 }
      else { roundFloat (exactOf (rdF x a)) f .rne 0 0 false with flags := sigFlag (rdF x a) }
    vScalarOut x.m.ty2 (vTree (fun p q =>
      let r := addF (readF f p) (readF f q) .rne
      let y := roundFloat r.1 f .rne 0 0 false
      { y with flags := y.flags ||| r.2 }) (l.map leaf))
  else vScalarOut x.m.ty2 { bits := toInt (l.foldl (fun s a => s + rdI x a) 0) x.m.ty2 x.m.sat, flags := 0 }

def vRedMinMax (x : VIn) (mx : Bool) : VOut :=
  vScalarOut x.m.ty (vTree (minmaxE x.m.ty mx) ((vElems (vbytes x.m.ty) x.a).map (fun a => { bits := a, flags := 0 })))
def vredmaxOp (x : VIn) : VOut := vRedMinMax x true
def vredminOp (x : VIn) : VOut := vRedMinMax x false

/-- The place and the bits of the chosen element: NaNs are ignored, and the lowest of equals wins (R224). -/
def argPick (t : VType) (mx : Bool) (l : List (Nat × Nat)) : Option (Nat × Nat) :=
  let key := fun b => if isFloat t then keyZ (readF (fmtOf t) b) else readInt t b
  (l.filter (fun p => !(isFloat t && isNan (readF (fmtOf t) p.2)))).foldl (fun best p =>
    match best with
    | none => some p
    | some q => if (if mx then decide (key q.2 < key p.2) else decide (key p.2 < key q.2)) then some p else some q) none

def vArg (x : VIn) (mx : Bool) : VOut :=
  let l := vElems (vbytes x.m.ty) x.a
  let r := (argPick x.m.ty mx ((List.range l.length).zip l)).getD (0, (fmtOf x.m.ty).canon)
  { scalar := some (BitVec.ofNat 64 (r.1 + r.2 * 2 ^ 32)), e := 0,
    fl := [if isFloat x.m.ty then l.foldl (fun s a => s ||| sigFlag (rdF x a)) 0 else 0] }
def vargmaxOp (x : VIn) : VOut := vArg x true
def vargminOp (x : VIn) : VOut := vArg x false

/-- Element moves by index (R243). -/
def vPick (x : VIn) (f : Nat → Nat → Nat) : VOut :=
  let e := vbytes x.m.ty
  let a := vElems e x.a
  let b := vElems e x.b
  vRaw e ((List.range (256 / e)).map (fun i => a.getD (f i (b.getD i 0) % (256 / e)) 0))

def vpermOp (x : VIn) : VOut := vPick x (fun _ b => b)
def vbcastOp (x : VIn) : VOut := vPick x (fun _ _ => (vScalar x.b).toNat)
def vrotOp (x : VIn) : VOut := vPick x (fun i _ => i + (vScalar x.b).toNat)

def viotaOp (x : VIn) : VOut :=
  let e := vbytes x.m.ty
  vOut e ((List.range (256 / e)).map (fun (i : Nat) => vInt x ((vScalar x.a).toInt + (i : Int) * (vScalar x.b).toInt)))

def vmovsGetOp (x : VIn) : VOut :=
  let e := vbytes x.m.ty
  { scalar := some (toScalar ((vElems e x.a).getD ((vScalar x.b).toNat % (256 / e)) 0) x.m.ty) }

def vmovsPutOp (x : VIn) : VOut :=
  let e := vbytes x.m.ty
  vRaw e ((vElems e x.d).set ((vScalar x.b).toNat % (256 / e)) ((vScalar x.a).toNat % 2 ^ (8 * e)))

def vclampOp (x : VIn) : VOut :=
  vMap x (fun _ a b d =>
    let p := minmaxE x.m.ty true d a
    let q := minmaxE x.m.ty false p.bits b
    { q with flags := p.flags ||| q.flags })

/- Group 0xC_: conversions (R245 to R248). -/

/-- A conversion of the elements of a part (R245). i is the position in the destination. -/
def vParts (x : VIn) (f : Nat → Nat → FRes) : VOut :=
  let es := vbytes x.m.ty
  let ed := vbytes x.m.ty2
  let n := 256 / max es ed
  let p := fieldAt x.m.func.toNat 0 2
  let a := vElems es x.a
  if ed ≤ es then
    let old := vElems ed x.d
    vOut ed ((List.range (256 / ed)).map (fun i =>
      if p * n ≤ i ∧ i < p * n + n then f i (a.getD (i - p * n) 0) else { bits := old.getD i 0, flags := 0 }))
  else vOut ed ((List.range n).map (fun i => f i (a.getD (p * n + i) 0)))

/-- VCVT (R246). -/
def vcvtOp (x : VIn) : VOut :=
  vParts x (fun i a =>
    if isFloat x.m.ty then
      let v := rdF x a
      if isFloat x.m.ty2 then vRound x x.m.ty2 i (exactOf v, sigFlag v)
      else floatToInt (exactOf v) x.m.ty2 x.m.rnd x.st i
    else if isFloat x.m.ty2 then vRound x x.m.ty2 i (exactInt (rdI x a) 0 false, 0)
    else { bits := toInt (rdI x a) x.m.ty2 x.m.sat, flags := 0 })

/-- The scale of VQUANT and VDEQ: an F32 in the low half of OPB (R247). -/
def vSigma (x : VIn) : FVal := readF (fmtOf .f32) ((vScalar x.b).toNat % 2 ^ 32)

/-- VQUANT (R247). -/
def vquantOp (x : VIn) : VOut :=
  vParts x (fun i a =>
    let p := mulF (rdF x a) (vSigma x)
    let r := floatToInt p.1 x.m.ty2 x.m.rnd x.st i
    { r with flags := r.flags ||| p.2 })

/-- VDEQ (R247). -/
def vdeqOp (x : VIn) : VOut :=
  vParts x (fun i a =>
    let v := rdI x a
    vRound x x.m.ty2 i (mulF (.fin (decide (v < 0)) v.natAbs 0) (vSigma x)))

/-- VRAND (R248). -/
def vrandOp (x : VIn) : VOut := vRaw 2 ((List.range 128).map (laneRandom x.st))

/- Bit planes (R208, R250, R251). -/

/-- The elements of a plane stack. -/
def planeElems (x : VIn) : Nat := 256 / vbytes x.m.ty

/-- The w-bit pattern of element j of a stack: plane 0 is its top bit; a scalar stands for its low w bits (R250). -/
def stackBits (x : VIn) (v : VVal) (j : Nat) : Nat :=
  match v with
  | .scalar c => c.toNat % 2 ^ x.w
  | .bytes l =>
    (List.range x.w).foldl (fun a p => 2 * a + bitNat (bitAt (l.getD (p * (planeElems x / 8) + j / 8) 0).toNat (j % 8))) 0

/-- A w-bit pattern read in the signedness of TYPE (R251). -/
def planeInt (x : VIn) (b : Nat) : Int := if isSigned x.m.ty then signedOf x.w b else ((b % 2 ^ x.w : Nat) : Int)

/-- The pattern of an exact integer in w bits: clamped under SAT, otherwise wrapped (R251). -/
def planeFit (x : VIn) (v : Int) : Nat :=
  modBits x.w (if x.m.sat then clampInt v (loOf (isSigned x.m.ty) x.w) (hiOf (isSigned x.m.ty) x.w) else v)

/-- The bytes of a stack of width w with these patterns; the bytes after it are 0 (R250). -/
def stackBytes (w elems : Nat) (l : List Nat) : List Byte :=
  sliceZ ((List.range w).flatMap (fun p => (List.range (elems / 8)).map (fun t =>
    BitVec.ofNat 8 ((List.range 8).foldl (fun a u => a + bitNat (bitAt (l.getD (8 * t + u) 0) (w - 1 - p)) * 2 ^ u) 0)))) 0 256

def planeOut (x : VIn) (w : Nat) (l : List Nat) : VOut := { bytes := stackBytes w (planeElems x) l, e := vbytes x.m.ty }

def vplnOp (x : VIn) : VOut :=
  planeOut x x.w ((vElems (vbytes x.m.ty) x.a).map (fun a => planeFit x (rdI x a)))

def vunplnOp (x : VIn) : VOut :=
  vRaw (vbytes x.m.ty) ((List.range (planeElems x)).map (fun j => modBits (vbits x.m.ty) (planeInt x (stackBits x x.a j))))

/-- A plane operation on the elements of two stacks. -/
def planeMap (x : VIn) (f : Int → Int → Int) : VOut :=
  planeOut x x.w ((List.range (planeElems x)).map (fun j =>
    planeFit x (f (planeInt x (stackBits x x.a j)) (planeInt x (stackBits x x.b j)))))

def paddOp (x : VIn) : VOut := planeMap x (· + ·)
def psubOp (x : VIn) : VOut := planeMap x (· - ·)
def pmulOp (x : VIn) : VOut := planeMap x (· * ·)

def pcmpOp (x : VIn) : VOut :=
  planeOut x 1 ((List.range (planeElems x)).map (fun j =>
    bitNat (relInt (vRel x) (planeInt x (stackBits x x.a j)) (planeInt x (stackBits x x.b j)))))

end Sys2Proof.Machine
end

