-- ==== Sys2Proof/Machine/Vector.lean ====
section
/-! DEFINITION. The vector engine (R230 to R256): issue of the vector and bit-plane instructions, the command queue, the
trap window, and VECTOR_COMPLETE. -/

namespace Sys2Proof.Machine

/- Ranges of the register store that an operation of either engine reads and writes (R267). -/

def srcRange : VSrc → List (Nat × Nat)
  | .reg a => [(a, 256)]
  | _ => []
def dstRange : VDst → List (Nat × Nat)
  | .reg a => [(a, 256)]
  | _ => []

/-- A vector operation reads these bytes and writes those. Its old destination counts as read. -/
def vecReads (v : VCmd) : List (Nat × Nat) := srcRange v.a ++ srcRange v.b ++ dstRange v.d
def vecWrites (v : VCmd) : List (Nat × Nat) := dstRange v.d

/-- Columns of a product, and the accumulator registers it uses (R264, R265). -/
def descN (d : W64) : Nat := fieldAt d.toNat 32 9
def accRegs (n : Nat) : Nat := (n + 31) / 32

/-- The register-store bytes of a matrix operation (R265, R271, R275). -/
def matAcc (o : MOp) : List (Nat × Nat) :=
  match o.kind with
  | .mma | .mmaz | .mmas => [(o.acc, accRegs (descN o.desc) * 8192)]
  | .mzero => [(o.acc, o.count * 8192)]
  | .mdrain => [(o.acc, 8192)]
  | .sclsend => []
def matReads (o : MOp) : List (Nat × Nat) :=
  matAcc o ++ srcRange o.src ++ (match o.kind with
    | .mma | .mmaz | .mmas => if o.started then [] else [(o.tile, 2048)]
    | _ => [])
def matWrites (o : MOp) : List (Nat × Nat) :=
  match o.kind with
  | .mdrain => if bitAt o.desc.toNat 13 then matAcc o else []
  | _ => matAcc o

def meets (l r : List (Nat × Nat)) : Bool := l.any (fun p => r.any (fun q => rangesMeet p.1 p.2 q.1 q.2))

/-- Two operations touch one byte, and one of them writes it. -/
def hazard (r w r' w' : List (Nat × Nat)) : Bool := meets w r' || meets w w' || meets r w'

/-- A vector operation waits for an earlier matrix operation, and the other way round (R267). -/
def vecBlocked (k : Core) (v : VCmd) : Bool :=
  k.mat.queue.any (fun o => decide (o.ord < v.ord) && hazard (matReads o) (matWrites o) (vecReads v) (vecWrites v))
def matBlocked (k : Core) (o : MOp) : Bool :=
  k.vq.any (fun v => decide (v.ord < o.ord) && hazard (vecReads v) (vecWrites v) (matReads o) (matWrites o))

/- Issue (R230 to R234, R254, R256). -/

/-- Where a result goes. -/
def vecDst (s : State) (op : Operand) : VDst :=
  match op with
  | .v n => (match vReg s n with | some a => .reg a | none => .none)
  | .q n => .queue n
  | .s n => .scalar n
  | _ => .none

/-- A source, by its class: VS, or SS when sc is set (R105, R231). -/
def vecSrc (sc : Bool) (op : Operand) (s : State) : VSrc × State :=
  match op with
  | .none => (.none, s)
  | _ => if sc then (let r := readSrc op s; (.scalar r.1, r.2)) else readVS op s

/-- A command, and the state after its operands are consumed. rand: the instruction is VRAND. -/
def vecCmd (i : Instr) (o : Ops) (m : VecMod) (aS bS rand : Bool) (s : State) : VCmd × State :=
  let e := effMod s m
  let em : VecMod := { e with rnd := resolveRnd s e.rnd }
  let a := vecSrc aS o.a s
  let b := vecSrc bS o.b a.2
  ({ instr := i, pc := pcNow s, m := em, width := effWidth s, st := nextSeed (curBerth s), a := a.1, b := b.1, d := vecDst s o.d,
     en := (curCore s).ex.fptrap, ord := (curCore s).opNext, sup := supNow s, mark := !supNow s && atMark (curCore s).ex, draws := rand || em.rnd == .rsr }, b.2)

/-- SEED advances for a command that draws from it (R156, R221). -/
def advanceSeed (v : VCmd) (s : State) : State := if v.draws then updCurBerth s (fun k => { k with seed := v.st }) else s

/-- The instruction may raise flags (R253); never: it is one of those that never do. -/
def mayRaise (m : VecMod) (never : Bool) : Bool := !never && (isFloat m.ty || isFloat m.ty2)

/-- A command enters the queue. -/
def pushCmd (s : State) (v : VCmd) : State := updCurCore s (fun k => { k with vq := k.vq ++ [v], opNext := k.opNext + 1 })

/-- A vector instruction at issue, its checks in the order of R256. plane: it takes a plane width. -/
def vecBody (i : Instr) (o : Ops) (m : VecMod) (aS bS never plane rand : Bool) (s : State) : Body :=
  if vBad s o.d || vBad s o.a || vBad s o.b then .trap s { code := 0x0106 }
  else if plane && decide (vbits (effMod s m).ty < effWidth s) then
    .trap s { code := 0x0102, info := BitVec.ofNat 64 (13 + effWidth s * 2 ^ 8) }
  else
    onReady o false s
      (if 2 ≤ (curCore s).vq.length then .hold s .room 0
       else
         let c := vecCmd i o m aS bS rand s
         if mayRaise c.1.m never && decide (c.1.en ≠ 0) then .hold (pushCmd s { c.1 with win := true }) .window 0
         else .fin (pushCmd (advanceSeed c.1 c.2) c.1) none)

def vaddBody (o : Ops) (m : VecMod) (_ : Phase) (s : State) : Body :=
  vecBody (.vadd o m) o m false false false false false s
def execVadd (o : Ops) (m : VecMod) (s : State) : Host.Outcome State Fault Refusal :=
  issue (.vadd o m) o .execute false (vaddBody o m) s

def vsubBody (o : Ops) (m : VecMod) (_ : Phase) (s : State) : Body :=
  vecBody (.vsub o m) o m false false false false false s
def execVsub (o : Ops) (m : VecMod) (s : State) : Host.Outcome State Fault Refusal :=
  issue (.vsub o m) o .execute false (vsubBody o m) s

def vmulBody (o : Ops) (m : VecMod) (_ : Phase) (s : State) : Body :=
  vecBody (.vmul o m) o m false false false false false s
def execVmul (o : Ops) (m : VecMod) (s : State) : Host.Outcome State Fault Refusal :=
  issue (.vmul o m) o .execute false (vmulBody o m) s

def vfmaBody (o : Ops) (m : VecMod) (_ : Phase) (s : State) : Body :=
  vecBody (.vfma o m) o m false false false false false s
def execVfma (o : Ops) (m : VecMod) (s : State) : Host.Outcome State Fault Refusal :=
  issue (.vfma o m) o .execute false (vfmaBody o m) s

def vminBody (o : Ops) (m : VecMod) (_ : Phase) (s : State) : Body :=
  vecBody (.vmin o m) o m false false false false false s
def execVmin (o : Ops) (m : VecMod) (s : State) : Host.Outcome State Fault Refusal :=
  issue (.vmin o m) o .execute false (vminBody o m) s

def vmaxBody (o : Ops) (m : VecMod) (_ : Phase) (s : State) : Body :=
  vecBody (.vmax o m) o m false false false false false s
def execVmax (o : Ops) (m : VecMod) (s : State) : Host.Outcome State Fault Refusal :=
  issue (.vmax o m) o .execute false (vmaxBody o m) s

def vabsBody (o : Ops) (m : VecMod) (_ : Phase) (s : State) : Body :=
  vecBody (.vabs o m) o m false false false false false s
def execVabs (o : Ops) (m : VecMod) (s : State) : Host.Outcome State Fault Refusal :=
  issue (.vabs o m) o .execute false (vabsBody o m) s

def vnegBody (o : Ops) (m : VecMod) (_ : Phase) (s : State) : Body :=
  vecBody (.vneg o m) o m false false false false false s
def execVneg (o : Ops) (m : VecMod) (s : State) : Host.Outcome State Fault Refusal :=
  issue (.vneg o m) o .execute false (vnegBody o m) s

def vandBody (o : Ops) (m : VecMod) (_ : Phase) (s : State) : Body :=
  vecBody (.vand o m) o m false false false false false s
def execVand (o : Ops) (m : VecMod) (s : State) : Host.Outcome State Fault Refusal :=
  issue (.vand o m) o .execute false (vandBody o m) s

def vorBody (o : Ops) (m : VecMod) (_ : Phase) (s : State) : Body :=
  vecBody (.vor o m) o m false false false false false s
def execVor (o : Ops) (m : VecMod) (s : State) : Host.Outcome State Fault Refusal :=
  issue (.vor o m) o .execute false (vorBody o m) s

def vxorBody (o : Ops) (m : VecMod) (_ : Phase) (s : State) : Body :=
  vecBody (.vxor o m) o m false false false false false s
def execVxor (o : Ops) (m : VecMod) (s : State) : Host.Outcome State Fault Refusal :=
  issue (.vxor o m) o .execute false (vxorBody o m) s

def vshlBody (o : Ops) (m : VecMod) (_ : Phase) (s : State) : Body :=
  vecBody (.vshl o m) o m false false false false false s
def execVshl (o : Ops) (m : VecMod) (s : State) : Host.Outcome State Fault Refusal :=
  issue (.vshl o m) o .execute false (vshlBody o m) s

def vshrBody (o : Ops) (m : VecMod) (_ : Phase) (s : State) : Body :=
  vecBody (.vshr o m) o m false false false false false s
def execVshr (o : Ops) (m : VecMod) (s : State) : Host.Outcome State Fault Refusal :=
  issue (.vshr o m) o .execute false (vshrBody o m) s

def vcmpBody (o : Ops) (m : VecMod) (_ : Phase) (s : State) : Body :=
  vecBody (.vcmp o m) o m false false false false false s
def execVcmp (o : Ops) (m : VecMod) (s : State) : Host.Outcome State Fault Refusal :=
  issue (.vcmp o m) o .execute false (vcmpBody o m) s

def vselBody (o : Ops) (m : VecMod) (_ : Phase) (s : State) : Body :=
  vecBody (.vsel o m) o m false false true false false s
def execVsel (o : Ops) (m : VecMod) (s : State) : Host.Outcome State Fault Refusal :=
  issue (.vsel o m) o .execute false (vselBody o m) s

def vdot4Body (o : Ops) (m : VecMod) (_ : Phase) (s : State) : Body :=
  vecBody (.vdot4 o m) o m false false false false false s
def execVdot4 (o : Ops) (m : VecMod) (s : State) : Host.Outcome State Fault Refusal :=
  issue (.vdot4 o m) o .execute false (vdot4Body o m) s

def vrcpBody (o : Ops) (m : VecMod) (_ : Phase) (s : State) : Body :=
  vecBody (.vrcp o m) o m false false false false false s
def execVrcp (o : Ops) (m : VecMod) (s : State) : Host.Outcome State Fault Refusal :=
  issue (.vrcp o m) o .execute false (vrcpBody o m) s

def vrsqBody (o : Ops) (m : VecMod) (_ : Phase) (s : State) : Body :=
  vecBody (.vrsq o m) o m false false false false false s
def execVrsq (o : Ops) (m : VecMod) (s : State) : Host.Outcome State Fault Refusal :=
  issue (.vrsq o m) o .execute false (vrsqBody o m) s

def vexp2Body (o : Ops) (m : VecMod) (_ : Phase) (s : State) : Body :=
  vecBody (.vexp2 o m) o m false false false false false s
def execVexp2 (o : Ops) (m : VecMod) (s : State) : Host.Outcome State Fault Refusal :=
  issue (.vexp2 o m) o .execute false (vexp2Body o m) s

def vlog2Body (o : Ops) (m : VecMod) (_ : Phase) (s : State) : Body :=
  vecBody (.vlog2 o m) o m false false false false false s
def execVlog2 (o : Ops) (m : VecMod) (s : State) : Host.Outcome State Fault Refusal :=
  issue (.vlog2 o m) o .execute false (vlog2Body o m) s

def vscaleBody (o : Ops) (m : VecMod) (_ : Phase) (s : State) : Body :=
  vecBody (.vscale o m) o m false false false false false s
def execVscale (o : Ops) (m : VecMod) (s : State) : Host.Outcome State Fault Refusal :=
  issue (.vscale o m) o .execute false (vscaleBody o m) s

def vredaddBody (o : Ops) (m : VecMod) (_ : Phase) (s : State) : Body :=
  vecBody (.vredadd o m) o m false false false false false s
def execVredadd (o : Ops) (m : VecMod) (s : State) : Host.Outcome State Fault Refusal :=
  issue (.vredadd o m) o .execute false (vredaddBody o m) s

def vredmaxBody (o : Ops) (m : VecMod) (_ : Phase) (s : State) : Body :=
  vecBody (.vredmax o m) o m false false false false false s
def execVredmax (o : Ops) (m : VecMod) (s : State) : Host.Outcome State Fault Refusal :=
  issue (.vredmax o m) o .execute false (vredmaxBody o m) s

def vredminBody (o : Ops) (m : VecMod) (_ : Phase) (s : State) : Body :=
  vecBody (.vredmin o m) o m false false false false false s
def execVredmin (o : Ops) (m : VecMod) (s : State) : Host.Outcome State Fault Refusal :=
  issue (.vredmin o m) o .execute false (vredminBody o m) s

def vargmaxBody (o : Ops) (m : VecMod) (_ : Phase) (s : State) : Body :=
  vecBody (.vargmax o m) o m false false false false false s
def execVargmax (o : Ops) (m : VecMod) (s : State) : Host.Outcome State Fault Refusal :=
  issue (.vargmax o m) o .execute false (vargmaxBody o m) s

def vargminBody (o : Ops) (m : VecMod) (_ : Phase) (s : State) : Body :=
  vecBody (.vargmin o m) o m false false false false false s
def execVargmin (o : Ops) (m : VecMod) (s : State) : Host.Outcome State Fault Refusal :=
  issue (.vargmin o m) o .execute false (vargminBody o m) s

def vpermBody (o : Ops) (m : VecMod) (_ : Phase) (s : State) : Body :=
  vecBody (.vperm o m) o m false false true false false s
def execVperm (o : Ops) (m : VecMod) (s : State) : Host.Outcome State Fault Refusal :=
  issue (.vperm o m) o .execute false (vpermBody o m) s

def vbcastBody (o : Ops) (m : VecMod) (_ : Phase) (s : State) : Body :=
  vecBody (.vbcast o m) o m false true true false false s
def execVbcast (o : Ops) (m : VecMod) (s : State) : Host.Outcome State Fault Refusal :=
  issue (.vbcast o m) o .execute false (vbcastBody o m) s

def vrotBody (o : Ops) (m : VecMod) (_ : Phase) (s : State) : Body :=
  vecBody (.vrot o m) o m false true true false false s
def execVrot (o : Ops) (m : VecMod) (s : State) : Host.Outcome State Fault Refusal :=
  issue (.vrot o m) o .execute false (vrotBody o m) s

def viotaBody (o : Ops) (m : VecMod) (_ : Phase) (s : State) : Body :=
  vecBody (.viota o m) o m true true false false false s
def execViota (o : Ops) (m : VecMod) (s : State) : Host.Outcome State Fault Refusal :=
  issue (.viota o m) o .execute false (viotaBody o m) s

def vmovsGetBody (o : Ops) (m : VecMod) (_ : Phase) (s : State) : Body :=
  vecBody (.vmovsGet o m) o m false true true false false s
def execVmovsGet (o : Ops) (m : VecMod) (s : State) : Host.Outcome State Fault Refusal :=
  issue (.vmovsGet o m) o .execute false (vmovsGetBody o m) s

def vmovsPutBody (o : Ops) (m : VecMod) (_ : Phase) (s : State) : Body :=
  vecBody (.vmovsPut o m) o m true true true false false s
def execVmovsPut (o : Ops) (m : VecMod) (s : State) : Host.Outcome State Fault Refusal :=
  issue (.vmovsPut o m) o .execute false (vmovsPutBody o m) s

def vclampBody (o : Ops) (m : VecMod) (_ : Phase) (s : State) : Body :=
  vecBody (.vclamp o m) o m false false false false false s
def execVclamp (o : Ops) (m : VecMod) (s : State) : Host.Outcome State Fault Refusal :=
  issue (.vclamp o m) o .execute false (vclampBody o m) s

def vcvtBody (o : Ops) (m : VecMod) (_ : Phase) (s : State) : Body :=
  vecBody (.vcvt o m) o m false false false false false s
def execVcvt (o : Ops) (m : VecMod) (s : State) : Host.Outcome State Fault Refusal :=
  issue (.vcvt o m) o .execute false (vcvtBody o m) s

def vquantBody (o : Ops) (m : VecMod) (_ : Phase) (s : State) : Body :=
  vecBody (.vquant o m) o m false true false false false s
def execVquant (o : Ops) (m : VecMod) (s : State) : Host.Outcome State Fault Refusal :=
  issue (.vquant o m) o .execute false (vquantBody o m) s

def vdeqBody (o : Ops) (m : VecMod) (_ : Phase) (s : State) : Body :=
  vecBody (.vdeq o m) o m false true false false false s
def execVdeq (o : Ops) (m : VecMod) (s : State) : Host.Outcome State Fault Refusal :=
  issue (.vdeq o m) o .execute false (vdeqBody o m) s

def vrandBody (o : Ops) (_ : Phase) (s : State) : Body := vecBody (.vrand o) o {} false false true false true s
def execVrand (o : Ops) (s : State) : Host.Outcome State Fault Refusal :=
  issue (.vrand o) o .execute false (vrandBody o) s

def vplnBody (o : Ops) (m : VecMod) (_ : Phase) (s : State) : Body :=
  vecBody (.vpln o m) o m false false true true false s
def execVpln (o : Ops) (m : VecMod) (s : State) : Host.Outcome State Fault Refusal :=
  issue (.vpln o m) o .execute false (vplnBody o m) s

def vunplnBody (o : Ops) (m : VecMod) (_ : Phase) (s : State) : Body :=
  vecBody (.vunpln o m) o m false false true true false s
def execVunpln (o : Ops) (m : VecMod) (s : State) : Host.Outcome State Fault Refusal :=
  issue (.vunpln o m) o .execute false (vunplnBody o m) s

def paddBody (o : Ops) (m : VecMod) (_ : Phase) (s : State) : Body :=
  vecBody (.padd o m) o m false false true true false s
def execPadd (o : Ops) (m : VecMod) (s : State) : Host.Outcome State Fault Refusal :=
  issue (.padd o m) o .execute false (paddBody o m) s

def psubBody (o : Ops) (m : VecMod) (_ : Phase) (s : State) : Body :=
  vecBody (.psub o m) o m false false true true false s
def execPsub (o : Ops) (m : VecMod) (s : State) : Host.Outcome State Fault Refusal :=
  issue (.psub o m) o .execute false (psubBody o m) s

def pmulBody (o : Ops) (m : VecMod) (_ : Phase) (s : State) : Body :=
  vecBody (.pmul o m) o m false false true true false s
def execPmul (o : Ops) (m : VecMod) (s : State) : Host.Outcome State Fault Refusal :=
  issue (.pmul o m) o .execute false (pmulBody o m) s

def pcmpBody (o : Ops) (m : VecMod) (_ : Phase) (s : State) : Body :=
  vecBody (.pcmp o m) o m false false true true false s
def execPcmp (o : Ops) (m : VecMod) (s : State) : Host.Outcome State Fault Refusal :=
  issue (.pcmp o m) o .execute false (pcmpBody o m) s

/- Completion (R232, R233, R253 to R255). -/

/-- What a command computes. -/
def vecCompute (i : Instr) (x : VIn) : VOut :=
  match i with
  | .vadd _ _ => vaddOp x
  | .vsub _ _ => vsubOp x
  | .vmul _ _ => vmulOp x
  | .vfma _ _ => vfmaOp x
  | .vmin _ _ => vminOp x
  | .vmax _ _ => vmaxOp x
  | .vabs _ _ => vabsOp x
  | .vneg _ _ => vnegOp x
  | .vand _ _ => vandOp x
  | .vor _ _ => vorOp x
  | .vxor _ _ => vxorOp x
  | .vshl _ _ => vshlOp x
  | .vshr _ _ => vshrOp x
  | .vcmp _ _ => vcmpOp x
  | .vsel _ _ => vselOp x
  | .vdot4 _ _ => vdot4Op x
  | .vrcp _ _ => vrcpOp x
  | .vrsq _ _ => vrsqOp x
  | .vexp2 _ _ => vexp2Op x
  | .vlog2 _ _ => vlog2Op x
  | .vscale _ _ => vscaleOp x
  | .vredadd _ _ => vredaddOp x
  | .vredmax _ _ => vredmaxOp x
  | .vredmin _ _ => vredminOp x
  | .vargmax _ _ => vargmaxOp x
  | .vargmin _ _ => vargminOp x
  | .vperm _ _ => vpermOp x
  | .vbcast _ _ => vbcastOp x
  | .vrot _ _ => vrotOp x
  | .viota _ _ => viotaOp x
  | .vmovsGet _ _ => vmovsGetOp x
  | .vmovsPut _ _ => vmovsPutOp x
  | .vclamp _ _ => vclampOp x
  | .vcvt _ _ => vcvtOp x
  | .vquant _ _ => vquantOp x
  | .vdeq _ _ => vdeqOp x
  | .vrand _ => vrandOp x
  | .vpln _ _ => vplnOp x
  | .vunpln _ _ => vunplnOp x
  | .padd _ _ => paddOp x
  | .psub _ _ => psubOp x
  | .pmul _ _ => pmulOp x
  | .pcmp _ _ => pcmpOp x
  | _ => {}

/-- The instructions that raise no flags whatever their types (R253). -/
def neverRaises (i : Instr) : Bool :=
  match i with
  | .padd _ _ | .pcmp _ _ | .pmul _ _ | .psub _ _ | .vbcast _ _ | .vmovsGet _ _ | .vmovsPut _ _ | .vperm _ _ | .vpln _ _ | .vrand _ | .vrot _ _ | .vsel _ _ | .vunpln _ _ => true
  | _ => false

/-- The operand words of a vector instruction, with the classes of its sources. -/
def vecOps (i : Instr) : Ops × Bool × Bool :=
  match i with
  | .vbcast o _ => (o, false, true)
  | .vrot o _ => (o, false, true)
  | .viota o _ => (o, true, true)
  | .vmovsGet o _ => (o, false, true)
  | .vmovsPut o _ => (o, true, true)
  | .vquant o _ => (o, false, true)
  | .vdeq o _ => (o, false, true)
  | _ => match partsOf i with
    | some (_, o, _) => (o, false, false)
    | none => ({}, false, false)

/-- A source as the engine reads it. -/
def vecVal (s : State) (x : VSrc) : VVal :=
  match x with
  | .none => .bytes (List.replicate 256 0)
  | .reg a => .bytes (rdBytes s.mem a 256)
  | .data l => .bytes l
  | .scalar v => .scalar v

/-- The old destination. -/
def vecOld (s : State) (d : VDst) : VVal :=
  match d with
  | .reg a => .bytes (rdBytes s.mem a 256)
  | _ => .bytes (List.replicate 256 0)

def vecResult (s : State) (v : VCmd) : VOut :=
  vecCompute v.instr { m := v.m, w := v.width, st := v.st, a := vecVal s v.a, b := vecVal s v.b, d := vecOld s v.d }

/-- The result reaches OPD (R232). -/
def vecWrite (s : State) (c : Nat) (v : VCmd) (r : VOut) : State :=
  match v.d with
  | .none => s
  | .reg a => { s with mem := wrBytes s.mem a r.bytes }
  | .queue q => updCore s c (fun k => qAdd k q (match r.scalar with | some x => .word x | none => .block r.bytes))
  | .scalar n =>
    let x := r.scalar.getD 0
    if v.sup then updCore s c (fun k => { k with supS := sSet k.supS n x })
    else updCore s c (fun k => dropTag { k with ex := { k.ex with s := sSet k.ex.s n x } } n)

/-- Every flag that a result raises (R253). -/
def vecRaised (v : VCmd) (r : VOut) : Nat := if mayRaise v.m (neverRaises v.instr) then r.fl.foldl (· ||| ·) 0 else 0

/-- The marked instruction of an execute stream that went on in an engine completes (R417). -/
def completeMark (s : State) (c : Nat) (mark : Bool) : State := if mark then updStream s c false (endEngine s.wall 0) else s

/-- The command at the head completes outside a trap window. -/
def vecFinish (s : State) (c : Nat) (v : VCmd) (r : VOut) : State :=
  completeMark (raiseFlags (vecWrite s c v r) c (vecRaised v r)) c v.mark

/-- The command at the head completes in its trap window: the sources are consumed and SEED advances now, unless the pilot stream has
written it meanwhile (R156), or FP_TRAP is taken (R254, R255). -/
def vecWindow (s0 : State) (c : Nat) (v : VCmd) (r : VOut) : State :=
  let s := { s0 with cur := (c, false) }
  let p := vecOps v.instr
  let raised := vecRaised v r
  if v.en.toNat &&& raised = 0 then
    let q := vecCmd v.instr p.1 v.m p.2.1 p.2.2 (match v.instr with | .vrand _ => true | _ => false) s
    runBody v.instr p.1 false s (.fin (vecFinish (advanceSeed v q.2) c v r) none)
  else
    runBody v.instr p.1 false s (.trap (raiseFlags s c (raised - (v.en.toNat &&& raised))) (fpTrapIn v.en.toNat raised r.e r.fl))

/-- The pair of a core is in a gear stop: its engines advance nothing (R126). -/
def geared (s : State) (c : Nat) : Bool := (pairOf s (pairNo c)).stopped

/-- VECTOR_COMPLETE (R233): the oldest command completes. -/
def execVectorComplete (c : Nat) (s : State) : Host.Outcome State Fault Refusal :=
  if 1024 ≤ c then .fault (.noSuchUnit c)
  else
    .next (match (coreOf s c).vq with
      | [] => s
      | v :: rest =>
        if geared s c || vecBlocked (coreOf s c) v then s
        else
          let r := vecResult s v
          let s1 := updCore s c (fun k => { k with vq := rest })
          if v.win then vecWindow s1 c v r else vecFinish s1 c v r)

end Sys2Proof.Machine
end

