-- ==== Sys2Proof/Machine/Activations.lean ====
section
/-! DEFINITION. Activations (R109 to R122), instruction fetch (R66 to R69), messages on their way (R116, R117, R204, R304),
and asynchronous events at their berths (R384, R385). -/

namespace Sys2Proof.Machine

/- Choosing the next activation (R109 to R111). -/

/-- The heads of the channels of a berth that find their handlers, with their channels (R109). -/
def startable (k : Berth) : List (BitVec 3 × Msg) :=
  allChans.filterMap (fun c => match (chanGet k c).head? with
    | some m => if findsHandler k m then some (c, m) else none
    | none => none)

/-- The order of messages: in a deterministic launch window order, START before all; otherwise the oldest (R111, R305). -/
def msgBefore (det : Bool) (a b : Msg) : Bool :=
  if det then (decide (a.sender = 0xFFFF) && decide (b.sender ≠ 0xFFFF)) || (decide (a.sender = 0xFFFF ↔ b.sender = 0xFFFF) && winBefore a b)
  else decide (a.arr < b.arr)

/-- The message a berth would start: a task starts with its START message, the first of c0 (R8, R13, R112); later the first
in that order, then the lowest channel. -/
def nextMsg (k : Berth) : Option (BitVec 3 × Msg) :=
  if k.acts = 0 ∧ (startable k).any (fun x => x.1 == 0) then (startable k).find? (fun x => x.1 == 0)
  else (startable k).foldl (fun best x => match best with
    | none => some x
    | some y => if msgBefore k.det x.2 y.2 then some x else some y) none

/-- A berth is eligible (R109), with the message that would start. -/
def eligibleMsg (s : State) (c : Nat) (b : BitVec 2) : Option (BitVec 3 × Msg) :=
  let k := berthAt (coreOf s c) b
  if k.state = .live ∧ k.stopFor = none ∧ k.ordered = false then nextMsg k else none

/-- A berth that may start, with its keys (R110). -/
structure Cand where
  b : BitVec 2
  chan : BitVec 3
  msg : Msg
  prio : Nat
  used : Bool
  det : Bool
  lcore : Nat

/-- The order of R110. Where one of two berths is deterministic and the other is not, key 3 compares arrival as for two that are not: the
rule gives no comparison (DESIGN CHOICE, log entry 85). -/
def candBefore (x y : Cand) : Bool :=
  if x.prio ≠ y.prio then decide (x.prio < y.prio)
  else if x.used ≠ y.used then !x.used
  else if x.det && y.det then
    decide (x.lcore < y.lcore) || (decide (x.lcore = y.lcore) && (msgBefore true x.msg y.msg || (!msgBefore true y.msg x.msg && decide (x.b.toNat < y.b.toNat))))
  else decide (x.msg.arr < y.msg.arr ∨ (x.msg.arr = y.msg.arr ∧ x.b.toNat < y.b.toNat))

def cands (s : State) (c : Nat) : List Cand :=
  allBerthNos.filterMap (fun b =>
    let k := berthAt (coreOf s c) b
    (eligibleMsg s c b).map (fun x => ({ b := b, chan := x.1, msg := x.2, prio := k.prio.toNat, used := decide (k.quantum ≤ k.used), det := k.det,
                                         lcore := k.lcore.toNat } : Cand)))

/-- USED counts of the berths of the highest eligible priority are reset when all that are eligible have reached QUANTUM
(R110). -/
def resetUsed (s : State) (c : Nat) : State :=
  let l := cands s c
  let top := l.foldl (fun a x => min a x.prio) 4
  if l.isEmpty ∨ (l.any (fun x => decide (x.prio = top) && !x.used)) then s
  else allBerthNos.foldl (fun t b => updBerth t c b (fun k => if k.prio.toNat = top then { k with used := 0 } else k)) s

def chooseNext (s : State) (c : Nat) : Option Cand :=
  (cands s c).foldl (fun best x => match best with
    | none => some x
    | some y => if candBefore x y then some x else some y) none

/- The start of an activation (R112, R82). -/

/-- Both streams begin alike but for the PC (R112). -/
def startStream (old : Stream) (pc : W64) (stopped : Bool) (s0 s1 s2 s3 s4 : W64) : Stream :=
  { pc := pc, stopped := stopped, sampleLeft := old.sampleLeft, sampleArmed := old.sampleArmed, marked := old.marked, markPc := old.markPc,
    markGid := old.markGid, markLc := old.markLc, markDone := old.markDone, markFlags := old.markFlags, markWall := old.markWall,
    s := ((((((Vector.replicate 64 0).set 0 s0).set 1 s1).set 2 s2).set 3 s3).set 4 s4) }

/-- The core at the start of an activation of a message under a handler entry (R112). -/
def startCore (s : State) (c : Nat) (b : BitVec 2) (ch : BitVec 3) (m : Msg) (h : W64) (s0 s3 : W64) : Core :=
  let x := coreOf s c
  let k := berthAt x b
  let code := (graphOf s k.gid).code
  let st (old : Stream) (ent : Nat) (stop : Bool) : Stream :=
    startStream old (code + BitVec.ofNat 64 (4 * ent)) stop s0 (BitVec.ofNat 64 m.len) (m.sender.setWidth 64) s3 (k.lcore.setWidth 64)
  { x with
    act := some { berth := b, chan := ch, msg := m, handler := h, startCyc := cycOf s c, startWall := s.wall },
    ex := st x.ex (fieldAt h.toNat 0 26) false, pi := st x.pi (fieldAt h.toNat 26 26) (!h.getLsbD 62),
    q := Vector.replicate 16 [], dl := Vector.replicate 4 0, dlAt := Vector.replicate 4 0, tabexp := 50000,
    viewV := k.viewV0, viewT := k.viewT0, viewA := k.viewA0, tcause := 0, tpc := 0, taddr := 0, tinfo := 0, tstream := false,
    rpc := 0, sup := false, supWait := none, step := 0, stepping := 0, marks := 0, region := none,
    mat := { queue := x.mat.queue } }

/-- Messages in the channels of a berth (R416). -/
def chanDepth (k : Berth) : Nat := (k.chans.toList.map (·.length)).foldl (· + ·) 0

/-- What the gauges sample at an activation start (R416). -/
def sampleStart (s : State) (c : Nat) (b : BitVec 2) (m : Msg) : State :=
  sampleSource (sampleSource (sampleSource s c b 1 (transitOf m)) c b 2 (s.wall - m.arr)) c b 5 (chanDepth (berthAt (coreOf s c) b))

/-- An activation of a berth starts with a message of a channel (R112); its slot is freed at once. -/
def startAct (s : State) (c : Nat) (b : BitVec 2) (ch : BitVec 3) (m : Msg) : State :=
  let k := berthAt (coreOf s c) b
  let h := handlerOf k m
  let s1 := setCore s c (startCore s c b ch m h (BitVec.ofNat 64 (tagUtag m.route)) (BitVec.ofNat 64 k.acts))
  let s2 := updBerth s1 c b (fun x =>
    { chanSet x ch (chanGet x ch).tail with prio := (graphOf s k.gid).prio, raised := 0, actWall := some s.wall })
  releaseWins 65 (sampleStart s2 c b m) c b

/-- ACTIVATION_START (R109 to R112). -/
def execActivationStart (c : Nat) (s : State) : Host.Outcome State Fault Refusal :=
  if 1024 ≤ c then .fault (.noSuchUnit c)
  else
    .next (if (coreOf s c).act.isSome ∨ geared s c = true then s
      else
        let s1 := resetUsed s c
        match chooseNext s1 c with
        | none => s
        | some x => startAct s1 c x.b x.chan x.msg)

/- The end of an activation (R115, R409). -/

/-- An event of a berth that does not run, or one too many, goes to the fault log at once with its action (R385). WALL of its
record is that of the fault (R402). -/
def logEvent (s : State) (gid task : Nat) (ord : Bool) (e : Event) : State :=
  let at_ := (berthsOf s gid).find? (fun p =>
    let k := berthAt (coreOf s p.1) p.2
    decide (k.task = task ∧ k.ordered = ord))
  let base : RecIn := match at_ with
    | some (c, b) => { berthRec s c b e.code with wall := e.wall }
    | none => { code := e.code, action := actionOf e.code, gid := gid, task := task, wall := e.wall,
                lcore := if ord then 0xFFFF else ((graphOf s gid).tasks.getD task {}).lcore }
  let s1 := if e.code = 0x0305 then s
    else putRec s { base with engine := e.engine, eid := e.eid, addr := e.addr, pc := e.pc, flags := 1 + 4 * e.space, detail := e.detail }
  match actionOf e.code with
  | 2 =>
    match at_ with
    | some (c, b) => updBerth s1 c b (fun k => { k with failMark := some (k.failMark.getD e.code) })
    | none =>
      if ord then s1
      else updGraph s1 gid (fun g => setTask g task (fun t =>
        if t.st = .saved then { t with markCode := if t.markCode = 0 then e.code else t.markCode } else t))
  | 3 => failGraph s1 gid e.code (some task)
  | _ => s1

/-- The events still pending when an activation ends otherwise than through a failure (R385). -/
def flushPending (s : State) (c : Nat) (b : BitVec 2) : State :=
  let k := berthAt (coreOf s c) b
  k.pend.foldl (fun t e => logEvent t k.gid k.task k.ordered e) (updBerth s c b (fun x => { x with pend := [] }))

/-- The counters of a task's successors are reduced (R23). -/
def releaseSucc (g : Graph) (l : List (Nat × Nat)) : Graph :=
  l.foldl (fun h p => setTask h p.1 (fun t => { t with counter := t.counter - p.2 })) g

/-- FINISH ends a tile task (R409), as failed when it was marked (R385). -/
def finishTask (s : State) (c : Nat) (b : BitVec 2) : State :=
  let k := berthAt (coreOf s c) b
  match k.failMark with
  | some code =>
    let s1 := writeAcct s c b 3
    releaseBerth (updGraph s1 k.gid (fun g =>
      { setTask g k.task (fun t => { t with st := .failed }) with
        failCode := if g.failCode = 0 then code else g.failCode, failTask := if g.failCode = 0 then some k.task else g.failTask })) c b
  | none =>
    let s1 := writeAcct s c b 1
    let s2 := updGraph s1 k.gid (fun g =>
      let t := g.tasks.getD k.task {}
      freeTasks s.wall (releaseSucc (setTask g k.task (fun u => { u with st := .finished })) t.succ))
    releaseBerth s2 c b

/-- FINISH ends the run of an ordered task, which then awaits commit (R330), commits at once after an irrevocable run (R332),
or is discarded when it was marked (R65). -/
def finishOrdered (s : State) (c : Nat) (b : BitVec 2) (reg : Option Region) : State :=
  let k := berthAt (coreOf s c) b
  match k.failMark with
  | some code =>
    let s1 := updGraph (writeAcct s c b 3) k.gid (fun g =>
      { setOrd g k.task (fun o => { o with st := .discarded, region := none, code := code }) with
        failCode := if g.failCode = 0 then code else g.failCode, failTask := if g.failCode = 0 then some k.task else g.failTask })
    let s2 := releaseBerth s1 c b
    abortOrdered (abortDepth s2 k.gid) s2 k.gid k.task none
  | none =>
    let sure := match reg with | some r => r.irrevocable | none => false
    releaseBerth (updGraph (writeAcct s c b 1) k.gid (fun g =>
      { setOrd g k.task (fun o => if o.st ≠ .running then o
          else if sure then { o with st := .committed } else { o with st := .awaiting, region := reg, core := c }) with
        commitPt := if sure then none else g.commitPt })) c b

/-- ACTIVATION_END (R114, R115, R409): both streams have stopped. What follows an end, the next activation, a successor's START or a
commit, sees the stores before it, so the end waits until they are performed (R283, R317). -/
def execActivationEnd (c : Nat) (s : State) : Host.Outcome State Fault Refusal :=
  if 1024 ≤ c then .fault (.noSuchUnit c)
  else
    let x := coreOf s c
    .next (match x.act with
      | none => s
      | some a =>
        if !(x.ex.stopped && x.pi.stopped) || x.sup || geared s c || storesLeft s c a.berth then s
        else
          let reg := x.region
          let s1 := flushPending (closeActivation s c) c a.berth
          if a.finish = false then s1
          else if (berthAt (coreOf s c) a.berth).ordered then finishOrdered s1 c a.berth reg
          else finishTask s1 c a.berth)

/- Messages on their way (R116, R117, R204, R304). -/

/-- MESSAGE_ARRIVAL (R204). -/
def execMessageArrival (k : Nat) (s : State) : Host.Outcome State Fault Refusal :=
  .next (match s.transit[k]? with
    | none => s
    | some m => if mayArrive s k then arriveMsg { s with transit := dropAt s.transit k } m else s)

def parkOf (s : State) (a : ParkAt) : List Parked :=
  match a with
  | .device => s.devPark
  | .berth c b => (berthAt (coreOf s c) b).park
def dropParkedAt (s : State) (a : ParkAt) (k : Nat) : State :=
  match a with
  | .device => { s with devPark := dropAt s.devPark k }
  | .berth c b => updBerth s c b (fun x => { x with park := dropAt x.park k })

/-- PARK_DELIVERY (R116): parked message k enters its channel, behind those of its sender parked before it. -/
def execParkDelivery (a : ParkAt) (k : Nat) (s : State) : Host.Outcome State Fault Refusal :=
  match a with
  | .berth c _ => if 1024 ≤ c then .fault (.noSuchUnit c) else .next (go s)
  | .device => .next (go s)
where
  go (s : State) : State :=
    let l := parkOf s a
    match l[k]? with
    | none => s
    | some p =>
      if (l.take k).any (fun x => sameFlow x.msg p.msg) then s
      else
        match a with
        | .device =>
          (match liveAt s p.msg.gid (tagDest p.msg.route) with
           | some (c, b) => deliverBerth (dropParkedAt s a k) c b p.msg
           | none => s)
        | .berth c b =>
          let x := berthAt (coreOf s c) b
          let ch := tagChan p.msg.route
          if findsHandler x p.msg && chanFree s x ch then
            updBerth (dropParkedAt (noteIdle s c 1) a k) c b (fun y => chanSet y ch (chanGet y ch ++ [p.msg]))
          else s

/-- PARK_DISCARD (R117): a message parked for UBTOW is discarded, which fails the graph. -/
def execParkDiscard (a : ParkAt) (k : Nat) (s : State) : Host.Outcome State Fault Refusal :=
  match a with
  | .berth c _ => if 1024 ≤ c then .fault (.noSuchUnit c) else .next (go s)
  | .device => .next (go s)
where
  go (s : State) : State :=
    match (parkOf s a)[k]? with
    | none => s
    | some p =>
      if s.fw.ubtow ≤ s.wall - p.since then
        failGraph (unboundRec (dropParkedAt s a k) p.msg (match a with | .device => 0xFFFF | .berth c _ => c) 1) p.msg.gid 0x0601 none
      else s

/-- The flow of a mark is that of a message (R304). -/
def markFlow (m : Mark) (x : Msg) : Bool :=
  decide (x.gid = m.gid ∧ x.sender = m.sender ∧ tagDest x.route = m.dest ∧ tagChan x.route = m.chan)

/-- The task that a mark counts for: the one bound or saved at its destination. -/
def markTask (s : State) (m : Mark) : Option Nat :=
  (tilesOf (graphOf s m.gid)).findSome? (fun p => if p.2.lcore = m.dest ∧ (p.2.st = .bound ∨ p.2.st = .saved) then some p.1 else none)

/-- WINDOW_MARK_ARRIVAL (R304): after the messages and marks of its flow that precede it. -/
def execWindowMarkArrival (k : Nat) (s : State) : Host.Outcome State Fault Refusal :=
  .next (match s.marksT[k]? with
    | none => s
    | some m =>
      let before (q : BitVec 16) : Bool := decide (q ≠ m.seq ∧ (m.seq - q).toNat < 2 ^ 15)
      if s.transit.any (fun x => markFlow m x && before x.seq) || (s.devPark.any (fun p => markFlow m p.msg && before p.msg.seq))
          || s.heldMsgs.any (fun x => markFlow m x && before x.seq)
          || s.marksT.any (fun x => decide (x.gid = m.gid ∧ x.sender = m.sender ∧ x.dest = m.dest ∧ x.chan = m.chan) && before x.seq) then s
      else
        match markTask s m with
        | none => s
        | some i =>
          let s1 := updGraph { s with marksT := dropAt s.marksT k } m.gid (fun g =>
            let w := winOf g i m.chan
            setWin g { w with marks := amSet w.marks m.sender.toNat (amGet 0 w.marks m.sender.toNat + 1) })
          match liveAt s m.gid m.dest with
          | some (c, b) => releaseWins 65 s1 c b
          | none => s1)

/-- HANDLER_REWRITE (R118): a valid entry is first written with V = 0; then the new entry is written. -/
def execHandlerRewrite (c : Nat) (b : BitVec 2) (idx : BitVec 4) (entry : W64) (s : State) : Host.Outcome State Fault Refusal :=
  if 1024 ≤ c then .fault (.noSuchUnit c)
  else
    let k := berthAt (coreOf s c) b
    let old := k.handlers.getD idx.toNat 0
    let new := entry &&& ~~~(BitVec.ofNat 64 (3 * 2 ^ 52))
    .next (if k.state = .free ∨ old = new then s
      else updBerth s c b (fun x =>
        { x with handlers := updAt x.handlers idx.toNat (fun _ => if old.getLsbD 63 then old &&& ~~~(BitVec.ofNat 64 (2 ^ 63)) else new) }))

/-- The queue a stream waits on (R122). -/
def waitsOnQueue (t : Stream) : Option (BitVec 4) :=
  match t.wait with
  | some w => (match w.why with | .queue q => some q | _ => none)
  | none => none

/-- How many operands of an instruction name a queue. -/
def namesQueue (i : Instr) (q : BitVec 4) : Nat :=
  match partsOf i with
  | some (_, o, _) => ([o.a, o.b, o.d].filter (fun x => decide (x = .q q))).length
  | none => 1

/-- A stream waits on a queue that still has not the entry, or the room, that it waits for (R75, R122). -/
def queueStuck (k : Core) (pilot : Bool) : Bool :=
  match (streamOf k pilot).wait with
  | some w =>
    (match w.why with
     | .queue q => if canRead pilot q then decide ((qGet k q).length < max 1 (namesQueue w.instr q)) else decide (qDepth q ≤ (qGet k q).length)
     | _ => false)
  | none => false

/-- A stream is stuck (R122). -/
def stuck (k : Core) (pilot : Bool) : Bool := (streamOf k pilot).stopped || queueStuck k pilot
def queueByte (t : Stream) : Nat := match waitsOnQueue t with | some q => q.toNat | none => 0xFF

/-- QUEUE_DEADLOCK is taken by a stream (R122). Where the abort of a region is what waits for room, it is abandoned with its
instruction (R130). -/
def deadlockTrap (s : State) (c : Nat) (pilot : Bool) (info : Nat) : State :=
  let x := coreOf s c
  let pc := (streamOf x pilot).pc
  let t : TrapIn := { code := 0x0110, info := BitVec.ofNat 64 info }
  if !pilot && x.region.any (fun r => r.aborting.isSome) then enterSup s c pilot pc pc t false else takeTrap s c pilot pc t

/-- QUEUE_DEADLOCK (R122). -/
def execQueueDeadlock (c : Nat) (s : State) : Host.Outcome State Fault Refusal :=
  if 1024 ≤ c then .fault (.noSuchUnit c)
  else
    let x := coreOf s c
    .next (match x.act with
      | none => s
      | some a =>
        if x.sup || geared s c || !(stuck x false && stuck x true) || (x.ex.stopped && x.pi.stopped) || !x.vq.isEmpty || !x.mat.queue.isEmpty
            || s.copies.any (fun k => decide (k.core = c ∧ k.berth = a.berth)) then s
        else deadlockTrap s c (waitsOnQueue x.ex).isNone (queueByte x.ex + 2 ^ 8 * queueByte x.pi))

/- Asynchronous events at a berth (R384, R385). -/

/-- An event joins those pending at a berth: in the order of arrival, those of one cyc the lowest code first (R384). -/
def insertEvent (l : List Event) (e : Event) : List Event :=
  let first := fun (x : Event) => decide (x.cyc < e.cyc ∨ (x.cyc = e.cyc ∧ x.code ≤ e.code))
  l.takeWhile first ++ e :: l.dropWhile first

/-- An event on its way comes after those of its engine (R404). -/
def eventBehind (l : List AsyncEv) (a : AsyncEv) : Bool := l.any (fun x => decide (x.ev.engine = a.ev.engine ∧ x.ev.eid = a.ev.eid))

/-- ASYNC_EVENT_ARRIVAL (R385, R404). -/
def execAsyncEventArrival (k : Nat) (s : State) : Host.Outcome State Fault Refusal :=
  .next (match s.asyncs[k]? with
    | none => s
    | some a =>
      if eventBehind (s.asyncs.take k) a then s else
      let s1 := { s with asyncs := dropAt s.asyncs k }
      match (berthsOf s1 a.gid).find? (fun p =>
          let x := berthAt (coreOf s1 p.1) p.2
          decide (x.task = a.task ∧ x.ordered = a.ord)) with
      | some (c, b) =>
        let x := berthAt (coreOf s1 c) b
        if berthRuns s1 c b ∧ x.pend.length < 8 then
          noteIdle (updBerth s1 c b (fun y => { y with pend := insertEvent y.pend { a.ev with cyc := cycOf s1 c } })) c 2
        else logEvent s1 a.gid a.task a.ord a.ev
      | none => logEvent s1 a.gid a.task a.ord a.ev)

/-- A stream is stalled on a replayable fault, which no event abandons (R180). -/
def replayStalled (t : Stream) : Bool := match t.wait with | some w => decide (w.why = .replay) | none => false

/-- The first pending event of a berth, the trap it is taken as. -/
def eventTrap (e : Event) : TrapIn := { code := e.code, addr := some e.addr, info := BitVec.ofNat 64 (leAt e.detail 0 8), async := true }

/-- The stream that would take an event at its boundary: the execute stream, or the pilot where that has stopped (R384). -/
def eventStream (s : State) (c : Nat) : Bool := (coreOf s c).ex.stopped

/-- An event pends that a core takes at its next boundary, before its stream issues again (R380, R384). -/
def eventDue (s : State) (c : Nat) : Option Event :=
  let x := coreOf s c
  if x.act.isNone || x.sup || geared s c || (streamOf x (eventStream s c)).stopped || replayStalled (streamOf x (eventStream s c)) then none
  else (actBerth x).pend.head?

/-- The first pending event is taken (R381, R384). One that finds its region changed stays pending while the
region aborts. -/
def takeEvent (s : State) (c : Nat) : State :=
  match eventDue s c with
  | some e => takeTrap { s with cur := (c, eventStream s c) } c (eventStream s c) (streamOf (coreOf s c) (eventStream s c)).pc (eventTrap e)
  | none => s

/- Fetch (R66 to R68). -/

/-- The fetch-stream number (R66). -/
def fetchNo (c : Nat) (pilot : Bool) : Nat := 2 * (c % 8) + bitNat pilot

/-- The oldest outstanding request, the lowest fetch stream on a tie (R68). -/
def oldestReq (l : List FetchReq) : Option FetchReq :=
  l.foldl (fun best x => match best with
    | none => some x
    | some y => if x.made < y.made ∨ (x.made = y.made ∧ x.fs < y.fs) then some x else some y) none

/-- What a fetch of a line comes to: bytes, a trap when it is issued from, or a replayable fault (R67, R68). -/
inductive Fetched where
  | line (bytes : List Byte)
  | trap (code : Nat)
  | stall (vpage : Nat)

def fetchLine (s : State) (n : Nat) (pasid : BitVec 20) (line : Nat) : Fetched :=
  match (clusterOf s n).icache.find? (fun l => decide (l.pasid = pasid ∧ l.addr = line)) with
  | some l => .line l.bytes
  | none =>
    if 2 ^ 48 ≤ 64 * line then .trap 0x0204
    else
      match translate s (n / 8) pasid (64 * line) { ex := true, kind := 2 } with
      | .error (.stall _ _ v) => .stall v
      | .error (.trap t) => .trap t.code
      | .error (.unc _ _) => .trap 0x0207
      | .ok (tier, p) =>
        if tier = 3 then .line ((List.range 64).map (fun i => Config.freeByte s.fresh (p + i)))
        else if (granules [(tierFlat tier p, 64)]).any (isBad s) then .trap 0x0207
        else .line (rdBytes s.mem (tierFlat tier p) 64)

/-- A line, or the trap of its fetch, reaches a stream. -/
def giveLine (s : State) (c : Nat) (pilot : Bool) (l : FetchLine) : State :=
  updStream s c pilot (fun t => { t with buf := t.buf ++ [l] })

/-- FETCH_LINE_SERVED (R68): one line to every stream of the cluster that has asked for it. From a full instruction cache the line that
was filled longest ago leaves, and a hit does not renew a line: no rule says which one goes (DESIGN CHOICE, log entry 60). -/
def execFetchLineServed (n : Nat) (s : State) : Host.Outcome State Fault Refusal :=
  if 128 ≤ n then .fault (.noSuchUnit n)
  else
    let k := clusterOf s n
    .next (match oldestReq k.reqs with
      | none => s
      | some r =>
        if (pairOf s (n / 2)).stopped then s
        else
          let same (q : FetchReq) : Bool := decide (q.pasid = r.pasid ∧ q.line = r.line)
          let who := (k.reqs.filter same).map (fun q => (8 * n + q.fs / 2, decide (q.fs % 2 = 1)))
          let k1 := { k with reqs := k.reqs.filter (fun q => !same q) }
          match fetchLine s n r.pasid r.line with
          | .line bs =>
            let hit := k1.icache.any (fun l => decide (l.pasid = r.pasid ∧ l.addr = r.line))
            let k2 := if hit then k1 else { k1 with icache := ({ pasid := r.pasid, addr := r.line, bytes := bs } :: k1.icache).take 1024 }
            who.foldl (fun t w => giveLine t w.1 w.2 { pasid := r.pasid, line := r.line, bytes := bs })
              (noteTlb (setCluster s n k2) (n / 8) r.pasid (64 * r.line))
          | .trap code => who.foldl (fun t w => giveLine t w.1 w.2 { pasid := r.pasid, line := r.line, fault := some code }) (setCluster s n k1)
          | .stall v =>
            who.foldl (fun t w => stationFault t (n / 8) { who := .fetch w.1 w.2, kind := 2, pasid := r.pasid, vpage := v, cluster := n })
              (setCluster s n k1))

/-- A stream asks for a line it has not asked for yet, and whose request is not parked; a request under YLD counts as made 16 cyc later (R68). -/
def askLine (s : State) (c : Nat) (pilot : Bool) (pasid : BitVec 20) (line : Nat) : State :=
  let n := clusterNo c
  let k := clusterOf s n
  let fs := fetchNo c pilot
  let late := if (streamOf (coreOf s c) pilot).yld then 16 else 0
  let parked := (stationOf s (stationNo c)).parked.any (fun q => decide (q.who = .fetch c pilot ∧ q.pasid = pasid ∧ q.vpage = line / 64))
  if parked || k.reqs.any (fun q => decide (q.fs = fs ∧ q.line = line ∧ q.pasid = pasid)) then s
  else setCluster s n { k with reqs := k.reqs ++ [{ fs := fs, pasid := pasid, line := line, made := k.cyc + late }] }

/-- The line of a stream's buffer. -/
def bufLine (t : Stream) (pasid : BitVec 20) (line : Nat) : Option FetchLine :=
  t.buf.find? (fun l => decide (l.pasid = pasid ∧ l.line = line))

/-- n bytes from the buffered lines: the bytes, the first line that is missing, or the trap of a line and where it shows. -/
inductive Got where
  | bytes (bs : List Byte)
  | missing (line : Nat)
  | trap (code : Nat) (addr : Nat)

def gather (t : Stream) (pasid : BitVec 20) : Nat → Nat → Got
  | _, 0 => .bytes []
  | a, n + 1 =>
    match bufLine t pasid (a / 64) with
    | none => .missing (a / 64)
    | some l =>
      match l.fault with
      | some code => .trap code a
      | none =>
        match gather t pasid (a + 1) n with
        | .bytes bs => .bytes (l.bytes.getD (a % 64) 0 :: bs)
        | g => g

/-- A stream that could issue: its activation runs and it has not stopped; while the supervisor routine runs, only that
does (R381). -/
def mayIssue (s : State) (c : Nat) (pilot : Bool) : Bool :=
  let x := coreOf s c
  decide (c < 1024) && x.act.isSome && (if x.sup then !pilot else !(streamOf x pilot).stopped) && !geared s c

/-- The instruction a stream stands at, or what its fetch comes to (R67, R106): steps 1 to 5. -/
inductive Fetch where
  | instr (i : Instr)
  | ask (line : Nat)
  | trap (t : TrapIn)

/-- [pc, pc + n) lies in the code of the graph (R67). -/
def inCode (g : Graph) (pc n : Nat) : Bool := rangeIn pc n g.code.toNat g.codesize.toNat

/-- What the bytes say, with n more bytes to fetch where the word asks for literal parcels. A stream asks for the missing line of the
word at which it stands, and for none ahead of it: R67 and R68 give no rule for how far ahead it asks (DESIGN CHOICE, log entry 60). -/
def fetchAt (s : State) (c : Nat) (pilot : Bool) : Fetch :=
  let x := coreOf s c
  let t := streamOf x pilot
  let k := actBerth x
  let g := graphOf s k.gid
  let pc := t.pc.toNat
  let perm : TrapIn := { code := 0x0205 }
  if inCode g pc 12 = false then .trap perm
  else
    match gather t k.pasid pc 12 with
    | .missing l => .ask l
    | .trap code a => .trap { code := code, addr := some (BitVec.ofNat 64 a) }
    | .bytes w =>
      match decode w with
      | .ok (i, _) => .instr i
      | .error .short =>
        match decodeHead (leNat w) with
        | .error e => .trap { code := derrCode e, info := BitVec.ofNat 64 (derrField e) }
        | .ok (_, _, n) =>
          if inCode g pc (lenOf n) = false then .trap perm
          else
            match gather t k.pasid pc (lenOf n) with
            | .missing l => .ask l
            | .trap code a => .trap { code := code, addr := some (BitVec.ofNat 64 a) }
            | .bytes bs =>
              match decode bs with
              | .ok (i, _) => .instr i
              | .error e => .trap { code := derrCode e, info := BitVec.ofNat 64 (derrField e) }
      | .error e => .trap { code := derrCode e, info := BitVec.ofNat 64 (derrField e) }

/-- A byte of the supervisor routine: that at its address under PASID 0, or where nothing is mapped there, the custodian's own copy
of the image that it loaded (R383, DESIGN CHOICE, log entry 77). -/
def supCode (s : State) (c a : Nat) : Except Nat Byte :=
  match translate s (stationNo c) 0 (a % 2 ^ 48) { ex := true, kind := 2 } with
  | .ok (tier, p) =>
    if tier = 3 then .ok (Config.freeByte s.fresh p)
    else if isBad s (tierFlat tier p / 16) then .error 0x0207
    else .ok (rdByte s.mem (tierFlat tier p))
  | .error _ => .ok (Config.supByte a)

/-- Bytes of the supervisor routine, or the code of the first that cannot be read. -/
def supCodes (s : State) (c : Nat) : Nat → Nat → Except Nat (List Byte)
  | _, 0 => .ok []
  | a, n + 1 =>
    match supCode s c a, supCodes s c (a + 1) n with
    | .ok b, .ok l => .ok (b :: l)
    | .error e, _ => .error e
    | _, .error e => .error e

/-- The supervisor routine's instruction (R383). -/
def fetchSup (s : State) (c : Nat) : Fetch :=
  let bad := fun (e : DErr) => Fetch.trap { code := derrCode e, info := BitVec.ofNat 64 (derrField e) }
  match supCodes s c (coreOf s c).supPc.toNat 12 with
  | .error e => .trap { code := e }
  | .ok w =>
    match decode w with
    | .ok (i, _) => .instr i
    | .error .short =>
      (match decodeHead (leNat w) with
       | .error e => bad e
       | .ok (_, _, n) =>
         match supCodes s c (coreOf s c).supPc.toNat (lenOf n) with
         | .error e => .trap { code := e }
         | .ok bs =>
           match decode bs with
           | .ok (i, _) => .instr i
           | .error e => bad e)
    | .error e => bad e

/-- A trap of steps 1 to 5 (R107). A pending prefix stays. -/
def fetchTrap (s : State) (c : Nat) (pilot : Bool) (t : TrapIn) : State :=
  let pc := if (coreOf s c).sup then (coreOf s c).supPc else (streamOf (coreOf s c) pilot).pc
  takeTrap s c pilot pc { t with addr := some (t.addr.getD pc) }

end Sys2Proof.Machine
end

