-- ==== Sys2Proof/Machine/Matrix.lean ====
section
/-! DEFINITION. The matrix slice of a core (R257 to R278): products, gangs, block scales, and the steps of the engine. -/

namespace Sys2Proof.Machine

/- Products (R207 to R211, R228, R229, R270). -/

/-- Bit (m, k) of plane p of an A block (R208). -/
def aBit (planes : List Byte) (p m k : Nat) : Bool := bitAt ((planes.drop (p * 512 + 8 * m)).getD (k / 8) 0).toNat (k % 8)

/-- A(m, k) as read from q planes (R207, R228). -/
def aElem (planes : List Byte) (q : Nat) (sgn : Bool) (m k : Nat) : Int :=
  let v := (List.range q).foldl (fun a p => 2 * a + bitNat (aBit planes p m k)) 0
  if sgn then signedOf q v else (v : Int)

/-- Row m of A. -/
def aRow (planes : List Byte) (q : Nat) (sgn : Bool) (m : Nat) : List Int := (List.range 64).map (aElem planes q sgn m)

/-- Values in a lane (R209). -/
def laneV : Bpk → Nat
  | .l8 => 1
  | .l4 => 2
  | .l2 => 4
  | .l1 => 8

/-- B(k, n) of a tile (R209). -/
def bElem (tile : List Byte) (p : Bpk) (sgn : Bool) (k n : Nat) : Int :=
  let v := laneV p
  let w := 8 / v
  let x := fieldAt (tile.getD (32 * k + n / v) 0).toNat (w * (n % v)) w
  if sgn then signedOf w x else (x : Int)

/-- Column n of B. -/
def bCol (tile : List Byte) (p : Bpk) (sgn : Bool) (n : Nat) : List Int := (List.range 64).map (fun k => bElem tile p sgn k n)

/-- The exact sum of the products of two lists. -/
def dot (a b : List Int) : Int := (a.zip b).foldl (fun s p => s + p.1 * p.2) 0

/-- An accumulator element with a flag for ACCSAT. -/
structure AccR where
  bits : Nat
  sat : Bool
  deriving DecidableEq, Repr

/-- An F32 value added to an accumulator element (R211, R229). -/
def accF (acc : AccR) (v : FVal) : AccR :=
  let f := fmtOf .f32
  let a := readF f acc.bits
  let r := (roundFloat (addF a v .rne).1 f .rne 0 0 false).bits
  let fin := match a with | .fin _ _ _ => true | _ => false
  let inf := match readF f r with | .inf _ => true | _ => false
  { bits := r, sat := acc.sat || (fin && inf) }

/-- The sum S added to an accumulator element (R211). -/
def accAdd (accf : Bool) (old : Nat) (x : Int) : AccR :=
  if accf then accF { bits := old, sat := false } (.fin (decide (x < 0)) x.natAbs 0)
  else
    let v := signedOf 32 old + x
    let y := clampInt v (loOf true 32) (hiOf true 32)
    { bits := modBits 32 y, sat := decide (y ≠ v) }

/-- v_g of MMAS (R229). -/
def scaledSum (x : Int) (ea eb : Byte) : FVal :=
  match e8m0 ea, e8m0 eb with
  | some p, some q => readF (fmtOf .f32) (roundFloat (exactInt x (p + q) false) (fmtOf .f32) .rne 0 0 false).bits
  | _, _ => .nan false

/-- The scale bytes of a row and a column (R274): 128 bytes ASCL, 256 BLO, 256 BHI. -/
def aScale (sc : List Byte) (m g : Nat) : Byte := sc.getD (2 * m + g) 0
def bScale (sc : List Byte) (n g : Nat) : Byte := sc.getD (128 + 2 * n + g) 0

/-- Element (m, n) of a product, from the old element (R270). -/
def productElem (o : MOp) (m n : Nat) (row col : List Int) (old : Nat) : AccR :=
  match o.kind with
  | .mmaz => accAdd o.m.accf 0 (dot row col)
  | .mmas =>
    let v := fun g => scaledSum (dot ((row.drop (32 * g)).take 32) ((col.drop (32 * g)).take 32)) (aScale o.scales m g) (bScale o.scales n g)
    accF (accF { bits := old, sat := false } (v 0)) (v 1)
  | _ => accAdd o.m.accf old (dot row col)

/-- The new elements of accumulator register r of a product, from the old ones, row by row (R210, R257). -/
def productReg (o : MOp) (r : Nat) (rows cols : List (List Int)) (old : List Nat) : List AccR :=
  ((List.range 64).zip rows).flatMap (fun p =>
    let here := (old.drop (32 * p.1)).take 32
    ((List.range 32).zip here).map (fun q =>
      let n := 32 * r + q.1
      if n < descN o.desc then productElem o p.1 n p.2 (cols.getD n []) q.2 else { bits := q.2, sat := false }))

/-- Elements of 4 bytes of an accumulator register. -/
def accElems (bs : List Byte) : List Nat := elemsF 2048 4 bs

/-- A product writes its accumulators (R266, R270). -/
def writeProduct (s : State) (c : Nat) (o : MOp) : State :=
  let rows := (List.range 64).map (aRow o.planes (o.m.apl.toNat + 1) o.m.asg)
  let cols := (List.range (descN o.desc)).map (bCol o.tileB o.m.bpk o.m.bsg)
  (List.range (accRegs (descN o.desc))).foldl (fun t r =>
    let a := o.acc + 8192 * r
    let l := productReg o r rows cols (accElems (rdBytes t.mem a 8192))
    let t1 := { t with mem := wrBytes t.mem a (l.flatMap (fun x => leBytes 4 x.bits)) }
    if l.any (·.sat) then updBerth t1 c o.berth (fun b => { b with accsat := true }) else t1) s

/- Gangs (R258 to R263). -/

def gangWidths : List Nat := [1, 2, 4, 8, 16]

/-- The member number of a core in a gang of its width (R258). -/
def memberNo (s : State) (k : Core) : Nat := (actBerth k).lcore.toNat % (graphOf s (actBerth k).gid).gridw % k.mat.width

/-- A core runs the task of a logical core of a graph. -/
def runsAt (s : State) (gid lc : Nat) : Option Nat :=
  (s.cores.find? (fun p => p.2.act.isSome && decide ((actBerth p.2).gid = gid) && decide ((actBerth p.2).lcore.toNat = lc))).map (·.1)

/-- The cores that must arrive for a core's join; none where the gang can never form, or a member does not run (R258, R260). -/
def joinCores (s : State) (c g : Nat) : Option (List Nat) :=
  let b := actBerth (coreOf s c)
  if b.ordered ∨ b.lcore = 0xFFFF then none
  else
    match gangLcores (graphOf s b.gid).gridw b.lcore.toNat g with
    | [] => none
    | l => let r := l.filterMap (runsAt s b.gid)
           if r.length = g then some r else none

/-- Every member has arrived with the width (R260). -/
def allArrived (s : State) (c g : Nat) : Option (List Nat) :=
  match joinCores s c g with
  | some l => if l.all (fun d => decide ((coreOf s d).mat.arrive = some g)) then some l else none
  | none => none

/-- Co-resident: distinct cores of one row of one quadrant (R259). -/
def coResident (l : List Nat) : Bool := l.all (fun d => decide (d / 16 = l.headD 0 / 16)) && decide (l.eraseDups.length = l.length)

/-- GANG (R260): the stream arrives and waits; GANG_FORMED and GANG_JOIN_TIMEOUT end the wait. -/
def gangBody (o : Ops) (_ : Phase) (s : State) : Body :=
  onReady o false s
    (let a := readSrc o.a s
     let b := readSrc o.b a.2
     let g := a.1.toNat
     if gangWidths.contains g = false then .trap s { code := 0x0102, info := 8 }
     else if g = 1 then .fin (writeDst o.d 1 (leaveGang b.2 s.cur.1)) none
     else
       let tow := (curStream s).tow
       let glim := if b.1 ≠ 0 then b.1.toNat else if tow ≠ 0 then tow.toNat else 100000
       .hold (updMat (leaveGang s s.cur.1) s.cur.1 (fun m => { m with arrive := some g, arriveWall := s.wall, glim := glim })) .gang 0)
def execGang (o : Ops) (s : State) : Host.Outcome State Fault Refusal := issue (.gang o) o .execute false (gangBody o) s

/-- A join ends at a core: the width, or 0, is written to OPD and the stream goes on (R260). -/
def endJoin (s0 : State) (c : Nat) (w : Nat) : State :=
  let s := { s0 with cur := (c, false) }
  match waitNow s with
  | some wt =>
    match wt.instr, wt.why with
    | .gang o, .gang =>
      let b := readSrc o.b (readSrc o.a s).2
      let s1 := updMat b.2 c (fun m =>
        { m with arrive := none, width := if w = 0 then 1 else w, formed := decide (w ≠ 0), gangCount := 0 })
      runBody (.gang o) o false s (.fin (writeDst o.d (BitVec.ofNat 64 w) s1) none)
    | _, _ => s0
  | none => s0

/-- The width with which the execute stream of a core waits to join (R260). -/
def joining (k : Core) : Option Nat := k.mat.arrive

/-- The gang forms where all have arrived; where it is not co-resident every member writes 0 (R260). -/
def formGang (c : Nat) (s : State) : State :=
  match joining (coreOf s c) with
  | none => s
  | some g =>
    match allArrived s c g with
    | none => s
    | some l => if l.any (geared s) then s else l.foldl (fun t d => endJoin t d (if coResident l then g else 0)) s

/-- GANG_FORMED (R260). -/
def execGangFormed (c : Nat) (s : State) : Host.Outcome State Fault Refusal :=
  if 1024 ≤ c then .fault (.noSuchUnit c) else .next (formGang c s)

/-- The join of a core has reached its limit (R260). -/
def joinDue (s : State) (c : Nat) : Bool :=
  let m := (coreOf s c).mat
  m.arrive.isSome && !geared s c && decide (m.glim ≤ s.wall - m.arriveWall)

/-- The join ends at its limit, unless all have arrived: the arrival is withdrawn (R260). -/
def endLateJoin (c : Nat) (s : State) : State :=
  match joining (coreOf s c) with
  | none => s
  | some g => if joinDue s c = false ∨ (allArrived s c g).isSome = true then s else endJoin s c 0

/-- GANG_JOIN_TIMEOUT (R260). -/
def execGangJoinTimeout (c : Nat) (s : State) : Host.Outcome State Fault Refusal :=
  if 1024 ≤ c then .fault (.noSuchUnit c) else .next (endLateJoin c s)

/- Issue of the matrix operations (R264, R265, R270 to R272, R277). -/

/-- The home addresses of count accumulator registers from OPD; none where a byte lies beyond the view (R265). -/
def accHome (s : State) (op : Operand) (count : Nat) : Option Nat :=
  match op with
  | .a n => if (List.range count).all (fun i => (aReg s (n.toNat + i)).isSome) then (aReg s n.toNat).map (rsHome s) else none
  | _ => none
def tileHome (s : State) (op : Operand) : Option Nat :=
  match op with
  | .t n => (tReg s n).map (rsHome s)
  | _ => none

/-- The matrix queue holds two operations that have not started (R270). -/
def matFull (s : State) : Bool := decide (2 ≤ ((curCore s).mat.queue.filter (fun o => !o.started)).length)

/-- An operation enters the queue, or is discarded in the failed state (R263). s1: the operands are consumed. -/
def pushMat (s s1 : State) (o : MOp) : Body :=
  if (curCore s).mat.failed.isSome then .fin (updMat s1 s.cur.1 (fun m => { m with discarded := m.discarded + 1 })) none
  else if matFull s || !(ownPosted s s.cur.1 s.cur.2).isEmpty then .hold s .room 0
  else
    let k := curCore s
    let o1 := { o with ord := k.opNext, berth := actBerthNo k, gid := (curBerth s).gid, acts := (curBerth s).acts, spB := (curBerth s).spB,
                       headWall := if k.mat.queue.isEmpty then some s.wall else none,
                       mark := !supNow s && atMark k.ex }
    let s2 := updMat s1 s.cur.1 (fun m =>
      { m with queue := m.queue ++ [o1], gangCount := if 1 < o1.gang then m.gangCount + 1 else m.gangCount })
    .fin (updCurCore s2 (fun x => { x with opNext := x.opNext + 1 })) none

/-- SP of an engine operation: MISALIGNED, then SP_BOUNDS, then the windows (R277, R288). -/
def matSp (s : State) (a : W64) (n : Nat) (write : Bool) : Option TrapIn :=
  if a.toNat % 16 ≠ 0 then some (trapAt 0x0206 a 0)
  else if inAlloc s a.toNat n = false then some (trapAt 0x0201 a 0)
  else if supNow s then none
  else
    (firstHit .sp a.toNat n write (windowsOf s s.cur.1 (actBerthNo (curCore s)))).map
      (fun g => trapAt 0x0303 (BitVec.ofNat 64 g.1) g.2)

/-- The descriptor is legal (R264). -/
def descOk (d : W64) (m : MatMod) (scaled : Bool) : Bool :=
  let x := d.toNat
  decide (fieldAt x 17 15 = 0) && decide (fieldAt x 41 7 = 0) && decide (fieldAt x 50 14 = 0)
    && decide (1 ≤ descN d ∧ descN d ≤ 32 * laneV m.bpk) && (scaled || decide (fieldAt x 48 2 = 0))

/-- The scale limit: GLIM in a gang, otherwise TOW, or 100,000 ns (R276). -/
def scaleLim (s : State) : Nat :=
  let m := (curCore s).mat
  if m.formed then m.glim else if (curStream s).tow ≠ 0 then (curStream s).tow.toNat else 100000

/-- MMA, MMAZ and MMAS at issue (R270, R277). -/
def productBody (kind : MKind) (o : Ops) (m : MatMod) (s : State) : Body :=
  onReady o false s
    (let d := readSrc o.a s
     let ok := decide (1 ≤ descN d.1 ∧ descN d.1 ≤ 32 * laneV m.bpk)
     match tileHome s o.b, accHome s o.d (if ok then accRegs (descN d.1) else 1) with
     | some t, some a =>
       let k := curCore s
       let used := decide (k.mat.width ≤ 1) || decide (memberNo s k = 0)
       let abase := BitVec.ofNat 64 (fieldAt d.1.toNat 0 17)
       if descOk d.1 m (kind == .mmas) = false then .trap s { code := 0x0102, info := 8 }
       else
         match (if used then matSp s abase (512 * (m.apl.toNat + 1)) false else none) with
         | some e => .trap s e
         | none =>
           pushMat s d.2 { kind := kind, desc := d.1, m := m, acc := a, tile := t, aUse := used,
                           gang := if k.mat.formed then k.mat.width else 1, gj := k.mat.gangCount, lim := scaleLim s }
     | _, _ => .trap s { code := 0x0106 })

def mmaBody (o : Ops) (m : MatMod) (_ : Phase) (s : State) : Body := productBody .mma o m s
def execMma (o : Ops) (m : MatMod) (s : State) : Host.Outcome State Fault Refusal := issue (.mma o m) o .execute false (mmaBody o m) s
def mmazBody (o : Ops) (m : MatMod) (_ : Phase) (s : State) : Body := productBody .mmaz o m s
def execMmaz (o : Ops) (m : MatMod) (s : State) : Host.Outcome State Fault Refusal := issue (.mmaz o m) o .execute false (mmazBody o m) s
def mmasBody (o : Ops) (m : MatMod) (_ : Phase) (s : State) : Body := productBody .mmas o m s
def execMmas (o : Ops) (m : MatMod) (s : State) : Host.Outcome State Fault Refusal := issue (.mmas o m) o .execute false (mmasBody o m) s

/-- MZERO (R271). -/
def mzeroBody (o : Ops) (_ : Phase) (s : State) : Body :=
  onReady o false s
    (let r := readSrc o.a s
     let ok := decide (1 ≤ r.1.toNat ∧ r.1.toNat ≤ 8)
     match accHome s o.d (if ok then r.1.toNat else 1) with
     | none => .trap s { code := 0x0106 }
     | some a =>
       if ok = false then .trap s { code := 0x0102, info := 8 }
       else pushMat s r.2 { kind := .mzero, acc := a, count := r.1.toNat })
def execMzero (o : Ops) (s : State) : Host.Outcome State Fault Refusal := issue (.mzero o) o .execute false (mzeroBody o) s

/-- MDRAIN (R271): OPD is read, last, as the SP address. -/
def mdrainBody (o : Ops) (_ : Phase) (s : State) : Body :=
  onReady o true s
    (let c := readSrc o.b s
     let d := readSrc o.d c.2
     let x := c.1.toNat
     let rows := fieldAt x 6 7
     match accHome s o.a 1 with
     | none => .trap s { code := 0x0106 }
     | some a =>
       if fieldAt x 14 50 ≠ 0 ∨ rows = 0 ∨ 64 < fieldAt x 0 6 + rows then .trap s { code := 0x0102, info := 9 }
       else
         match matSp s d.1 (128 * rows) true with
         | some e => .trap s e
         | none => pushMat s d.2 { kind := .mdrain, desc := c.1, acc := a, sp := d.1.toNat, count := rows })
def execMdrain (o : Ops) (s : State) : Host.Outcome State Fault Refusal := issue (.mdrain o) o .execute true (mdrainBody o) s

/-- MWAIT (R272): the join of the matrix operations, and the trap of the failed state. -/
def mwaitBody (_o : Ops) (_ : Phase) (s : State) : Body :=
  if !(curCore s).mat.queue.isEmpty || !sendsDone s s.cur.1 then .hold s .room 0
  else
    match matFailure s with
    | some t => .trap s t
    | none => .fin s none
def execMwait (o : Ops) (s : State) : Host.Outcome State Fault Refusal := issue (.mwait o) o .execute false (mwaitBody o) s

/-- The cores to which a scale delivery goes: all members of the gang as it stands at issue, or one (R275). -/
def scaleTargets (s : State) (x : Nat) : List Nat :=
  let ms := if (curCore s).mat.formed then gangMembers s s.cur.1 else [s.cur.1]
  if bitAt x 8 then ms else (ms[fieldAt x 4 4]?).toList

/-- SCLSEND (R275). -/
def sclsendBody (o : Ops) (_ : Phase) (s : State) : Body :=
  if vBad s o.a then .trap s { code := 0x0106 }
  else
    onReady o false s
      (let a := readVS o.a s
       let b := readSrc o.b a.2
       let x := b.1.toNat
       let all := bitAt x 8
       let mem := fieldAt x 4 4
       if fieldAt x 2 2 ≠ 0 ∨ fieldAt x 9 55 ≠ 0 ∨ fieldAt x 0 2 = 3 ∨ (all = true ∧ mem ≠ 0) ∨ (curCore s).mat.width ≤ mem then
         .trap s { code := 0x0102, info := 9 }
       else pushMat s b.2 { kind := .sclsend, desc := b.1, src := a.1, lim := scaleLim s, peers := scaleTargets s x })
def execSclsend (o : Ops) (s : State) : Host.Outcome State Fault Refusal :=
  issue (.sclsend o) o .execute false (sclsendBody o) s

/- The engine (R262, R263, R266, R270, R275, R276). -/

/-- The slots that an operation still waits for are empty (R276). -/
def slotsMissing (m : Mat) (o : MOp) : Bool :=
  o.kind == .mmas && (m.ascl.isNone || m.blo.isNone || (decide (128 < descN o.desc) && m.bhi.isNone))

/-- The bytes of SP that a product reads; those of an uncorrectable granule are never forwarded: free values (R181). -/
def planeBytes (s : State) (a n : Nat) : List Byte :=
  ((List.range n).zip (rdBytes s.mem a n)).map (fun p =>
    if isBad s ((a + p.1) / 16) then Config.freeByte s.fresh (a + p.1) else p.2)

/-- The planes that a leader streams (R262, R270). -/
def leaderPlanes (s : State) (c : Nat) (o : MOp) : List Byte :=
  planeBytes s (spAddr c (o.spB * 2048 + fieldAt o.desc.toNat 0 17)) (512 * (o.m.apl.toNat + 1))

/-- The head of a core's matrix queue, not started and not held by an earlier vector operation. -/
def readyHead (s : State) (c : Nat) : Option MOp :=
  match (coreOf s c).mat.queue with
  | o :: _ => if o.started || matBlocked (coreOf s c) o then none else some o
  | [] => none

/-- A product starts at a core: tile, planes and scales are read, and the slots are emptied (R266, R276). -/
def startProduct (s : State) (c : Nat) (planes : List Byte) (peers : List Nat) : State :=
  updMat s c (fun m =>
    match m.queue with
    | [] => m
    | o :: rest =>
      let sc := sliceZ (m.ascl.getD []) 0 128 ++ sliceZ (m.blo.getD []) 0 256 ++ sliceZ (m.bhi.getD []) 0 256
      let o1 := { o with started := true, tileB := rdBytes s.mem o.tile 2048, planes := planes,
                         scales := if o.kind = .mmas then sc else [], peers := peers }
      let m1 := { m with queue := o1 :: rest }
      if o.kind = .mmas then
        { m1 with ascl := if bitAt o.desc.toNat 48 then m.ascl else none,
                  blo := if bitAt o.desc.toNat 49 then m.blo else none,
                  bhi := if bitAt o.desc.toNat 49 then m.bhi else none }
      else m1)

def isProduct (o : MOp) : Bool :=
  match o.kind with
  | .mma | .mmaz | .mmas => true
  | _ => false

/-- A product at width 1 starts once its slots are full (R270, R276). -/
def startAlone (c : Nat) (s : State) : State :=
  match readyHead s c with
  | none => s
  | some o =>
    if isProduct o = false ∨ 1 < o.gang ∨ geared s c = true ∨ slotsMissing (coreOf s c).mat o = true then s
    else startProduct s c (leaderPlanes s c o) [c]

/-- MATRIX_PRODUCT_START (R270). -/
def execMatrixProductStart (c : Nat) (s : State) : Host.Outcome State Fault Refusal :=
  if 1024 ≤ c then .fault (.noSuchUnit c) else .next (startAlone c s)

/-- A gang product that stands at the head of every member starts at all of them, or the gang breaks because the planes do not agree
(R262, R263). -/
def startGang (c : Nat) (s : State) : State :=
  let ms := gangMembers s c
  let heads := ms.filterMap (readyHead s)
  if ms.length < 2 ∨ ms.length ≠ (coreOf s c).mat.width ∨ heads.length ≠ ms.length
      ∨ heads.any (fun o => decide (o.gang ≤ 1)) = true ∨ ms.any (geared s) = true then s
  else
    match ms, heads with
    | l :: _, o :: _ =>
      if heads.any (fun p => decide (p.m.apl ≠ o.m.apl ∨ p.m.asg ≠ o.m.asg)) then breakGang s ms 3
      else if ms.any (fun d => match readyHead s d with | some p => slotsMissing (coreOf s d).mat p | none => true) then s
      else ms.foldl (fun t d => startProduct t d (leaderPlanes s l o) ms) s
    | _, _ => s

/-- GANG_PRODUCT_START (R262). -/
def execGangProductStart (c : Nat) (s : State) : Host.Outcome State Fault Refusal :=
  if 1024 ≤ c then .fault (.noSuchUnit c) else .next (startGang c s)

/-- The operation at the head leaves the engine, and the next one reaches the head (R263). -/
def popMat (s : State) (c : Nat) : State :=
  updMat s c (fun m =>
    { m with queue := match m.queue.tail with
        | o :: rest => { o with headWall := match o.headWall with | some w => some w | none => some s.wall } :: rest
        | [] => [] })

/-- A leader's product completes after those of the other members (R267). -/
def leaderWaits (s : State) (c : Nat) (o : MOp) : Bool :=
  o.aUse && o.peers.any (fun d => decide (d ≠ c) && (match (coreOf s d).mat.queue with
    | p :: _ => p.started && decide (p.peers = o.peers) && decide (p.gj = o.gj)
    | [] => false))

/-- Rows of an accumulator register drained to SP (R271). -/
def drain (s : State) (c : Nat) (o : MOp) : State :=
  let row0 := fieldAt o.desc.toNat 0 6
  let a := o.acc + 128 * row0
  let n := 128 * o.count
  let s1 := landBytes s c o.berth (spAddr c (o.spB * 2048 + o.sp)) (rdBytes s.mem a n)
  if bitAt o.desc.toNat 13 then { s1 with mem := wrZeros s1.mem a n } else s1

/-- A scale delivery goes to its targets (R275). -/
def sendScales (s : State) (c : Nat) (o : MOp) : State :=
  let x := o.desc.toNat
  let slot := fieldAt x 0 2
  let bytes := (match vecVal s o.src with | .bytes l => sliceZ l 0 256 | .scalar v => srcBytes s (.scalar v) 1).take (if slot = 0 then 128 else 256)
  o.peers.foldl (fun t d => updMat t d (fun m =>
    { m with deliver := m.deliver ++ [{ slot := slot, bytes := bytes, wall := s.wall, src := c, lim := o.lim, berth := o.berth, gid := o.gid, acts := o.acts }] })) s

/-- MATRIX_COMPLETE (R273): a started product writes its accumulators; MZERO, MDRAIN and SCLSEND act whole. -/
def execMatrixComplete (c : Nat) (s : State) : Host.Outcome State Fault Refusal :=
  if 1024 ≤ c then .fault (.noSuchUnit c)
  else
    .next (match (coreOf s c).mat.queue with
      | [] => s
      | o :: _ =>
        if geared s c || matBlocked (coreOf s c) o then s
        else
          match o.kind with
          | .mma | .mmaz | .mmas =>
            if o.started = false ∨ leaderWaits s c o = true then s else completeMark (popMat (writeProduct s c o) c) c o.mark
          | .mzero => completeMark (popMat { s with mem := wrZeros s.mem o.acc (8192 * o.count) } c) c o.mark
          | .mdrain => completeMark (popMat (drain s c o) c) c o.mark
          | .sclsend => completeMark (popMat (sendScales s c o) c) c o.mark)

/-- The operation at the head of a core's engine has not started and has reached its limit: GLIM of a gang product, the scale limit
(R263, R276). -/
def headDue (s : State) (c : Nat) : Bool :=
  match (coreOf s c).mat.queue with
  | o :: _ => !o.started && (match o.headWall with | some w => decide (o.lim ≤ s.wall - w) | none => false)
  | [] => false

/-- A gang whose product stands at the head at its limit, with its slots full, breaks (R263). -/
def breakLate (c : Nat) (s : State) : State :=
  match (coreOf s c).mat.queue with
  | [] => s
  | o :: _ =>
    if headDue s c = false ∨ o.gang ≤ 1 ∨ geared s c = true ∨ (coreOf s c).mat.formed = false ∨ slotsMissing (coreOf s c).mat o = true then s
    else breakGang s (gangMembers s c) 1

/-- GANG_TIMEOUT (R263): a gang product has not started GLIM ns after it reached the head of this member's engine. -/
def execGangTimeout (c : Nat) (s : State) : Host.Outcome State Fault Refusal :=
  if 1024 ≤ c then .fault (.noSuchUnit c) else .next (breakLate c s)

/-- A slot of a matrix slice (R274). -/
def slotEmpty (m : Mat) (slot : Nat) : Bool :=
  match slot with
  | 0 => m.ascl.isNone
  | 1 => m.blo.isNone
  | _ => m.bhi.isNone
def slotPut (m : Mat) (slot : Nat) (bs : List Byte) : Mat :=
  match slot with
  | 0 => { m with ascl := some bs }
  | 1 => { m with blo := some bs }
  | _ => { m with bhi := some bs }

/-- Delivery k at a core, the oldest for its slot, fills the empty slot (R275). -/
def deliverScale (c k : Nat) (s : State) : State :=
  let m := (coreOf s c).mat
  match m.deliver[k]? with
  | none => s
  | some d =>
    if slotEmpty m d.slot = false ∨ (m.deliver.take k).any (fun x => x.slot == d.slot) = true ∨ geared s c = true then s
    else setCore s c { coreOf s c with mat := slotPut { m with deliver := dropAt m.deliver k } d.slot d.bytes }

/-- SCALE_DELIVERY (R275). -/
def execScaleDelivery (c k : Nat) (s : State) : Host.Outcome State Fault Refusal :=
  if 1024 ≤ c then .fault (.noSuchUnit c) else .next (deliverScale c k s)

/-- A delivery of a core that has waited beyond its limit, and that the activation which runs there now has issued. -/
def lateDelivery (s : State) (c : Nat) (d : ScaleDel) : Bool := decide (d.src = c ∧ d.lim ≤ s.wall - d.wall)
def ownDelivery (s : State) (c : Nat) (d : ScaleDel) : Bool :=
  let k := coreOf s c
  let b := actBerth k
  k.act.isSome && decide (d.berth = actBerthNo k ∧ d.gid = b.gid ∧ d.acts = b.acts)

/-- A core enters the failed state for a scale that is missing; what is discarded loses its mark (R263, R276, R417). -/
def failScale (detail : Nat) (s : State) (c : Nat) : State :=
  updCore (updMat s c (fun x => { failMat 0x0406 detail x with formed := if detail = 1 then false else x.formed })) c (loseMark s.wall)

/-- A slot is still empty at the limit of the product at the head, or a delivery of this core waits beyond its own (R275, R276). A
delivery of an activation that has ended is dropped. -/
def missScale (c : Nat) (s : State) : State :=
  let m := (coreOf s c).mat
  let due := headDue s c && (match m.queue with | o :: _ => slotsMissing m o | [] => false)
  if geared s c then s
  else if due then failScale 1 (breakGang s ((gangMembers s c).filter (· != c)) 2) c
  else if s.cores.any (fun p => p.2.mat.deliver.any (lateDelivery s c)) then
    let s1 := s.cores.foldl (fun t p => updMat t p.1 (fun x => { x with deliver := x.deliver.filter (fun d => !lateDelivery s c d) })) s
    if s.cores.any (fun p => p.2.mat.deliver.any (fun d => lateDelivery s c d && ownDelivery s c d)) then failScale 2 s1 c else s1
  else s

/-- SCALE_MISSING (R275, R276). -/
def execScaleMissing (c : Nat) (s : State) : Host.Outcome State Fault Refusal :=
  if 1024 ≤ c then .fault (.noSuchUnit c) else .next (missScale c s)

/-- The deliveries of a core that are due and find their slots empty fill them in the cyc in which their limit falls due (R129,
R275). -/
def deliverDue (c : Nat) (s : State) : State :=
  if s.cores.any (fun p => p.2.mat.deliver.any (lateDelivery s c)) then
    s.cores.foldl (fun t p => (List.range p.2.mat.deliver.length).reverse.foldl (fun u k =>
      if ((coreOf u p.1).mat.deliver[k]?).any (lateDelivery u c) then deliverScale p.1 k u else u) t) s
  else s

/-- Deliveries that wait at cores whose slots are empty fill them. -/
def fillSlots (cs : List Nat) (s : State) : State :=
  cs.foldl (fun t d => (List.range (coreOf t d).mat.deliver.length).reverse.foldl (fun u k => deliverScale d k u) t) s

/-- The limits of the joins, products and deliveries of a core as a cyc ends: what can still happen in the cyc in which one falls due
happens, and then the limit acts (R129, R260, R263, R275, R276). -/
def matLimits (s : State) (c : Nat) : State :=
  let s1 := if joinDue s c then endLateJoin c (formGang c s) else s
  let s2 := if headDue s1 c then missScale c (breakLate c (startGang c (startAlone c (fillSlots (c :: gangMembers s1 c) s1)))) else s1
  missScale c (deliverDue c s2)

end Sys2Proof.Machine
end

