-- ==== Sys2Proof/Machine/Network.lean ====
section
/-! DEFINITION. The network engine (R365 to R369): NETPOST, NETPOLL, completion counters, windows and the caches of its
tables. -/

namespace Sys2Proof.Machine

/- Work requests (R365). -/

/-- A request holds a reserved value. -/
def reqBad (bs : List Byte) : Bool :=
  let op := leAt bs 0 1
  let lcnt := leAt bs 0x28 8
  !(op == 1 || op == 2) || decide (3 ≤ leAt bs 1 1) || decide (4095 < leAt bs 2 2) || decide (1023 < leAt bs 4 2)
    || decide (leAt bs 6 2 ≠ 0) || decide (2 < leAt bs 0x0C 1) || decide (leAt bs 0x0D 3 ≠ 0)
    || decide (leAt bs 0x20 4 = 0 ∨ 2 ^ 24 < leAt bs 0x20 4) || decide (leAt bs 0x24 4 ≠ 0) || decide (fieldAt lcnt 30 33 ≠ 0)
    || decide (leAt bs 0x30 16 ≠ 0)

/-- A READ writes the local range; a WRITE reads it. -/
def reqReads (bs : List Byte) : Bool := leAt bs 0 1 == 2
def reqSpace (bs : List Byte) : Space := (spaceOf (leAt bs 0x0C 1)).getD .sp
def reqAddr (bs : List Byte) : Nat := leAt bs 0x10 8
def reqLen (bs : List Byte) : Nat := leAt bs 0x20 4

/-- The local range of a request as a range of an engine operation. -/
def reqRng (bs : List Byte) : Rng :=
  { space := reqSpace bs, addr := BitVec.ofNat 64 (reqAddr bs), n := reqLen bs, write := reqReads bs }

/-- The traps of a counter locator: misaligned, then outside SP or a VLT grant (R367, R369). wr: the counter is written. -/
def locTrap (s : State) (l : W64) : Option TrapIn :=
  let a := fieldAt l.toNat 0 63
  let addr := BitVec.ofNat 64 a
  if a % 8 ≠ 0 then some (trapAt 0x0206 addr 0)
  else if l.getLsbD 63 then (if grantOk (curBerth s) a 8 true false then none else some (trapAt 0x0202 addr 0))
  else if inAlloc s a 8 then none
  else some (trapAt 0x0201 addr 0)

/-- The checks of NETPOST on the requests from the i-th on, each request's range joining the windows of the next
(R369). -/
def postChecks (s : State) : Nat → List (List Byte) → List Win → Option TrapIn
  | _, [], _ => none
  | i, bs :: t, ws =>
    let r := reqRng bs
    if reqBad bs then some { code := 0x0102, info := BitVec.ofNat 64 (8 + i * 2 ^ 8) }
    else
      match firstTrap [(rngSp s r, trapAt 0x0201 r.addr 0), (rngVault s r, trapAt 0x0202 r.addr 0), ((rngGlb s r).isSome, trapAt 0x0204 ((rngGlb s r).getD r.addr) 0)] with
      | some x => some x
      | none =>
        match locTrap s (BitVec.ofNat 64 (leAt bs 0x28 8)) with
        | some x => some x
        | none =>
          match rngLock s (rngAcc s 7 false r) with
          | some x => some x
          | none =>
            match (if supNow s then none else firstHit r.space r.addr.toNat r.n r.write ws) with
            | some g => some (trapAt 0x0303 (BitVec.ofNat 64 g.1) g.2)
            | none => postChecks s (i + 1) t (ws ++ [{ space := r.space, write := r.write, kind := 5, lo := r.addr.toNat, n := r.n }])

/-- The n requests from an SP address. -/
def reqBlocks (bs : List Byte) (n : Nat) : List (List Byte) := (List.range n).map (fun i => sliceZ bs (64 * i) 64)

/-- Requests of the berth in its post queue (R369). -/
def postedReqs (s : State) (c : Nat) (b : BitVec 2) : Nat := (s.net.reqs.filter (fun r => decide (r.core = c ∧ r.berth = b))).length

/-- NETPOST (R369). The checks are those of the time at which the requests enter the post queue. -/
def netpostBody (o : Ops) (_ : Phase) (s : State) : Body :=
  onReady o false s
    (if regionOpen s then .trap s (regionMode 2 0xFF)
     else
       let a := readSrc o.a s
       let c := readSrc o.b a.2
       let n := c.1.toNat
       let p := a.1.toNat
       let b := actBerthNo (curCore s)
       if n = 0 ∨ 16 < n then .trap s { code := 0x0102, info := 9 }
       else if p % 64 ≠ 0 then .trap s (trapAt 0x0206 a.1 0)
       else if inAlloc s p (64 * n) = false then .trap s (trapAt 0x0201 a.1 0)
       else
         match spBad s p (64 * n) with
         | some g => spUnc s g
         | none =>
           let rs := reqBlocks (spSeen s p (64 * n)) n
           afterAtoms s p (64 * n) <|
           match postChecks s 0 rs (windowsOf s s.cur.1 b) with
           | some t => .trap s t
           | none =>
             if 64 < postedReqs s s.cur.1 b + n ∨ (ownPosted s s.cur.1 s.cur.2).isEmpty = false then .hold s .room 1
             else
               let first := (curBerth s).posted
               let new := ((List.range n).zip rs).map (fun x =>
                 ({ id := first.toNat + x.1, core := s.cur.1, berth := b, gid := (curBerth s).gid, bytes := x.2, pc := pcNow s } : NetReq))
               let s1 := updCurBerth { c.2 with net := { c.2.net with reqs := c.2.net.reqs ++ new } } (fun k =>
                 { k with posted := first + BitVec.ofNat 64 n })
               .fin (writeDst o.d first s1) none)
def execNetpost (o : Ops) (s : State) : Host.Outcome State Fault Refusal := issue (.netpost o) o .execute false (netpostBody o) s

/-- The home address of a counter of a berth (R367). -/
def locHome (s : State) (c : Nat) (b : BitVec 2) (l : Nat) : Nat :=
  let a := fieldAt l 0 30
  if bitAt l 63 then vaultAddr (a / 2 ^ 23) (a % 2 ^ 23) else spAddr c ((berthAt (coreOf s c) b).spB * 2048 + a)

def cntDone (x : Nat) : Nat := fieldAt x 0 48
def cntFailed (x : Nat) : Nat := fieldAt x 48 16

/-- NETPOLL (R369). -/
def netpollBody (o : Ops) (m : Trio) (ph : Phase) (s : State) : Body :=
  onReady o false s
    (let a := readSrc o.a s
     let b := readSrc o.b a.2
     match locTrap s a.1 with
     | some t => .trap s t
     | none =>
       let h := locHome s s.cur.1 (actBerthNo (curCore s)) a.1.toNat
       if isBad s (h / 16) then uncTrap s (BitVec.ofNat 64 (granFrom (fieldAt a.1.toNat 0 30))) (h / 16)
       else
         let x := leNat (seenBytes s s.cur.1 s.cur.2 (h, 8))
         if ownTouches s s.cur.1 s.cur.2 true [(h, 8)] then .hold s .room 0
         else timedWait ph (decide (fieldAt b.1.toNat 0 48 ≤ cntDone x + cntFailed x)) m 0x0208 0 s id
           (.fin (writeDst o.d (BitVec.ofNat 64 x) (trioPred m true b.2)) none))
def execNetpoll (o : Ops) (m : Trio) (s : State) : Host.Outcome State Fault Refusal :=
  issue (.netpoll o m) o .execute false (netpollBody o m) s

/- Completion counters (R367). -/

def cntStep (x : Nat) (failed : Bool) : Nat :=
  if failed then cntDone x + min (cntFailed x + 1) (2 ^ 16 - 1) * 2 ^ 48
  else (cntDone x + 1) % 2 ^ 48 + cntFailed x * 2 ^ 48

def bumpCounter (s : State) (c : Nat) (b : BitVec 2) (home : Nat) (failed : Bool) : State :=
  landBytes s c b home (leBytes 8 (cntStep (rdNat s.mem home 8) failed))

/- The tables and their caches (R366). -/

/-- The bytes of an entry in memory. -/
def epMem (s : State) (i : Nat) : List Byte := rdBytes s.mem (gddrBase + s.net.epbase.toNat / 4096 * 4096 + 32 * i) 32
def winMem (s : State) (i : Nat) : List Byte := rdBytes s.mem (gddrBase + s.net.winbase.toNat / 4096 * 4096 + 32 * i) 32

/-- An entry as the engine sees it: the cached one, else the one in memory. -/
def epEntry (s : State) (i : Nat) : List Byte := (amFind s.net.eps i).getD (epMem s i)
def winEntry (s : State) (i : Nat) : List Byte := (amFind s.net.wins i).getD (winMem s i)

/-- An entry that is used is cached. -/
def noteEp (s : State) (i : Nat) : State := { s with net := { s.net with eps := amSet s.net.eps i (epEntry s i) } }
def noteWin (s : State) (i : Nat) : State := { s with net := { s.net with wins := amSet s.net.wins i (winEntry s i) } }

/-- The refresh of one entry starts: it is read again. -/
def refreshOne (s : State) : State :=
  let i := s.net.iidx.toNat
  { s with net :=
      if s.net.iwin then { s.net with ibusy := true, wins := if i < 1024 then amDel s.net.wins i else s.net.wins }
      else { s.net with ibusy := true, eps := amDel s.net.eps i } }

/-- The refresh of every entry of both tables starts. -/
def refreshAll (s : State) : State := { s with net := { s.net with ibusy := true, eps := [], wins := [] } }

/-- IGO (R366). -/
def netIgo (s : State) : State := if s.net.iall then refreshAll s else refreshOne s

/-- TABLE_REFRESH_ENTRY (R366). -/
def execTableRefreshEntry (s : State) : Host.Outcome State Fault Refusal := .next (if s.net.iall then s else refreshOne s)
/-- TABLE_REFRESH_ALL (R366). -/
def execTableRefreshAll (s : State) : Host.Outcome State Fault Refusal := .next (if s.net.iall then refreshAll s else s)
/-- TABLE_REFRESH_DONE (R366). -/
def execTableRefreshDone (s : State) : Host.Outcome State Fault Refusal := .next { s with net := { s.net with ibusy := false } }

/-- An endpoint entry is known (R367). -/
def epValid (e : List Byte) : Bool := bitAt (leAt e 0 1) 0

/- Work requests end (R367). -/

/-- Places of the local range of a request; none on a fault of detail 3, an uncorrectable granule that the bytes of a READ do not cover
whole among them (R181, R367). -/
def reqPlaces (s : State) (r : NetReq) : Option (List (Nat × Nat × Nat)) :=
  let k : Copy := { core := r.core, berth := r.berth, gid := r.gid }
  let wr := reqReads r.bytes
  match copyPlace s k (reqSpace r.bytes) (reqAddr r.bytes) (reqLen r.bytes) { rd := !wr, wr := wr, kind := if wr then 4 else 3 } with
  | .error _ => none
  | .ok l =>
    let here := (l.filter (fun p => p.1 ≠ 3)).map (·.2)
    if (if wr then (partBad s here).isSome else (granules here).any (isBad s)) then none else some l

/-- A request fails: FAILED rises, and NETWORK_FAILED goes to its berth (R367). -/
def failReq (s : State) (r : NetReq) (detail : Nat) : State :=
  let s1 := bumpCounter s r.core r.berth (locHome s r.core r.berth (leAt r.bytes 0x28 8)) true
  raiseBerth s1 r.core r.berth { code := 0x0507, addr := BitVec.ofNat 64 (reqAddr r.bytes), pc := r.pc, engine := 10, detail := leBytes 1 detail,
                                 eid := leAt r.bytes 2 2, space := leAt r.bytes 0x0C 1 + 1 }

/-- A request is placed whole: a READ's bytes land here, a WRITE's bytes go out; then DONE rises (R367). Bytes of a READ for a page of
a peer go there first, and the request, which stays at its place k, ends when they have been performed. -/
def doneReq (s : State) (k : Nat) (r : NetReq) (bytes : List Byte) : State :=
  let out := { s with net := { s.net with reqs := dropAt s.net.reqs k } }
  let bump := fun (t : State) => bumpCounter t r.core r.berth (locHome t r.core r.berth (leAt r.bytes 0x28 8)) false
  let far : Chunk := { ops := r.ops }
  if r.ops.isEmpty = false then
    if (chunkLost s far).isSome then failReq out r 3
    else if r.ops.all (fun id => (findRop s id).any (·.perf)) then bump out
    else s
  else
    match reqPlaces s r with
    | none => failReq out r 3
    | some l =>
      if reqReads r.bytes = false then bump { out with net := { out.net with sent := placeBytes s l :: out.net.sent } }
      else
        let parts := l.zip (dealOut (l.map (·.2)) (sliceZ bytes 0 (reqLen r.bytes)))
        let here := fun (t : State) => landPieces t r.core r.berth ((parts.filter (fun p => p.1.1 ≠ 3)).map (·.2))
        if l.any (fun p => decide (p.1 = 3)) then
          if farBad s l then failReq out r 3
          else
            let x := sendChunk (here s) { core := r.core, berth := r.berth, gid := r.gid, pc := r.pc } (reqAddr r.bytes) (parts.map (fun p => (p.1, p.2.2)))
            { x.1 with net := { x.1.net with reqs := updAt x.1.net.reqs k (fun q => { q with ops := x.2 }) } }
        else bump (here out)

/-- WORK_REQUEST_COMPLETE (R367): request k ends. An unknown endpoint always fails with detail 5. -/
def execWorkRequestComplete (k : Nat) (r : NetResult) (s : State) : Host.Outcome State Fault Refusal :=
  .next (match s.net.reqs[k]? with
    | none => s
    | some q =>
      let s1 := noteEp s (leAt q.bytes 2 2)
      let out := { s1 with net := { s1.net with reqs := dropAt s1.net.reqs k } }
      if epValid (epEntry s (leAt q.bytes 2 2)) = false then failReq out q 5
      else
        match r with
        | .done bytes => doneReq s1 k q bytes
        | .failed d => if 1 ≤ d ∧ d ≤ 7 ∧ d ≠ 5 then failReq out q d else s)

/- Windows of this device (R366, R367). -/

/-- A peer may reach [ofs, ofs + n) of a window with this key. -/
def winAdmits (e : List Byte) (key : BitVec 32) (ofs n : Nat) (write : Bool) : Bool :=
  let acc := leAt e 0x19 1
  bitAt acc 0 && bitAt acc (if write then 2 else 1) && decide (leAt e 0x0C 4 = key.toNat) && decide (ofs + n ≤ leAt e 8 4)
    && (leAt e 0x18 1 == 1 || leAt e 0x18 1 == 2)

/-- The places of bytes of a window; none on a fault of its memory. GLB windows are translated under WPASID, at station 0. -/
def winPlaces (s : State) (e : List Byte) (ofs n : Nat) (write : Bool) : Option (List (Nat × Nat)) :=
  let base := leAt e 0 8
  if leAt e 0x18 1 = 1 then
    let a := fieldAt base 0 30
    if a % 2 ^ 23 + leAt e 8 4 ≤ 2 ^ 23 then some [(vaultAddr (a / 2 ^ 23) (a % 2 ^ 23 + ofs), n)] else none
  else
    match translateAll s 0 (BitVec.ofNat 20 (leAt e 0x1C 4)) { rd := !write, wr := write } (pageCuts (n / 4096 + 2) (fieldAt base 0 48 + ofs) n) with
    | .error _ => none
    | .ok l => if l.any (fun p => p.1 == 3) then none else some (l.map (fun p => (tierFlat p.1 p.2.1, p.2.2)))

/-- WINDOW_PLACEMENT (R367): a peer's WRITE is placed whole, and the window's counter, if any, counts it. One that covers only a part of an
uncorrectable granule is not placed (R181): the request fails at the peer with detail 7. -/
def execWindowPlacement (win : Nat) (key : BitVec 32) (ofs : Nat) (bytes : List Byte) (s : State) : Host.Outcome State Fault Refusal :=
  if 1024 ≤ win then .fault (.noSuchUnit win)
  else
    .next
      (let e := winEntry s win
       let s1 := noteWin s win
       if winAdmits e key ofs bytes.length true = false then s1
       else
         match winPlaces s e ofs bytes.length true with
         | none => s1
         | some l =>
           if (partBad s l).isSome then s1
           else
             let s2 := landPieces s1 noCore 0 (dealOut l bytes)
             let cnt := leAt e 0x10 8
             if bitAt cnt 63 then bumpCounter s2 noCore 0 (locHome s2 noCore 0 cnt) false else s2)

/-- PEER_READ (R366): the bytes of a window go back to the peer; nothing is returned where a check fails. -/
def execPeerRead (win : Nat) (key : BitVec 32) (ofs len : Nat) (s : State) : Host.Outcome State Fault Refusal :=
  if 1024 ≤ win then .fault (.noSuchUnit win)
  else
    .next
      (let e := winEntry s win
       let s1 := noteWin s win
       if winAdmits e key ofs len false = false then s1
       else
         match winPlaces s e ofs len false with
         | none => s1
         | some l =>
           if (granules l).any (isBad s) then s1
           else { s1 with net := { s1.net with sent := (l.flatMap (fun p => rdBytes s.mem p.1 p.2)) :: s1.net.sent } })

end Sys2Proof.Machine
end

