-- ==== Sys2Proof/Machine/TimePass.lean ====
section
/-! DEFINITION. Time (R4, R123 to R132), the Substation (R57 to R62), telemetry, gauges and tagged sampling (R416, R417,
R423). -/

namespace Sys2Proof.Machine

/- One cyc (R123 to R126, R131). -/

/-- RATIO (R125). -/
def ratioWord (count : Nat) (gstop : Bool) (win : Nat) : W64 :=
  BitVec.ofNat 64 (min count 4095 + bitNat gstop * 2 ^ 31 + win % 2 ^ 32 * 2 ^ 32)

/-- The window that a cluster counts completes, and the one in which WALL stands begins; WIN is WALL[41:10] at the start of the
completed one (R125). -/
def closeWindow (wall : Nat) (stopped : Bool) (k : Cluster) : Cluster :=
  { k with ratio := ratioWord k.winCyc k.winGear k.win, winCyc := 0, winGear := stopped, win := wall / 1024 }

/-- The window that a cluster counts has ended at a WALL (R125). -/
def windowOver (wall : Nat) (k : Cluster) : Bool := decide (k.win ≠ wall / 1024)

/-- The gauges that follow RATIO of a cluster sample a completed window (R416). -/
def sampleRatio (s : State) (n : Nat) : State :=
  let v := fieldAt (clusterOf s n).ratio.toNat 0 12
  (List.range 8).foldl (fun t i =>
    [0, 1, 2, 3].foldl (fun u j =>
      let g := gaugeGet (coreOf u (8 * n + i)) j
      if g.berth.isSome ∧ gSource g = 7 then sampleCoreGauge u (8 * n + i) j v else u) t) (sampleDevSource s 7 n v)

/-- A slot has its base at its target (R131). -/
def dlReached (cyc wall : Nat) (v : W64) : Bool := decide (dlTarget v ≤ (if dlBase v then wall else cyc))

/-- A deadline slot fires at a cyc edge (R131). -/
def fireSlot (cyc wall : Nat) (k : Core) (i : BitVec 2) : Core :=
  let v := dlGet k i
  if dlArmed v && !dlFired v && dlReached cyc wall v then dlAtSet (dlSet k i (dlWord (dlTarget v) (dlSeen v) (dlBase v) true true)) i cyc
  else k

def fireSlots (cyc wall : Nat) (k : Core) : Core := [0, 1, 2, 3].foldl (fireSlot cyc wall) k

/-- The cluster clock in units of 1/15 MHz: within the band it follows the rail; outside no frequency is promised (R4), and
the value is free. -/
def clock15 (s : State) : Nat := if inBand s.power.railMV then bandClock s.power.railMV else Config.freeNat s.fresh

/-- A new cyc begins at a core: entries and slots written in the last one are no longer new, and its streams may issue (R119,
R131, R83). -/
def newCyc (k : Core) : Core := { k with issued := 0, qnew := Vector.replicate 16 0, dlNew := 0 }

/-- GEAR_STOP: a stop has passed 2 µs (R126). -/
def raiseGear (s : State) (p : Nat) : State :=
  let k := pairOf s p
  if k.stopped ∧ k.stopLong = false ∧ 2000 < s.wall - k.stopWall then setPair (deviceRec s 0x0704 12 p []) p { k with stopLong := true }
  else s
def raiseGears (s : State) : State := s.pairs.foldl (fun t e => raiseGear t e.1) s

/-- A COLL berth is live (R62). -/
def liveColl (s : State) (c : Nat) (b : BitVec 2) : Bool :=
  let k := berthAt (coreOf s c) b
  decide (k.state = .live) && k.coll
def collLive (s : State) : Bool := s.cores.any (fun e => allBerthNos.any (liveColl s e.1))

/-- A stream is blocked in one of the instructions of R62. -/
def blockedAt (t : Stream) : Bool :=
  match t.wait with
  | some w =>
    (match w.instr with
     | .hbar _ _ | .hbarw _ _ | .abwait _ _ | .netpoll _ _ | .tabwait _ _ => true
     | _ => false)
  | none => false
def collBlocked (s : State) (c : Nat) (b : BitVec 2) : Bool :=
  liveColl s c b && berthRuns s c b && (blockedAt (coreOf s c).ex || blockedAt (coreOf s c).pi)

/-- A COLL berth of the device, live or not (R62). -/
def boundColl (s : State) (c : Nat) (b : BitVec 2) : Bool :=
  let k := berthAt (coreOf s c) b
  decide (k.state ≠ .free) && k.coll

/-- How many COLL berths of the device meet a test. -/
def countColl (s : State) (f : State → Nat → BitVec 2 → Bool) : Nat :=
  (s.cores.flatMap (fun e => allBerthNos.filter (f s e.1))).length

/-- The collective slack of this moment, in units of 10^-12: the fraction of the COLL berths of the device that are live and blocked
(R62). -/
def slackNow (s : State) : Nat := 10 ^ 12 * countColl s collBlocked / max 1 (countColl s boundColl)

/-- dt ns of a first-order low-pass of 2 ms (R62; how it is stepped is the model's choice: DESIGN CHOICE, log entry 78). -/
def lowPass (y x dt : Nat) : Nat :=
  let d := min dt 2000000
  if y ≤ x then y + (x - y) * d / 2000000 else y - (y - x) * d / 2000000

/-- The slack filter goes on by dt ns; while no COLL berth is live, the slack request equals the firmware maximum (R62). -/
def noteSlack (dt : Nat) (s : State) : State :=
  let s1 := updPower s (fun p => { p with slackF := lowPass p.slackF (slackNow s) dt })
  if !collLive s && s.power.slack != s.power.fwmax then followSetpoint (updPower s1 (fun p => { p with slack := p.fwmax })) else s1

/-- The ns until the next cyc edge. Outside the band there is none in common: WALL goes on by a free value below one window (R4,
DESIGN CHOICE, log entry 15). -/
def edgeAfter (s : State) : Nat :=
  if inBand s.power.railMV then (s.power.wallFrac + 15000) / bandClock s.power.railMV else Config.freeNat s.fresh % 1024

/-- A cluster's clock has an edge now. Outside the band each has its own, whether or not the others have theirs: a free choice
(R4, DESIGN CHOICE, log entry 15). -/
def hasEdge (s : State) (n : Nat) : Bool :=
  !(pairOf s (n / 2)).stopped && (inBand s.power.railMV || Config.freeNat (s.fresh + 1 + n) % 2 == 1)

/-- A cluster at an edge of WALL: a window that ends completes, and CYC counts where its clock has an edge (R123, R125). -/
def advanceCluster (s : State) (wall n : Nat) : Cluster :=
  let k0 := clusterOf s n
  let k := if windowOver wall k0 then closeWindow wall (pairOf s (n / 2)).stopped k0 else k0
  if hasEdge s n then { k with cyc := k.cyc + 1, winCyc := k.winCyc + 1, edgeWall := wall } else k

/-- One cyc of the running clocks passes: WALL goes on, CYC of every cluster that is not gear-stopped counts, windows that
end complete, deadline slots fire, and what was due by now is raised. -/
def tick (s : State) : State :=
  let dt := edgeAfter s
  let wall := s.wall + dt
  let s1 := { s with
    wall := wall, fresh := if inBand s.power.railMV then s.fresh else s.fresh + 129,
    power := { s.power with wallFrac := if inBand s.power.railMV then (s.power.wallFrac + 15000) % bandClock s.power.railMV else s.power.wallFrac },
    clusters := (List.range 128).map (fun n => (n, advanceCluster s wall n)) }
  let s2 := { s1 with cores := s1.cores.map (fun p =>
    (p.1, if hasEdge s (clusterNo p.1) then newCyc (fireSlots (cycOf s1 p.1) wall p.2) else p.2)) }
  let s3 := noteSlack dt (raiseGears (raiseSupply s2))
  settleReports (retestAll (((List.range 128).filter (fun n => windowOver wall (clusterOf s n))).foldl sampleRatio s3))

/-- DEADLINE_FIRE (R131, R126): the slot fires at the cyc edge, unless it has been written since. -/
def execDeadlineFire (c : Nat) (slot : BitVec 2) (s : State) : Host.Outcome State Fault Refusal :=
  if 1024 ≤ c then .fault (.noSuchUnit c)
  else .next (if geared s c || (coreOf s c).dlNew.getLsbD slot.toNat then s
    else updCore s c (fun k => fireSlot (cycOf s c) (clusterOf s (clusterNo c)).edgeWall k slot))

/-- RATIO_WINDOW_COMPLETE (R125). -/
def execRatioWindowComplete (n : Nat) (s : State) : Host.Outcome State Fault Refusal :=
  if 128 ≤ n then .fault (.noSuchUnit n)
  else .next (if windowOver s.wall (clusterOf s n) then
      sampleRatio (setCluster s n (closeWindow s.wall (pairOf s (n / 2)).stopped (clusterOf s n))) n
    else s)

/- Gear stops (R126). -/

/-- The pair may begin a gear stop: none is in progress, and the last began 1 ms ago or more. -/
def mayStop (s : State) (p : Nat) : Bool :=
  let k := pairOf s p
  !k.stopped && (match k.lastStop with | some w => decide (1000000 ≤ s.wall - w) | none => true)

/-- GEAR_STOP_START (R126, R141). -/
def execGearStopStart (p : Nat) (s : State) : Host.Outcome State Fault Refusal :=
  if 64 ≤ p then .fault (.noSuchUnit p)
  else .next (if mayStop s p then
      let s1 := setPair s p { pairOf s p with stopped := true, stopWall := s.wall, lastStop := some s.wall, stopLong := false }
      let s2 := [2 * p, 2 * p + 1].foldl (fun t n => setCluster t n { clusterOf t n with winGear := true }) s1
      { s2 with cores := s2.cores.map (fun e =>
          if pairNo e.1 = p ∧ e.2.act.isSome then (e.1, { e.2 with ex := { e.2.ex with gear := true }, pi := { e.2.pi with gear := true } })
          else e) }
    else s)

/-- GEAR_STOP_END (R126). A stop that has passed 2 µs raises GEAR_STOP before it ends. -/
def execGearStopEnd (p : Nat) (s : State) : Host.Outcome State Fault Refusal :=
  if 64 ≤ p then .fault (.noSuchUnit p)
  else .next (if (pairOf s p).stopped then setPair (raiseGear s p) p { pairOf (raiseGear s p) p with stopped := false } else s)

/-- GEAR_STOP (R126): a stop passes 2 µs. -/
def execGearStop (p : Nat) (s : State) : Host.Outcome State Fault Refusal :=
  if 64 ≤ p then .fault (.noSuchUnit p) else .next (raiseGear s p)

/- The Substation (R57 to R59). -/

/-- The two layer currents are more than 10 % of the larger apart (R57). -/
def imbalanced (up lo : Nat) : Bool := decide (max up lo < 10 * (max up lo - min up lo))

/-- A pair after its report of a tick: the next measure while the imbalance persists (R57), and its grant (R58). -/
def pairTick (wall grant up lo : Nat) (k : Pair) : Pair :=
  let bad := imbalanced up lo
  let m := if bad then min 4 (k.measure + 1) else 0
  { k with upMA := up, loMA := lo, grant := grant, measure := m,
           shuntMA := if 2 ≤ m then min 1200 (max up lo - min up lo) else 0,
           imbSince := if m = 4 then some (k.imbSince.getD wall) else none, noBind := k.noBind && bad }

/-- n ns have passed since a WALL, or there is none. -/
def passed (last : Option Nat) (now n : Nat) : Bool := match last with | some w => decide (n ≤ now - w) | none => true

/-- The device gauges of a source that is measured each n ns sample a value of a unit, but for those that have sampled it within
that time (R416). -/
def sampleTimed (s : State) (src unit n v : Nat) : State :=
  s.dgauges.foldl (fun t p => if gSource p.2 = src ∧ gUnit p.2 = unit ∧ passed p.2.last s.wall n then sampleDevGauge t p.1 v else t) s

/-- The gauges of layer currents and of the rail sample (R416). The mid-rail point of a pair is a free value. -/
def sampleSupply (s : State) : State :=
  let s1 := (List.range 64).foldl (fun t p =>
    let k := pairOf t p
    sampleTimed (sampleTimed (sampleTimed t 8 p 1000 k.upMA) 8 (p + 64) 1000 k.loMA) 9 (p + 64) 1000 (Config.freeNat (s.fresh + p))) s
  let s2 := (List.range 64).foldl (fun t p => sampleTimed t 9 p 1000 t.power.railMV) s1
  { s2 with fresh := s.fresh + 64 }

/-- SUBSTATION_TICK (R57 to R59): the reports of the pairs, upper and lower current, and the measured rail. Below 1.10 V the device
takes a brownout reset (R4). -/
def execSubstationTick (currents : List (Nat × Nat × Nat)) (railMV : Nat) (s : State) : Host.Outcome State Fault Refusal :=
  .next (if passed s.power.tickWall s.wall 1000 then
   if railMV < 1100 then resetDevice (noteRail s railMV) 2 0
   else
    let s1 := noteRail s railMV
    let s2 := (List.range 64).foldl (fun t p =>
      let k := pairOf t p
      let r := (amFind currents p).getD (k.upMA, k.loMA)
      setPair t p (pairTick s.wall (Config.grant s.fresh p) r.1 r.2 k)) s1
    let idle := s2.cores.all (fun e => e.2.act.isNone)
    let budget := if idle then s2.power.fwmax else min s2.power.fwmax (Config.budget s.fresh)
    let s3 := updPower s2 (fun p => { p with budget := budget, tickWall := some s.wall })
    let s4 := if budget = s.power.budget then s3 else followSetpoint s3
    sampleSupply { s4 with fresh := s.fresh + 1 }
  else s)

/-- LAYER_IMBALANCE (R57, R405). -/
def execLayerImbalance (p : Nat) (s : State) : Host.Outcome State Fault Refusal :=
  if 64 ≤ p then .fault (.noSuchUnit p)
  else
    let k := pairOf s p
    .next (match k.imbSince with
      | some w => if k.noBind = false ∧ 100000 ≤ s.wall - w then setPair (deviceRec s 0x0702 12 p []) p { k with noBind := true } else s
      | none => s)

/-- SUPPLY_OUT_OF_BAND (R127). -/
def execSupplyOutOfBand (s : State) : Host.Outcome State Fault Refusal := .next (raiseSupply s)

/- Thermal control (R61) and collective slack (R62). -/

/-- The temperature of the hottest cluster. -/
def hottestOf (s : State) : Int := (List.range 128).foldl (fun a n => max a (tempOf s n)) (tempOf s 0)

/-- Some berth may migrate (R60). -/
def anyMigrates (s : State) : Bool := s.cores.any (fun e => allBerthNos.any (fun b => migrates s e.1 b))

/-- A part of the cluster clock in MHz, rounded to the nearest: 1 % has parts 1500, 2 % has 750. -/
def clockPart (s : State) (parts : Nat) : Nat := (clock15 s + parts / 2) / parts

/-- THERMAL_REQUEST_STEP (R61). -/
def execThermalRequestStep (s : State) : Host.Outcome State Fault Refusal :=
  .next (if passed s.power.thermWall s.wall 100000 then
    let hot := hottestOf s
    let top : Int := (10 * s.fw.tmig : Nat)
    let d := clockPart s 1500
    let cooling := (s.power.cooling || (decide (top < hot) && !anyMigrates s)) && decide (top - 20 < hot)
    followSetpoint (updPower s (fun p =>
      { p with cooling := cooling, thermWall := some s.wall,
               thermal := if cooling then max 600 (p.thermal - d)
                 else if hot ≤ top - 20 ∧ p.thermal < p.fwmax then min p.fwmax (p.thermal + d) else p.thermal }))
  else s)

/-- The filtered slack in tenths of a percent. -/
def slackTenths (s : State) : Nat := s.power.slackF / 10 ^ 9

/-- SLACK_READING (R62): the filtered slack is read, in tenths of a percent. -/
def execSlackReading (tenths : Int) (s : State) : Host.Outcome State Fault Refusal :=
  .next (if passed s.power.slackWall s.wall 1000000 ∧ tenths = slackTenths s then
    let e := tenths - (10 * s.fw.s0 : Nat)
    let d := clockPart s 750
    followSetpoint (updPower s (fun p =>
      { p with slackWall := some s.wall,
               slack := if collLive s = false then p.fwmax
                 else if 50 < e then p.slack - d
                 else if e < -50 then (if p.slack < p.fwmax then min p.fwmax (p.slack + d) else p.slack) else p.slack }))
  else s)

/- Telemetry and gauges (R423, R416). -/

/-- TELEMETRY_REFRESH (R423): the sensors read temps, and the registers take one consistent refresh. -/
def execTelemetryRefresh (temps : List (Nat × Int)) (s : State) : Host.Outcome State Fault Refusal :=
  let s1 := (temps.filter (fun e => decide (e.1 < 128))).foldl (fun t e =>
    updPower t (fun p => { p with temps := amSet p.temps e.1 e.2 })) s
  let word (k : Pair) : W64 := BitVec.ofNat 64 (k.upMA % 2 ^ 16 + k.loMA % 2 ^ 16 * 2 ^ 16 + k.shuntMA % 2 ^ 16 * 2 ^ 32 + k.grant % 2 ^ 16 * 2 ^ 48)
  let s2 := updPower s1 (fun p =>
    { p with tRail := BitVec.ofNat 16 p.railMV, tSet := BitVec.ofNat 16 (railFor (setpoint p)),
             tReq := BitVec.ofNat 64 (p.fwmax % 2 ^ 16 + p.budget % 2 ^ 16 * 2 ^ 16 + p.thermal % 2 ^ 16 * 2 ^ 32 + p.slack % 2 ^ 16 * 2 ^ 48),
             tPair := (List.range 64).map (fun i => (i, word (pairOf s1 i))),
             tTemp := (List.range 128).map (fun n => (n, BitVec.ofInt 16 (tempOf s1 n))) })
  .next (if temps.isEmpty then s2
    else (List.range 128).foldl (fun t n => sampleTimed t 10 n 10000 (BitVec.ofInt 16 (tempOf s1 n)).toNat) s2)

/-- What a device gauge would sample now, of the sources that are measured each 1 µs or 10 µs: none where that time has not passed
since its last sample. The mid-rail point of a pair is whatever it is measured to be (R416). -/
def sampleDue (s : State) (g : Gauge) (value : Nat) : Bool :=
  let u := gUnit g
  let k := pairOf s (u % 64)
  match gSource g with
  | 8 => passed g.last s.wall 1000 && decide (value = if u < 64 then k.upMA else k.loMA)
  | 9 => passed g.last s.wall 1000 && decide (64 ≤ u ∨ value = s.power.railMV)
  | 10 => passed g.last s.wall 10000 && decide (value = (BitVec.ofInt 16 (tempOf s u)).toNat)
  | _ => false

/-- GAUGE_SAMPLE (R416): an armed device gauge takes the sample that is due. The gauges of a core take theirs where their sources
measure: at the start and the end of an activation, at a copy's end and at a window of RATIO. -/
def execGaugeSample (core : Option Nat) (idx value : Nat) (s : State) : Host.Outcome State Fault Refusal :=
  match core with
  | some c => if 1024 ≤ c ∨ 4 ≤ idx then .fault (.noSuchUnit c) else .next s
  | none =>
    if 64 ≤ idx then .fault (.noSuchUnit idx)
    else .next (if sampleDue s (amGet {} s.dgauges idx) value then sampleDevGauge s idx value else s)

/- Tagged sampling (R417). -/

/-- The sample record of a marked instruction that has ended; times are FETCH, QWAIT, IWAIT, EXEC and RETIRE (R417). -/
def putSample (s : State) (c : Nat) (pilot : Bool) (times : List Nat) : State :=
  let t := streamOf (coreOf s c) pilot
  if t.marked && t.markDone then
    let cyc (i : Nat) : List Byte := leBytes 4 (min (times.getD i 0) (2 ^ 32 - 1))
    let bs := leBytes 8 t.markPc.toNat ++ leBytes 4 t.markGid ++ leBytes 2 t.markLc.toNat
      ++ leBytes 1 (bitNat pilot + t.markFlags.toNat / 2 * 2) ++ leBytes 1 0 ++ cyc 0 ++ cyc 1 ++ cyc 2 ++ cyc 3 ++ cyc 4
      ++ leBytes 4 0 ++ leBytes 8 t.markWall
    let r := ringPut s.rSample s.mem 48 bs
    updStream { s with rSample := r.1, mem := r.2.1 } c pilot (fun u => { u with marked := false, markDone := false })
  else s

/-- A record that still waits is written; its cyc fields, which the model does not count, are free values. -/
def flushSample (s : State) (c : Nat) (pilot : Bool) : State :=
  let t := streamOf (coreOf s c) pilot
  if t.marked && t.markDone then
    { putSample s c pilot ((List.range 5).map (fun i => Config.freeNat (s.fresh + i))) with fresh := s.fresh + 5 }
  else s

/-- The number of issues until the next mark is drawn (R417). -/
def drawSample (s : State) (c : Nat) (pilot : Bool) : State :=
  { updStream s c pilot (fun t => { t with sampleArmed := true, sampleLeft := 1 + Config.sampleDraw s.fresh % (2 * s.rSample.param.toNat) }) with
    fresh := s.fresh + 1 }

/-- What sampling does as a stream is about to issue an instruction: with PERIOD first set it draws; when its count has expired it
marks the instruction and draws again (R417). While an instruction of the stream that was marked has not ended, no other is marked, and
the count stands at 0 (DESIGN CHOICE, log entry 91). -/
def sampleTurn (s : State) (c : Nat) (pilot : Bool) : State :=
  let x := coreOf s c
  let t := streamOf x pilot
  if x.sup then s
  else if s.rSample.param = 0 then
    if t.sampleArmed then updStream s c pilot (fun u => { u with sampleArmed := false, sampleLeft := 0 }) else s
  else if t.sampleArmed = false then drawSample s c pilot
  else if t.sampleLeft ≠ 0 ∨ (t.marked = true ∧ t.markDone = false) then s
  else
    drawSample (updStream (flushSample s c pilot) c pilot (fun u =>
      { u with marked := true, markDone := false, markPc := u.pc, markGid := (actBerth x).gid, markLc := (actBerth x).lcore })) c pilot

/-- SAMPLE_MARK (R417): the count of a stream has expired, and the instruction it is about to issue is marked. -/
def execSampleMark (c : Nat) (pilot : Bool) (s : State) : Host.Outcome State Fault Refusal :=
  if 1024 ≤ c then .fault (.noSuchUnit c)
  else
    let x := coreOf s c
    .next (if x.act.isNone || (streamOf x pilot).stopped || (streamOf x pilot).wait.isSome then s else sampleTurn s c pilot)

/-- SAMPLE_RECORD (R417): flags are those the instruction ended with. -/
def execSampleRecord (c : Nat) (pilot : Bool) (times : List Nat) (flags : BitVec 8) (s : State) : Host.Outcome State Fault Refusal :=
  if 1024 ≤ c then .fault (.noSuchUnit c)
  else .next (if fieldAt flags.toNat 1 3 = (streamOf (coreOf s c) pilot).markFlags.toNat / 2 then putSample s c pilot times else s)

end Sys2Proof.Machine
end

