-- ==== Sys2Proof/Machine/Resume.lean ====
section
/-! DEFINITION. The meaning of each instruction word as one record, and how a held stream goes on (R75, R129, R137, R144,
R186, R394). -/

namespace Sys2Proof.Machine

/-- The meaning of an instruction word: its operands, the streams it is permitted to, whether OPD is a source, its body. -/
structure Meaning where
  o : Ops
  perm : Perm
  dRead : Bool
  body : Phase → State → Body

/-- The meaning of each instruction word but UDF; none for the steps of engines. -/
def meaningOf (i : Instr) : Option Meaning :=
  match i with
  | .udf => none
  | .nop o => some { o := o, perm := .both, dRead := false, body := nopBody o }
  | .br o => some { o := o, perm := .both, dRead := false, body := brBody o }
  | .brx o => some { o := o, perm := .both, dRead := false, body := brxBody o }
  | .call o => some { o := o, perm := .both, dRead := false, body := callBody o }
  | .ret o => some { o := o, perm := .both, dRead := false, body := retBody o }
  | .brdec o => some { o := o, perm := .both, dRead := false, body := brdecBody o }
  | .steer o => some { o := o, perm := .execute, dRead := false, body := steerBody o }
  | .follow o => some { o := o, perm := .pilot, dRead := false, body := followBody o }
  | .retire o => some { o := o, perm := .both, dRead := false, body := retireBody o }
  | .finish o => some { o := o, perm := .both, dRead := false, body := finishBody o }
  | .realign o => some { o := o, perm := .both, dRead := false, body := realignBody o }
  | .trap o => some { o := o, perm := .both, dRead := false, body := trapBody o }
  | .pfx o m => some { o := o, perm := .both, dRead := false, body := pfxBody o m }
  | .launch o => some { o := o, perm := .both, dRead := false, body := launchBody o }
  | .waitc o => some { o := o, perm := .both, dRead := false, body := waitcBody o }
  | .waitw o => some { o := o, perm := .both, dRead := false, body := waitwBody o }
  | .rdts o => some { o := o, perm := .both, dRead := false, body := rdtsBody o }
  | .dlset o m => some { o := o, perm := .both, dRead := false, body := dlsetBody o m }
  | .dltest o m => some { o := o, perm := .both, dRead := false, body := dltestBody o m }
  | .dlwait o m => some { o := o, perm := .both, dRead := false, body := dlwaitBody o m }
  | .add o m => some { o := o, perm := .both, dRead := false, body := addBody o m }
  | .sub o m => some { o := o, perm := .both, dRead := false, body := subBody o m }
  | .mul o m => some { o := o, perm := .both, dRead := false, body := mulBody o m }
  | .mulh o m => some { o := o, perm := .both, dRead := false, body := mulhBody o m }
  | .div o m => some { o := o, perm := .both, dRead := false, body := divBody o m }
  | .rem o m => some { o := o, perm := .both, dRead := false, body := remBody o m }
  | .and o m => some { o := o, perm := .both, dRead := false, body := andBody o m }
  | .or o m => some { o := o, perm := .both, dRead := false, body := orBody o m }
  | .xor o m => some { o := o, perm := .both, dRead := false, body := xorBody o m }
  | .andn o m => some { o := o, perm := .both, dRead := false, body := andnBody o m }
  | .shl o m => some { o := o, perm := .both, dRead := false, body := shlBody o m }
  | .shr o m => some { o := o, perm := .both, dRead := false, body := shrBody o m }
  | .sar o m => some { o := o, perm := .both, dRead := false, body := sarBody o m }
  | .rot o m => some { o := o, perm := .both, dRead := false, body := rotBody o m }
  | .min o m => some { o := o, perm := .both, dRead := false, body := minBody o m }
  | .max o m => some { o := o, perm := .both, dRead := false, body := maxBody o m }
  | .clz o m => some { o := o, perm := .both, dRead := false, body := clzBody o m }
  | .ctz o m => some { o := o, perm := .both, dRead := false, body := ctzBody o m }
  | .popc o m => some { o := o, perm := .both, dRead := false, body := popcBody o m }
  | .bfx o m => some { o := o, perm := .both, dRead := false, body := bfxBody o m }
  | .bfi o m => some { o := o, perm := .both, dRead := false, body := bfiBody o m }
  | .sext o m => some { o := o, perm := .both, dRead := false, body := sextBody o m }
  | .zext o m => some { o := o, perm := .both, dRead := false, body := zextBody o m }
  | .mov o => some { o := o, perm := .both, dRead := false, body := movBody o }
  | .sel o => some { o := o, perm := .both, dRead := false, body := selBody o }
  | .abs o m => some { o := o, perm := .both, dRead := false, body := absBody o m }
  | .lea o m => some { o := o, perm := .both, dRead := false, body := leaBody o m }
  | .brev o m => some { o := o, perm := .both, dRead := false, body := brevBody o m }
  | .bswap o m => some { o := o, perm := .both, dRead := false, body := bswapBody o m }
  | .mfx o => some { o := o, perm := .both, dRead := false, body := mfxBody o }
  | .mtx o => some { o := o, perm := .both, dRead := false, body := mtxBody o }
  | .cmp o m => some { o := o, perm := .both, dRead := false, body := cmpBody o m }
  | .tst o m => some { o := o, perm := .both, dRead := false, body := tstBody o m }
  | .pand o => some { o := o, perm := .both, dRead := false, body := pandBody o }
  | .por o => some { o := o, perm := .both, dRead := false, body := porBody o }
  | .pxor o => some { o := o, perm := .both, dRead := false, body := pxorBody o }
  | .pnot o => some { o := o, perm := .both, dRead := false, body := pnotBody o }
  | .pmov o => some { o := o, perm := .both, dRead := false, body := pmovBody o }
  | .ptos o => some { o := o, perm := .both, dRead := false, body := ptosBody o }
  | .lds o m => some { o := o, perm := .both, dRead := false, body := ldsBody o m }
  | .sts o m => some { o := o, perm := .both, dRead := true, body := stsBody o m }
  | .ldv o m => some { o := o, perm := .both, dRead := false, body := ldvBody o m }
  | .stv o m => some { o := o, perm := .both, dRead := true, body := stvBody o m }
  | .vlds o m => some { o := o, perm := .execute, dRead := false, body := vldsBody o m }
  | .vsts o m => some { o := o, perm := .execute, dRead := true, body := vstsBody o m }
  | .vldv o m => some { o := o, perm := .execute, dRead := false, body := vldvBody o m }
  | .vstv o m => some { o := o, perm := .execute, dRead := true, body := vstvBody o m }
  | .ldx o m => some { o := o, perm := .both, dRead := false, body := ldxBody o m }
  | .stx o m => some { o := o, perm := .both, dRead := true, body := stxBody o m }
  | .feget o => some { o := o, perm := .both, dRead := false, body := fegetBody o }
  | .feset o => some { o := o, perm := .both, dRead := false, body := fesetBody o }
  | .vgath o m => some { o := o, perm := .execute, dRead := false, body := vgathBody o m }
  | .vscat o m => some { o := o, perm := .execute, dRead := true, body := vscatBody o m }
  | .ldg o m => some { o := o, perm := .both, dRead := false, body := ldgBody o m }
  | .stg o m => some { o := o, perm := .both, dRead := true, body := stgBody o m }
  | .vldg o m => some { o := o, perm := .execute, dRead := false, body := vldgBody o m }
  | .vstg o m => some { o := o, perm := .execute, dRead := true, body := vstgBody o m }
  | .rld o m => some { o := o, perm := .both, dRead := false, body := rldBody o m }
  | .rst o m => some { o := o, perm := .both, dRead := true, body := rstBody o m }
  | .tabwait o m => some { o := o, perm := .both, dRead := false, body := tabwaitBody o m }
  | .tabtest o m => some { o := o, perm := .both, dRead := false, body := tabtestBody o m }
  | .pref o => some { o := o, perm := .both, dRead := false, body := prefBody o }
  | .aadd o m => some { o := o, perm := .execute, dRead := true, body := aaddBody o m }
  | .amin o m => some { o := o, perm := .execute, dRead := true, body := aminBody o m }
  | .amax o m => some { o := o, perm := .execute, dRead := true, body := amaxBody o m }
  | .aand o m => some { o := o, perm := .execute, dRead := true, body := aandBody o m }
  | .aor o m => some { o := o, perm := .execute, dRead := true, body := aorBody o m }
  | .axor o m => some { o := o, perm := .execute, dRead := true, body := axorBody o m }
  | .axchg o m => some { o := o, perm := .execute, dRead := true, body := axchgBody o m }
  | .acas o m => some { o := o, perm := .execute, dRead := true, body := acasBody o m }
  | .afadd o m => some { o := o, perm := .execute, dRead := true, body := afaddBody o m }
  | .aredv o m => some { o := o, perm := .execute, dRead := true, body := aredvBody o m }
  | .areg o => some { o := o, perm := .execute, dRead := false, body := aregBody o }
  | .acommit o m => some { o := o, perm := .execute, dRead := false, body := acommitBody o m }
  | .aabort o => some { o := o, perm := .execute, dRead := false, body := aabortBody o }
  | .tspawn o => some { o := o, perm := .execute, dRead := true, body := tspawnBody o }
  | .fence o m => some { o := o, perm := .execute, dRead := false, body := fenceBody o m }
  | .hbar o m => some { o := o, perm := .execute, dRead := false, body := hbarBody o m }
  | .hbara o m => some { o := o, perm := .execute, dRead := false, body := hbaraBody o m }
  | .hbarw o m => some { o := o, perm := .execute, dRead := false, body := hbarwBody o m }
  | .abarm o => some { o := o, perm := .execute, dRead := false, body := abarmBody o }
  | .abwait o m => some { o := o, perm := .execute, dRead := false, body := abwaitBody o m }
  | .abtest o m => some { o := o, perm := .execute, dRead := false, body := abtestBody o m }
  | .fewait o m => some { o := o, perm := .execute, dRead := false, body := fewaitBody o m }
  | .wmark o => some { o := o, perm := .execute, dRead := false, body := wmarkBody o }
  | .cpy o m => some { o := o, perm := .both, dRead := true, body := cpyBody o m }
  | .cpy2 o m => some { o := o, perm := .both, dRead := true, body := cpy2Body o m }
  | .tmaps o => some { o := o, perm := .both, dRead := false, body := tmapsBody o }
  | .cpyt o m => some { o := o, perm := .both, dRead := true, body := cpytBody o m }
  | .send o m => some { o := o, perm := .both, dRead := true, body := sendMsgBody o m }
  | .sends o m => some { o := o, perm := .both, dRead := true, body := sendsBody o m }
  | .mcast o m => some { o := o, perm := .execute, dRead := true, body := mcastBody o m }
  | .netpost o => some { o := o, perm := .execute, dRead := false, body := netpostBody o }
  | .netpoll o m => some { o := o, perm := .execute, dRead := false, body := netpollBody o m }
  | .pce o m => some { o := o, perm := .both, dRead := true, body := pceBody o m }
  | .vadd o m => some { o := o, perm := .execute, dRead := false, body := vaddBody o m }
  | .vsub o m => some { o := o, perm := .execute, dRead := false, body := vsubBody o m }
  | .vmul o m => some { o := o, perm := .execute, dRead := false, body := vmulBody o m }
  | .vfma o m => some { o := o, perm := .execute, dRead := false, body := vfmaBody o m }
  | .vmin o m => some { o := o, perm := .execute, dRead := false, body := vminBody o m }
  | .vmax o m => some { o := o, perm := .execute, dRead := false, body := vmaxBody o m }
  | .vabs o m => some { o := o, perm := .execute, dRead := false, body := vabsBody o m }
  | .vneg o m => some { o := o, perm := .execute, dRead := false, body := vnegBody o m }
  | .vand o m => some { o := o, perm := .execute, dRead := false, body := vandBody o m }
  | .vor o m => some { o := o, perm := .execute, dRead := false, body := vorBody o m }
  | .vxor o m => some { o := o, perm := .execute, dRead := false, body := vxorBody o m }
  | .vshl o m => some { o := o, perm := .execute, dRead := false, body := vshlBody o m }
  | .vshr o m => some { o := o, perm := .execute, dRead := false, body := vshrBody o m }
  | .vcmp o m => some { o := o, perm := .execute, dRead := false, body := vcmpBody o m }
  | .vsel o m => some { o := o, perm := .execute, dRead := false, body := vselBody o m }
  | .vdot4 o m => some { o := o, perm := .execute, dRead := false, body := vdot4Body o m }
  | .vrcp o m => some { o := o, perm := .execute, dRead := false, body := vrcpBody o m }
  | .vrsq o m => some { o := o, perm := .execute, dRead := false, body := vrsqBody o m }
  | .vexp2 o m => some { o := o, perm := .execute, dRead := false, body := vexp2Body o m }
  | .vlog2 o m => some { o := o, perm := .execute, dRead := false, body := vlog2Body o m }
  | .vscale o m => some { o := o, perm := .execute, dRead := false, body := vscaleBody o m }
  | .vredadd o m => some { o := o, perm := .execute, dRead := false, body := vredaddBody o m }
  | .vredmax o m => some { o := o, perm := .execute, dRead := false, body := vredmaxBody o m }
  | .vredmin o m => some { o := o, perm := .execute, dRead := false, body := vredminBody o m }
  | .vargmax o m => some { o := o, perm := .execute, dRead := false, body := vargmaxBody o m }
  | .vargmin o m => some { o := o, perm := .execute, dRead := false, body := vargminBody o m }
  | .vperm o m => some { o := o, perm := .execute, dRead := false, body := vpermBody o m }
  | .vbcast o m => some { o := o, perm := .execute, dRead := false, body := vbcastBody o m }
  | .vrot o m => some { o := o, perm := .execute, dRead := false, body := vrotBody o m }
  | .viota o m => some { o := o, perm := .execute, dRead := false, body := viotaBody o m }
  | .vmovsGet o m => some { o := o, perm := .execute, dRead := false, body := vmovsGetBody o m }
  | .vmovsPut o m => some { o := o, perm := .execute, dRead := false, body := vmovsPutBody o m }
  | .vclamp o m => some { o := o, perm := .execute, dRead := false, body := vclampBody o m }
  | .vcvt o m => some { o := o, perm := .execute, dRead := false, body := vcvtBody o m }
  | .vquant o m => some { o := o, perm := .execute, dRead := false, body := vquantBody o m }
  | .vdeq o m => some { o := o, perm := .execute, dRead := false, body := vdeqBody o m }
  | .vrand o => some { o := o, perm := .execute, dRead := false, body := vrandBody o }
  | .vpln o m => some { o := o, perm := .execute, dRead := false, body := vplnBody o m }
  | .vunpln o m => some { o := o, perm := .execute, dRead := false, body := vunplnBody o m }
  | .padd o m => some { o := o, perm := .execute, dRead := false, body := paddBody o m }
  | .psub o m => some { o := o, perm := .execute, dRead := false, body := psubBody o m }
  | .pmul o m => some { o := o, perm := .execute, dRead := false, body := pmulBody o m }
  | .pcmp o m => some { o := o, perm := .execute, dRead := false, body := pcmpBody o m }
  | .gang o => some { o := o, perm := .execute, dRead := false, body := gangBody o }
  | .mma o m => some { o := o, perm := .execute, dRead := false, body := mmaBody o m }
  | .mmaz o m => some { o := o, perm := .execute, dRead := false, body := mmazBody o m }
  | .mmas o m => some { o := o, perm := .execute, dRead := false, body := mmasBody o m }
  | .mzero o => some { o := o, perm := .execute, dRead := false, body := mzeroBody o }
  | .mdrain o => some { o := o, perm := .execute, dRead := true, body := mdrainBody o }
  | .mwait o => some { o := o, perm := .execute, dRead := false, body := mwaitBody o }
  | .sclsend o => some { o := o, perm := .execute, dRead := false, body := sclsendBody o }
  | .syscall o => some { o := o, perm := .execute, dRead := false, body := syscallBody o }
  | .tret o => some { o := o, perm := .supervisor, dRead := false, body := tretBody o }
  | .ctxsv o => some { o := o, perm := .supervisor, dRead := false, body := ctxsvBody o }
  | .ctxld o => some { o := o, perm := .supervisor, dRead := false, body := ctxldBody o }
  | .gauge o => some { o := o, perm := .execute, dRead := false, body := gaugeBody o }
  | .gread o => some { o := o, perm := .execute, dRead := false, body := greadBody o }
  | .tmark o => some { o := o, perm := .execute, dRead := false, body := tmarkBody o }
  | .idle o => some { o := o, perm := .supervisor, dRead := false, body := idleBody o }
  | .faultrpt o => some { o := o, perm := .supervisor, dRead := false, body := faultrptBody o }
  | .supstep o => some { o := o, perm := .supervisor, dRead := false, body := supstepBody o }
  | .doorbell _ | .rackLaunchPacket _ _ | .dispatcherTakePacket | .prereqRecheck _ | .bindTask _ _
  | .loadingDone _ _ | .stopBerth _ _ | .berthFree _ _ | .priorityAging _ _ | .berthPriorityRaise _ _
  | .preempt _ _ | .migrate _ _ | .contextSave _ _ | .restore _ _ | .messageForward _ | .graphComplete _
  | .completionRecord _ | .fetchLineServed _ | .activationStart _ | .activationEnd _ | .messageArrival _
  | .parkDelivery _ _ | .parkDiscard _ _ | .windowMarkArrival _ | .handlerRewrite _ _ _ _ | .queueDeadlock _
  | .waitConditionMet _ _ | .timedWaitTimeout _ _ | .waitCountExpiry _ _ | .realignRelease _ _ | .idleWake _
  | .deadlineFire _ _ | .ratioWindowComplete _ | .gearStopStart _ | .gearStopEnd _ | .gearStop _
  | .substationTick _ _ | .layerImbalance _ | .thermalRequestStep | .thermalTrip _ | .slackReading _
  | .supplyOutOfBand | .brownoutReset | .asyncEventArrival _ | .asyncEventTaken _ | .storeLanding _ | .go _ | .all
  | .igo _ | .invalidationDone | .chunkLanding _ _ | .copyFaultParked _ _ | .copyFailed _ _ | .vectorComplete _
  | .matrixProductStart _ | .matrixComplete _ | .gangFormed _ | .gangJoinTimeout _ | .gangProductStart _
  | .gangTimeout _ | .scaleDelivery _ _ | .scaleMissing _ | .hbarPhaseComplete _ _ _ | .atomicPerform _
  | .predictorQuiet _ _ | .commit _ | .heldMessageSend _ | .regionTimeout _ | .irrevocableRestart _
  | .orderedTaskStart _ _ _ _ | .orderedTaskCommit _ | .laneFailure _ _ | .linkRetrained _ | .linkDown _
  | .flitCheckFail _ | .maxw _ _ | .plannedWidthChange _ | .packetForward _ _ | .packetReceive _ | .ackReceive _ _
  | .retransmitTimer _ _ | .contextClose _ | .remoteOutcomeUnknown _ | .reachabilityProbe _ | .remoteReply _ _
  | .retryListTimeout _ _ | .cancel _ _ | .hold _ _ | .clear _ | .clearAck _ _ | .drop _ | .query _ _
  | .sidingExpiry _ | .expired _ _ _ _ _ | .deadEntryFree _ | .tabletRackFull _ _ | .workRequestComplete _ _
  | .windowPlacement _ _ _ _ | .tableRefreshEntry | .tableRefreshAll | .tableRefreshDone | .cxlMemWrite _ _ _
  | .cxlMemRead _ _ _ | .getparam | .setparam | .dstop | .dsave | .dgo | .rackallow | .reset | .fwload | .measure
  | .powerOnReset | .cxlHotReset | .cxlFlr | .watchdog | .dispatcherReport | .fatalErrorReset _ | .bootPhaseAdvance
  | .getVersion _ | .getCapabilities _ | .negotiateAlgorithms _ | .getDigests _ | .getCertificate _ | .challenge _
  | .getMeasurements _ | .telemetryRefresh _ | .gaugeSample _ _ _ | .sampleMark _ _ | .sampleRecord _ _ _ _
  | .registerWrite _ _ _ _ | .loadDataWritten _ _ | .lastSequenceExpiry _ | .peerRead _ _ _ _ => none

/-- The wait of a stream that may go on: its activation runs, its pair's clock runs, the supervisor routine does not hold it
back. -/
def waitAt (s : State) (c : Nat) (pilot : Bool) : Option Wait :=
  let x := coreOf s c
  if x.act.isNone || geared s c || (x.sup && pilot) then none
  else if x.sup then x.supWait else (streamOf x pilot).wait

/-- A held stream goes on with VIEWV as it stood when its instruction issued (R81). -/
def onOldView (c : Nat) (w : Wait) (f : State → State) (s : State) : State :=
  if hasIssued w then
    updCore (f (updCore s c (fun k => { k with viewV := w.viewV }))) c (fun k => { k with viewV := (coreOf s c).viewV })
  else f s

/-- The stream has issued in this cyc. -/
def setIssued (s : State) (c : Nat) (pilot : Bool) : State := updCore s c (fun k => { k with issued := k.issued ||| stepBit pilot })

/-- A stream is held at an instruction (R75, R129). -/
def heldNow (s : State) (c : Nat) (pilot : Bool) : Bool :=
  let x := coreOf s c
  if x.sup then x.supWait.isSome else (streamOf x pilot).wait.isSome

/-- The meaning at which a stream is held is run again, as a phase of its wait. -/
def runHeld (s : State) (c : Nat) (pilot : Bool) (ph : Phase) (w : Wait) : State :=
  match meaningOf w.instr with
  | none => s
  | some m =>
    let s1 := { s with cur := (c, pilot) }
    { runBody w.instr m.o m.dRead s1 (bodyNow w.instr m.o m.body ph s1) with cur := s.cur }

/-- What the two streams of a core may reach in one cyc with the execute stream first: 1 a deadline slot (R131), 2 the scratchpad
(R165, R170), 0 neither. -/
def turnKind (i : Instr) : Nat :=
  match i with
  | .dlwait _ _ => 1
  | .lds _ _ | .sts _ _ | .ldx _ _ | .stx _ _ | .vlds _ _ | .vsts _ _ | .vgath _ _ | .vscat _ _ | .feget _ | .feset _ | .fewait _ _
  | .sends _ _ | .tspawn _ | .launch _ | .cpy2 _ _ | .cpyt _ _ | .mcast _ _ | .netpost _ | .netpoll _ _ | .abarm _ | .abwait _ _
  | .abtest _ _ | .aadd _ _ | .amin _ _ | .amax _ _ | .aand _ _ | .aor _ _ | .axor _ _ | .axchg _ _ | .acas _ _ | .afadd _ _
  | .aredv _ _ => 2
  | _ => 0

/-- A held stream goes on. An instruction that has not issued does so now: the pilot's not after the execute stream's in one cyc
(R83), but for one that comes second (R131, R165). A region whose abort waits for room aborts once there is some (R320). -/
def rerun (s : State) (c : Nat) (pilot : Bool) (ph : Phase) (w : Wait) : State :=
  let k := coreOf s c
  match (if pilot || k.sup then none else k.region.bind (fun r => r.aborting.map (fun a => (r, a)))) with
  | some (r, a) => tryAbort s c r a
  | none =>
    if hasIssued w then onOldView c w (fun t => runHeld t c pilot ph w) s
    else if pilot && k.issued.getLsbD 0 && turnKind w.instr == 0 then s
    else
      let t := runHeld s c pilot ph w
      if heldNow t c pilot then t else setIssued t c pilot

/-- Waits whose condition ends them (R75, R129). -/
def byCondition (w : Wait) : Bool :=
  match w.why with
  | .queue _ | .room | .timed | .remote _ => true
  | _ => false

/-- The instruction waits for a count. -/
def countWait (w : Wait) : Bool :=
  match w.instr with
  | .waitc _ | .waitw _ => decide (w.why = .count)
  | _ => false

/- The streams of a core in one cyc (R83, R131, R165, R384). -/

/-- A stream has not issued in this cyc, and has not taken its step (R147, R396). -/
def notYet (k : Core) (pilot : Bool) : Bool :=
  decide (k.issued &&& stepBit pilot = 0) && (k.sup || decide (k.stepped &&& stepBit pilot = 0))

/-- A stream may issue in this cyc: the pilot does so before the execute stream (R83). -/
def mayGo (s : State) (c : Nat) (pilot : Bool) : Bool := notYet (coreOf s c) pilot && !(pilot && (coreOf s c).issued.getLsbD 0)

/-- A stream could issue now. -/
def canIssue (s : State) (c : Nat) (pilot : Bool) : Bool := mayIssue s c pilot && !heldNow s c pilot && mayGo s c pilot

/-- What a stream stands at. -/
def fetchNow (s : State) (c : Nat) (pilot : Bool) : Fetch := if (coreOf s c).sup then fetchSup s c else fetchAt s c pilot

/-- The state in which a stream issues: sampling has counted the instruction, and the stream has issued in this cyc. -/
def issuing (s : State) (c : Nat) (pilot : Bool) : State := { setIssued (sampleTurn s c pilot) c pilot with cur := (c, pilot) }

/-- A stream's fetch ends in a trap (R107). -/
def fetchFails (s : State) (c : Nat) (pilot : Bool) (t : TrapIn) : State := fetchTrap { setIssued s c pilot with cur := (c, pilot) } c pilot t

/-- A stream has trapped between two states. -/
def hasTrapped (s t : State) (c : Nat) (pilot : Bool) : Bool := !(coreOf s c).sup && (coreOf t c).sup && (coreOf t c).tstream == pilot

/-- An instruction word issues. -/
def issueWord (i : Instr) (s : State) : State :=
  match meaningOf i with
  | some m => (match issue i m.o m.perm m.dRead m.body s with | .next t => t | _ => s)
  | none => (match execUdf s with | .next t => t | _ => s)

/-- The synchronous trap in which the instruction at which a stream stands ends as it issues. -/
def issueTrap (s : State) (c : Nat) (pilot : Bool) : Option State :=
  if canIssue s c pilot then
    let t := match fetchNow s c pilot with
      | .instr i => issueWord i (issuing s c pilot)
      | .trap t => fetchFails s c pilot t
      | .ask _ => s
    if hasTrapped s t c pilot then some t else none
  else none

/-- The synchronous trap in which the wait of a held stream ends now: by its condition, its count or its limit. -/
def waitTrap (s : State) (c : Nat) (pilot : Bool) : Option State :=
  match waitAt s c pilot with
  | none => none
  | some w =>
    let go := rerun s c pilot .resume w
    let late := rerun s c pilot .timeout w
    if (byCondition w || countWait w) && hasTrapped s go c pilot then some go
    else if decide (w.why = .timed) && hasTrapped s late c pilot then some late
    else none

/-- The synchronous trap of a stream in this cyc. -/
def trapsNow (s : State) (c : Nat) (pilot : Bool) : Option State :=
  match waitTrap s c pilot with
  | some t => some t
  | none => issueTrap s c pilot

/-- The pilot's part of a cyc: where it traps, and the execute stream's own trap of the cyc is known, that one is taken, and the pilot's
instruction is frozen without effect (R384). -/
def yieldTrap (s t : State) (c : Nat) (own : Option State) : State := if hasTrapped s t c true then own.getD t else t

/-- An event that pends is taken at the boundary at which its stream stands, but for a synchronous trap there, which is taken while the
event stays pending (R384). -/
def eventMove (s : State) (c : Nat) : State :=
  if (eventDue s c).isSome then (trapsNow s c (eventStream s c)).getD (takeEvent s c) else s

/-- ASYNC_EVENT_TAKEN (R381, R384). -/
def execAsyncEventTaken (c : Nat) (s : State) : Host.Outcome State Fault Refusal :=
  if 1024 ≤ c then .fault (.noSuchUnit c) else .next (eventMove s c)

/-- A stream whose wait is of a kind goes on, or stays held. An event that pends for it is taken first (R130, R384). -/
def goAgain (s : State) (c : Nat) (pilot : Bool) (ph : Phase) (kind : Wait → Bool) : State :=
  match waitAt s c pilot with
  | some w =>
    if kind w then
      (if (eventDue s c).isSome ∧ pilot = eventStream s c then eventMove s c
       else if pilot then yieldTrap s (rerun s c true ph w) c (waitTrap s c false)
       else rerun s c false ph w)
    else s
  | none => s

/-- The instruction that the execute stream could still issue, or go on with, in this cyc. -/
def exStands (s : State) (c : Nat) : Option Instr :=
  if (eventDue s c).isSome then none
  else if canIssue s c false then (match fetchNow s c false with | .instr i => some i | _ => none)
  else match waitAt s c false with
    | some w => if byCondition w then some w.instr else none
    | none => none

/-- An instruction of the pilot leaves the turn to the one at which the execute stream stands (R131, R165, R170). -/
def leavesTurn (s : State) (c : Nat) (i : Instr) : Bool := turnKind i != 0 && (exStands s c).any (fun e => turnKind e == turnKind i)

/-- A move of a held stream while the cyc still runs: the pilot leaves the turn where it comes second, and its trap to the execute
stream's, which may still issue (R131, R165, R384). -/
def goMove (s : State) (c : Nat) (pilot : Bool) (ph : Phase) (kind : Wait → Bool) : State :=
  match waitAt s c pilot with
  | some w =>
    if kind w && pilot && leavesTurn s c w.instr then s
    else if pilot then yieldTrap s (goAgain s c true ph kind) c (issueTrap s c false)
    else goAgain s c false ph kind
  | none => s

/-- WAIT_CONDITION_MET (R75, R129): the condition is tested; a stream that meets it goes on. -/
def execWaitConditionMet (c : Nat) (pilot : Bool) (s : State) : Host.Outcome State Fault Refusal :=
  if 1024 ≤ c then .fault (.noSuchUnit c) else .next (goMove s c pilot .resume byCondition)

/-- TIMED_WAIT_TIMEOUT (R129): the limit is tested where the condition is not met. -/
def execTimedWaitTimeout (c : Nat) (pilot : Bool) (s : State) : Host.Outcome State Fault Refusal :=
  if 1024 ≤ c then .fault (.noSuchUnit c) else .next (goMove s c pilot .timeout (fun w => decide (w.why = .timed)))

/-- WAIT_COUNT_EXPIRY (R144). -/
def execWaitCountExpiry (c : Nat) (pilot : Bool) (s : State) : Host.Outcome State Fault Refusal :=
  if 1024 ≤ c then .fault (.noSuchUnit c) else .next (goMove s c pilot .resume countWait)

/-- REALIGN goes on at a stream, its count over or not. -/
def releaseOne (pilot : Bool) (s : State) (c : Nat) : State :=
  match waitAt s c pilot with
  | some w =>
    match w.instr with
    | .realign o =>
      let s1 := { s with cur := (c, pilot) }
      { runBody w.instr o false s1 (onReady o false s1 (realignDone o s1)) with cur := s.cur }
    | _ => s
  | none => s

/-- REALIGN_RELEASE (R137): its count is over, or every peer is held at the same REALIGN; then all are released at once. -/
def releaseRealign (c : Nat) (pilot : Bool) (s : State) : State :=
  match waitAt s c pilot with
  | some w =>
    match w.instr with
    | .realign o =>
      if decide (w.why = .count) = false then s
      else if realignDue { s with cur := (c, pilot) } o then releaseOne pilot s c
      else if (realignPeers s c pilot).all (fun d => heldAtRealign s d pilot (pcNow { s with cur := (c, pilot) })) then
        (c :: realignPeers s c pilot).foldl (releaseOne pilot) s
      else s
    | _ => s
  | none => s
def execRealignRelease (c : Nat) (pilot : Bool) (s : State) : Host.Outcome State Fault Refusal :=
  if 1024 ≤ c then .fault (.noSuchUnit c) else .next (releaseRealign c pilot s)

/-- IDLE_WAKE (R394). -/
def execIdleWake (c : Nat) (s : State) : Host.Outcome State Fault Refusal :=
  if 1024 ≤ c then .fault (.noSuchUnit c) else .next (goAgain s c false .resume (fun w => decide (w.why = .idle)))

/-- The instruction loads. -/
def isLoad (i : Instr) : Bool :=
  match i with
  | .lds _ _ | .ldv _ _ | .ldg _ _ | .ldx _ _ | .vlds _ _ | .vldv _ _ | .vldg _ _ | .vgath _ _ | .rld _ _ => true
  | _ => false

/-- LOAD_DATA_WRITTEN (R186): a load that has been held has its data, which is checked and written. -/
def execLoadDataWritten (c : Nat) (pilot : Bool) (s : State) : Host.Outcome State Fault Refusal :=
  if 1024 ≤ c then .fault (.noSuchUnit c) else .next (goMove s c pilot .resume (fun w => byCondition w && isLoad w.instr))

/-- The stream waits at ACOMMIT for its commit. -/
def commitWait (w : Wait) : Bool :=
  match w.instr with
  | .acommit _ _ => decide (w.why = .commit)
  | _ => false

/-- COMMIT (R325): the signal box takes up a region whose ACOMMIT waits. -/
def execCommit (c : Nat) (s : State) : Host.Outcome State Fault Refusal :=
  if 1024 ≤ c then .fault (.noSuchUnit c) else .next (goAgain s c false .resume commitWait)

/-- TABLET_RACK_FULL: an RST has waited 100 µs for a FREE entry; it waits on (R359). The rack is that of the device's one junction,
unit 0 (R402, DEDUCED, log entry 79). -/
def rackFull (s : State) (c : Nat) (pilot : Bool) : State :=
  match waitAt s c pilot with
  | some w =>
    match w.instr with
    | .rst _ m =>
      if m.tab = true ∧ w.why = .room ∧ w.aux = 2 ∧ (freeRack s).isNone ∧ 100000 ≤ s.wall - w.w0 then
        let s1 := putRec s { berthRec s c (actBerthNo (coreOf s c)) 0x0502 with engine := 9, eid := 0, pc := (streamOf (coreOf s c) pilot).pc }
        if (coreOf s c).sup then updCore s1 c (fun k => { k with supWait := some { w with aux := 3 } })
        else updStream s1 c pilot (fun t => { t with wait := some { w with aux := 3 } })
      else s
    | _ => s
  | none => s

/- One cyc (R129): every condition is tested in every cyc, before the limit. -/

/-- The waits of a core as a cyc ends: the conditions, the pilot's first but where it comes second, and again once the execute stream
has gone on; then the limits, the counts, REALIGN, IDLE, and a wait for the tablet rack. -/
def settleCore (s : State) (c : Nat) : State :=
  if (coreOf s c).act.isNone || geared s c then s
  else
    let s0 := goAgain s c true .resume (fun w => byCondition w && turnKind w.instr == 0)
    let s1 := goAgain (goAgain s0 c false .resume byCondition) c true .resume byCondition
    let s2 := [true, false].foldl (fun t pilot => goAgain t c pilot .timeout (fun w => decide (w.why = .timed))) s1
    let s3 := [true, false].foldl (fun t pilot => releaseRealign c pilot (goAgain t c pilot .resume countWait)) s2
    [true, false].foldl (fun t pilot => rackFull t c pilot) (goAgain s3 c false .resume (fun w => decide (w.why = .idle)))

/-- A cyc ends: the waits of each core, and the limits of its matrix engine. -/
def settle (s : State) : State := s.cores.foldl (fun t e => matLimits (settleCore t e.1) e.1) s

/-- As a cyc begins, the pilots that wait at issue go first (R83), but where they come second (R131, R165). -/
def wakePilots (s : State) : State :=
  s.cores.foldl (fun t e => goMove t e.1 true .resume (fun w => byCondition w && !hasIssued w)) s

/-- One cyc of the running clocks passes. -/
def passCyc (s : State) : State := wakePilots (tick (settle s))

end Sys2Proof.Machine
end

