-- ==== Sys2Proof/Machine/Landing.lean ====
section
/-! DEFINITION. Steps of the memories: posted stores and atomics at their homes (R186, R310, R313), replays and invalidations
at the translation stations (R177 to R179), and the phases of hardware barriers (R297, R298). -/

namespace Sys2Proof.Machine

/- Posted stores (R186, R284). -/

/-- A posted operation must follow an earlier one of its stream: to the same granules, or any before a releasing one. -/
def mustFollow (s : State) (p q : Posted) : Bool :=
  q.core == p.core && q.pilot == p.pilot
    && (p.rel || p.fill || p.atom.isSome || (postedPieces s p).any (fun x => (postedPieces s q).any (fun y =>
      rangesMeet (granFrom x.1) (granTo x.1 x.2.length - granFrom x.1) (granFrom y.1) (granTo y.1 y.2.length - granFrom y.1))))

/-- Posted operation k may be performed. -/
def mayLand (s : State) (k : Nat) (p : Posted) : Bool := !(s.posted.take k).any (mustFollow s p)

/-- A posted store is performed; an SPX store that its target refuses is discarded, and the task that issued it is told (R166). -/
def landStore (s : State) (p : Posted) : State :=
  match p.spx with
  | none =>
    let s1 := landPieces s p.core p.berth p.pieces
    if p.fill then (granules (p.pieces.map (fun x => (x.1, x.2.length)))).foldl (fun t g => feSet t g true) s1 else s1
  | some a =>
    match p.pieces with
    | [(_, bs)] =>
      match spxTarget s p.gid a bs.length with
      | .ok (c, b, ofs) =>
        let h := spAddr c ((berthAt (coreOf s c) b).spB * 2048 + ofs)
        let s1 := landBytes s p.core p.berth h bs
        if p.fill then (granules [(h, bs.length)]).foldl (fun t g => feSet t g true) s1 else s1
      | .error r =>
        raiseAsync s p.gid p.task p.ord { code := 0x0209, addr := a, pc := p.pc, detail := leBytes 8 r, engine := bitNat p.pilot,
                                          eid := p.core, space := 3 }
    | _ => s

/-- STORE_LANDING (R186, R284). -/
def execStoreLanding (k : Nat) (s : State) : Host.Outcome State Fault Refusal :=
  .next (match s.posted[k]? with
    | none => s
    | some p =>
      if p.atom.isSome || !mayLand s k p then s
      else retestAll (landStore { s with posted := dropAt s.posted k } p))

/- Posted atomics (R310, R313, R293, R327). -/

/-- A float atomic to an ORDRED region is held there until its barrier completes (R293). -/
def holdAtomic (s : State) (p : Posted) (a : Atom) (r : Nat) : State :=
  let k := berthAt (coreOf s p.core) p.berth
  let l := (graphOf s p.gid).ilock.getD r {}
  let phase := match shapeOf l.shape with | some h => hGet k.hbar h + 1 | none => 0
  updGraph s p.gid (fun g => { g with ordreds := g.ordreds ++
    [{ region := r, pieces := p.pieces.map (fun x => (x.1, x.2.length)), atom := a, lcore := k.lcore.toNat, shape := l.shape, phase := phase }] })

/-- ATOMIC_PERFORM (R313): a posted atomic is performed at its place. -/
def execAtomicPerform (k : Nat) (s : State) : Host.Outcome State Fault Refusal :=
  .next (match s.posted[k]? with
    | none => s
    | some p =>
      match p.atom with
      | none => s
      | some a =>
        if !mayLand s k p || (p.region && atomHeldBack s p.gid p.core) then s
        else
          let s1 := { s with posted := dropAt s.posted k }
          match p.ordred with
          | some r => holdAtomic s1 p a r
          | none => (atomHere s1 p.core p.berth a p.near (p.pieces.map (fun x => (x.1, x.2.length)))).2)

/-- PREDICTOR_QUIET (R313): no ownership was lost for 16 µs. -/
def execPredictorQuiet (c line : Nat) (s : State) : Host.Outcome State Fault Refusal :=
  if 1024 ≤ c then .fault (.noSuchUnit c)
  else .next (updCore s c (fun k => { k with pred := k.pred.map (fun p =>
    if p.line = line ∧ p.losses.all (fun w => decide (w + 16000 ≤ s.wall)) then { p with contested := false } else p) }))

/- Replays (R177 to R180). -/

/-- The wait of a stream that was stalled, as it stands once the stall ends: its limit starts afresh, as none ran (R180). -/
def replayWait (s : State) (c : Nat) (w : Wait) : Wait := { w with c0 := cycOf s c, w0 := edgeOf s c }

/-- A stalled stream is retried; in a pair that is gear-stopped it goes on once the clock runs (R126, R180). -/
def replayStream (s : State) (c : Nat) (pilot : Bool) (w : Wait) : State :=
  let put := fun (x : Wait) => if (coreOf s c).sup then updCore s c (fun k => { k with supWait := some x })
    else updStream s c pilot (fun t => { t with wait := some x })
  if geared s c then put { replayWait s c w with why := .room, aux := 1 }
  else rerun (put (replayWait s c w)) c pilot .resume (replayWait s c w)

/-- The wait of the stream that runs at a core: that of the supervisor routine, or its own. -/
def waitOf (s : State) (c : Nat) (pilot : Bool) : Option Wait :=
  if (coreOf s c).sup then (if pilot then none else (coreOf s c).supWait) else (streamOf (coreOf s c) pilot).wait

/-- A parked request is retried (R179). A packet's access that goes on lets those behind it go on (R349). -/
def retryOne (s : State) (r : ParkedReq) : State :=
  match r.who with
  | .stream c pilot =>
    match waitOf s c pilot with
    | some w => if w.why = .replay then replayStream s c pilot w else s
    | none => s
  | .fetch c pilot => if (coreOf s c).act.isSome then askLine s c pilot r.pasid (actLine s c pilot) else s
  | .copy id => unparkCopy s id
  | .remote src p => tellDone (sweepAll (doAccess s src p)) src
where
  /-- The line that a stream's fetch stands at: that of its PC, or the next one. -/
  actLine (s : State) (c : Nat) (pilot : Bool) : Nat :=
    let t := streamOf (coreOf s c) pilot
    let n := t.pc.toNat / 64
    if (bufLine t r.pasid n).isSome then n + 1 else n

/-- Replay-all at a station (R179). -/
def replayAt (s : State) (st : Nat) : State :=
  let k := stationOf s st
  k.parked.foldl retryOne (setStation s st { k with faults := [], dropped := false, parked := [] })

/-- GO (R179). -/
def execGo (st : Nat) (s : State) : Host.Outcome State Fault Refusal :=
  if 16 ≤ st then .fault (.noSuchUnit st) else .next (replayAt s st)

/-- ALL (R179): with GO, at all 16 stations. -/
def execAll (s : State) : Host.Outcome State Fault Refusal := .next ((List.range 16).foldl replayAt s)

/-- IGO (R179): an invalidation of what IPASID, IVA and ICNT name starts at all stations. -/
def execIgo (st : Nat) (s : State) : Host.Outcome State Fault Refusal :=
  if 16 ≤ st then .fault (.noSuchUnit st) else .next (setStation s st { stationOf s st with ibusy := true })

/-- A cached translation is named by an invalidation (R178). -/
def named (k : Station) (t : Tlb) : Bool :=
  let n := leafPages t.level
  decide (t.pasid = k.ipasid) && (decide (k.icnt = 0)
    || rangesMeet (t.vpage / n * n) n (fieldAt k.iva.toNat 12 36) k.icnt.toNat)

/-- INVALIDATION_DONE (R179). -/
def execInvalidationDone (s : State) : Host.Outcome State Fault Refusal :=
  let busy := (s.stations.map (·.2)).filter (·.ibusy)
  .next { s with stations := s.stations.map (fun p =>
    (p.1, { p.2 with ibusy := false, tlb := p.2.tlb.filter (fun t => !busy.any (fun k => named k t)) })) }

/- Hardware barriers (R297, R298). -/

/-- The logical cores of a barrier group that lie in the grid (R297). -/
def barGroup (g : Graph) (h : Shape) (lc : Nat) : List Nat :=
  let w := g.gridw
  (List.range (g.gridw * g.gridh)).filter (fun l =>
    decide (blockOf w l = blockOf w lc) && (match h with
      | .row => decide (l / w = lc / w)
      | .col => decide (l % w = lc % w)
      | .quad => true
      | .rowcol => decide (l / w = lc / w ∨ l % w = lc % w)))

/-- The arrival count of a logical core (R298): of the task bound there, or saved. -/
def arrivals (s : State) (g : Graph) (h : Shape) (l : Nat) : BitVec 32 :=
  let at_ := (berthsOf s g.gid).find? (fun p =>
    let k := berthAt (coreOf s p.1) p.2
    decide (k.lcore.toNat = l ∧ k.ordered = false ∧ (k.state = .live ∨ k.state = .stopping)))
  match at_ with
  | some p => hGet (berthAt (coreOf s p.1) p.2).hbar h
  | none =>
    match g.tasks.find? (fun t => decide (t.lcore = l ∧ (t.st = .saved ∨ (t.st = .bound ∧ t.slot.isSome)))) with
    | some t => hGet t.hbar h
    | none => 0

/-- A logical core counts as arrived at a phase (R297): its tile tasks have all ended, or its count has reached it. -/
def hasReached (s : State) (g : Graph) (h : Shape) (n : BitVec 32) (l : Nat) : Bool :=
  (tilesOf g).all (fun p => decide (p.2.lcore ≠ l ∨ p.2.st = .finished ∨ p.2.st = .failed)) || phaseGe (arrivals s g h l) n

/-- Held updates in the order of R293: by the issuer's logical index, then as they came. -/
def putByCore : List HeldAtomic → HeldAtomic → List HeldAtomic
  | [], x => [x]
  | y :: t, x => if x.lcore < y.lcore then x :: y :: t else y :: putByCore t x

/-- The updates held for a phase of a barrier group are applied (R293). -/
def applyHeld (s : State) (c : Nat) (b : BitVec 2) (gid : Nat) (h : Shape) (n : BitVec 32) (group : List Nat) : State :=
  let due (x : HeldAtomic) : Bool := decide (x.shape = shapeCode h) && phaseGe n x.phase && group.contains x.lcore
  let l := ((graphOf s gid).ordreds.filter due).foldl putByCore []
  l.foldl (fun t x => (performAtom t c b x.atom x.pieces).2)
    (updGraph s gid (fun g => { g with ordreds := g.ordreds.filter (fun x => !due x) }))

/-- The sections of the regions that a shape governs advance (R291). -/
def nextSections (g : Graph) (h : Shape) (k : Berth) : Berth :=
  { k with sects := (List.range g.ilock.length).foldl (fun m i =>
      match g.ilock[i]? with
      | some l => if l.mode = 1 ∧ l.gov = 1 ∧ l.shape = shapeCode h then amSet m i (amGet 0 m i + 1) else m
      | none => m) k.sects }

/-- The next phase of a shape is complete for a berth (R298): every member of its group has arrived. -/
def phaseDone (s : State) (g : Graph) (h : Shape) (c : Nat) (b : BitVec 2) : Bool :=
  let k := berthAt (coreOf s c) b
  let n := hGet k.hdone h + 1
  (k.state == .live || k.state == .stopping) && !k.ordered && decide (k.gid = g.gid) && phaseGe (hGet k.hbar h) n
    && (barGroup g h k.lcore.toNat).all (hasReached s g h n)

/-- A completed phase reaches a berth: held updates are applied, and the sections of the regions it governs advance (R291, R293). -/
def phaseAt (g : Graph) (h : Shape) (s : State) (p : Nat × BitVec 2) : State :=
  let k := berthAt (coreOf s p.1) p.2
  let n := hGet k.hdone h + 1
  updBerth (applyHeld s p.1 p.2 k.gid h n (barGroup g h k.lcore.toNat)) p.1 p.2 (fun x => nextSections g h { x with hdone := hSet x.hdone h n })

/-- HBAR_PHASE_COMPLETE (R298): the next phase of a shape completes at a core, and in the same step at every berth of its graph in
whose group the wires show it complete. -/
def execHbarPhaseComplete (c : Nat) (b : BitVec 2) (h : Shape) (s : State) : Host.Outcome State Fault Refusal :=
  if 1024 ≤ c then .fault (.noSuchUnit c)
  else
    .next (match findGraph s (berthAt (coreOf s c) b).gid with
      | none => s
      | some g =>
        if geared s c || !phaseDone s g h c b then s
        else ((berthsOf s g.gid).filter (fun p => phaseDone s g h p.1 p.2)).eraseDups.foldl (phaseAt g h) s)

end Sys2Proof.Machine
end

