-- ==== Sys2Proof/Machine/Commits.lean ====
section
/-! DEFINITION. The signal box between instructions (R325 to R332): held messages, old and overflowed regions, and ordered
tasks. -/

namespace Sys2Proof.Machine

/-- HELD_MESSAGE_SEND (R325): the first message that waits at a core finds a slot. -/
def execHeldMessageSend (c : Nat) (s : State) : Host.Outcome State Fault Refusal :=
  if 1024 ≤ c then .fault (.noSuchUnit c)
  else
    .next (match (coreOf s c).handoff with
      | [] => s
      | m :: t => if hasSlot s m then departMsg (updCore s c (fun k => { k with handoff := t })) m else s)

/-- REGION_TIMEOUT (R326): a region that has run 65,536 cyc is compared, and aborts if a byte has changed. -/
def execRegionTimeout (c : Nat) (s : State) : Host.Outcome State Fault Refusal :=
  if 1024 ≤ c then .fault (.noSuchUnit c)
  else
    let k := coreOf s c
    .next (match k.region with
      | none => s
      | some r =>
        if r.irrevocable || r.overflow || r.commit || k.sup || geared s c || decide (cycOf s c - r.startCyc < 65536) || readsHold s r then s
        else if r.implicit then abortRun s (actBerth k).gid (actBerth k).task
        else if r.aborting.isSome then s
        else tryAbort (abandonWait s c false) c r { cause := 1 })

/-- The execute stream of a region that overflowed waits for room in the queue that its OPD names (R75, R327). -/
def restartWait (s : State) (c : Nat) (r : Region) : State :=
  match r.opd with
  | .q n => updStream s c false (fun t => { t with wait := t.wait.map (fun w => { w with why := .queue n }) })
  | _ => s

/-- IRREVOCABLE_RESTART (R327): a region that overflowed gains the commit point and runs again from after its AREG. While the queue
of its OPD is full it waits. -/
def execIrrevocableRestart (c : Nat) (s : State) : Host.Outcome State Fault Refusal :=
  if 1024 ≤ c then .fault (.noSuchUnit c)
  else
    let k := coreOf s c
    .next (match k.region with
      | none => s
      | some r =>
        if r.overflow = false ∨ r.aborting.isSome ∨ k.sup ∨ (graphOf s r.gid).commitPt.isSome ∨ geared s c then s
        else
          match putOpd (restoreCp k r) r.opd 7 with
          | none => restartWait s c r
          | some k1 =>
            let ex := { k1.ex with pc := r.restart, wait := none, buf := [] }
            let r1 := { r with overflow := false, irrevocable := true }
            updGraph (setCore s c { k1 with ex := ex, region := some r1 }) r.gid (fun g => { g with commitPt := some c }))

/- Ordered tasks (R328 to R332). -/

/-- A tile task that has last spawned below a timestamp holds the front (R330). -/
def frontHeld (s : State) (g : Graph) (ts : Nat) : Bool :=
  let low (x : Option Nat) : Bool := match x with | some y => decide (y < ts) | none => false
  (berthsOf s g.gid).any (fun p => let k := berthAt (coreOf s p.1) p.2; !k.ordered && low k.lastSpawn)
    || g.tasks.any (fun t => decide (t.st = .saved) && low t.lastSpawn)

/-- An ordered task may start (R329, R332). -/
def mayStartOrd (s : State) (g : Graph) (i : Nat) (o : OTask) : Bool :=
  g.active && !g.failing && !g.complete && decide (o.st = .accepted) && (decide (0 < o.runs) || decide (ordStarted g < g.ocap))
    && (!o.irrev || (decide (commitFront g = some i) && !frontHeld s g o.ts && g.commitPt.isNone))

/-- The ordered task that is bound next: the lowest key among those that may start (R329). -/
def nextOrd (s : State) (g : Graph) : Option Nat :=
  (List.range g.ords.length).foldl (fun best i =>
    match g.ords[i]? with
    | some o =>
      if mayStartOrd s g i o then
        match best with
        | none => some i
        | some j => (match g.ords[j]? with | some p => if keyBelow o p i j then some i else best | none => some i)
      else best
    | none => best) none

/-- The bind record of an ordered task (R49, R329). -/
def ordBerthRec (s : State) (g : Graph) (i : Nat) (t : Task) (c : Nat) (x y : Nat) : Berth :=
  { gid := g.gid, task := i, lcore := 0xFFFF, state := .live, prio := g.prio, det := g.det, pre := g.pre, coll := g.coll,
    regB := x, regN := regKiB t.regreq, spB := y, spN := spRows t.spreq, tdesc := t.tdesc, pasid := g.pasid,
    ownV := BitVec.ofNat 7 (clusterNo c), ordered := true, seed := BitVec.ofNat 64 ((i + 1) * 0x9E3779B97F4A7C15), bindWall := s.wall,
    actWall := some s.wall }

/-- The activation of an ordered task begins (R112, R329): START carries the spawn payload, and s2 names the spawner. -/
def startOrd (s : State) (g : Graph) (i : Nat) (o : OTask) (c : Nat) (b : BitVec 2) : State :=
  let m := startMsg s.wall g.gid 0xFFFF g.det o.payload
  let k := berthAt (coreOf s c) b
  let x := startCore s c b 0 m (k.handlers.getD 0 0) 0 (BitVec.ofNat 64 o.runs)
  let bySpawner (t : Stream) : Stream := { t with s := sSet t.s 2 (o.spawner.setWidth 64) }
  let r : Region := { implicit := true, gid := g.gid, irrevocable := o.irrev, startCyc := cycOf s c }
  let s1 := setCore s c { x with ex := bySpawner x.ex, pi := bySpawner x.pi, region := some r }
  updGraph (sampleStart s1 c b m) g.gid (fun h =>
    { setOrd h i (fun q => { q with st := .running, core := c }) with commitPt := if o.irrev then some c else h.commitPt })

/-- ORDERED_TASK_START (R329, R332): the task is bound on a free berth that has room, and its activation starts. -/
def execOrderedTaskStart (gid spawn c : Nat) (b : BitVec 2) (s : State) : Host.Outcome State Fault Refusal :=
  if 1024 ≤ c then .fault (.noSuchUnit c)
  else
    .next (match findGraph s gid with
      | none => s
      | some g =>
        if nextOrd s g ≠ some spawn ∨ (coreOf s c).act.isSome ∨ geared s c ∨ berthHeld s c b then s
        else
          match g.ords[spawn]?, g.tasks[g.otask]? with
          | some o, some t =>
            match roomAt s c (regKiB t.regreq) (spRows t.spreq), readTask s g.pasid t.tdesc.toNat with
            | some (_, x, y), some d =>
              let s1 := updBerth s c b (fun _ => loadTables (ordBerthRec s g spawn t c x y) d)
              let k := berthAt (coreOf s1 c) b
              reslice (startOrd (zeroRegs (initRegions s1 c k) c k) g spawn o c b) c
            | _, _ => s
          | _, _ => s)

/-- ORDERED_TASK_COMMIT (R330, R331): the commit front is validated, and committed or aborted, once its stores outside the region are
performed (R317). -/
def execOrderedTaskCommit (gid : Nat) (s : State) : Host.Outcome State Fault Refusal :=
  .next (match findGraph s gid with
    | none => s
    | some g =>
      match commitFront g with
      | none => s
      | some i =>
        match g.ords[i]? with
        | none => s
        | some o =>
          match o.region with
          | none => s
          | some r =>
            if o.st ≠ .awaiting ∨ frontHeld s g o.ts ∨ g.commitPt.isSome ∨ s.posted.any (fun p => p.ord && p.gid == gid && p.task == i) then s
            else
              let k : Berth := { gid := gid, task := i, lcore := 0xFFFF, pasid := g.pasid, ordered := true }
              match validate s o.core k r with
              | .ok stores =>
                updGraph (writeRegion s o.core 0 k stores r.held) gid (fun h =>
                  setOrd h i (fun q => { q with st := .committed, region := none }))
              | .error _ => abortRun s gid i)

end Sys2Proof.Machine
end

