-- ==== Sys2Proof/Machine/Links.lean ====
section
/-! DEFINITION. Links, junctions and delivery contexts (R342 to R351), steps of the tablets and the siding (R356, R359 to
R362), and the host's memory accesses (R371). -/

namespace Sys2Proof.Machine

/-- The device answers on the fabric: it is in operation (R408, R424). -/
def fabricUp (s : State) : Bool := decide (s.fw.phase = 5)

/-- A step of the fabric that a device takes unless it resets (R408). -/
def whenUp (s : State) (f : State → State) : Host.Outcome State Fault Refusal := .next (if fabricUp s then f s else s)

/- Links (R343 to R346). -/

/-- LANE_FAILURE (R345): a number of lanes works on. A width change that is planned does not exceed them. -/
def execLaneFailure (p lanes : Nat) (s : State) : Host.Outcome State Fault Refusal :=
  if 32 ≤ p then .fault (.noSuchUnit p)
  else
    let k := portOf s p
    .next (if k.up = false ∨ k.lanes ≤ lanes then s
      else if lanes = 0 then
        deviceRec (setPort s p { k with lanes := 0, up := false, width := 0, retrain := true, partway := none, planned := none }) 0x0505 9 p (leBytes 1 2)
      else
        let w := usableLanes lanes k.maxw
        let plan := k.planned.map (min · w)
        if k.width ≤ w then setPort s p { k with lanes := lanes, planned := plan }
        else
          deviceRec (setPort s p { k with lanes := lanes, width := w, retrain := true, losses := min 65535 (k.losses + 1), planned := plan })
            0x0505 9 p (leBytes 1 1))

/-- LINK_RETRAINED (R345): a packet that was not received whole is sent again from its first flit. -/
def execLinkRetrained (p : Nat) (s : State) : Host.Outcome State Fault Refusal :=
  if 32 ≤ p then .fault (.noSuchUnit p)
  else
    let k := portOf s p
    .next (if k.retrain ∧ k.up then setPort s p { k with retrain := false } else s)

/-- A packet is transmitted again (R349). -/
def resend (s : State) (dev : Nat) (e : SentPkt) : State :=
  match findOut s dev with
  | none => s
  | some c =>
    launchPkt (putOut s { c with unacked := c.unacked.map (fun x =>
      if x.pkt.seq = e.pkt.seq then { x with wall := s.wall, tries := x.tries + 1, port := none } else x) }) e.pkt

/-- LINK_DOWN (R345, R349): the retraining has failed. What was on the link is lost, what waited for it takes another
route, and what it last transmitted and has not been acknowledged is transmitted again. -/
def execLinkDown (p : Nat) (s : State) : Host.Outcome State Fault Refusal :=
  if 32 ≤ p then .fault (.noSuchUnit p)
  else
    let k := portOf s p
    .next (if k.retrain = false then s
      else
        let s1 := setPort s p { k with up := false, width := 0, retrain := false, partway := none, planned := none, queue := [] }
        let s2 := if k.up then deviceRec s1 0x0505 9 p (leBytes 1 2) else s1
        let s3 := k.queue.foldl launchPkt s2
        s.fabric.out.foldl (fun t c =>
          (c.unacked.filter (fun e => e.port == some p)).foldl (fun u e => resend u c.dst e) t) s3)

/-- FLIT_CHECK_FAIL (R344): the packet part-way is replayed from its first flit; it stays part-way. -/
def execFlitCheckFail (p : Nat) (s : State) : Host.Outcome State Fault Refusal :=
  if 32 ≤ p then .fault (.noSuchUnit p) else .next s

/-- MAXW (R343, R346): a write below the current width starts a planned change. -/
def execMaxw (p : Nat) (v : BitVec 2) (s : State) : Host.Outcome State Fault Refusal :=
  if 32 ≤ p then .fault (.noSuchUnit p)
  else
    let k := portOf s p
    let planned := if k.up ∧ usableLanes k.lanes v.toNat < k.width then some (usableLanes k.lanes v.toNat) else k.planned
    .next (setPort s p { k with maxw := v.toNat, planned := planned })

/-- The width of a planned change: that of a write to MAXW, or else one of the Substation's own choice, a free value; never above the
working lanes (R345, R346). -/
def plannedWidth (s : State) (k : Port) : Nat := min (usableLanes k.lanes k.maxw) (k.planned.getD (2 ^ (Config.freeNat s.fresh % 3)))

/-- PLANNED_WIDTH_CHANGE (R346): of a write to MAXW, or of the Substation, once no packet is part-way. -/
def execPlannedWidthChange (p : Nat) (s : State) : Host.Outcome State Fault Refusal :=
  if 32 ≤ p then .fault (.noSuchUnit p)
  else
    let k := portOf s p
    .next (if k.up ∧ k.retrain = false ∧ k.partway = none then
        setPort { s with fresh := s.fresh + 1 } p { k with width := plannedWidth s k, planned := none }
      else s)

/- Packets (R347, R349). -/

/-- A packet from elsewhere goes on its way, at most 4 hops in all, unless it is stale (R347). -/
def routeOn (s : State) (k : Pkt) : State :=
  if stalePkt s k ∨ 3 ≤ k.hops then s else launchPkt s { k with hops := k.hops + 1 }

/-- A packet leaves by a port: one of this device's own is stamped (R347). -/
def leavePort (s : State) (p : Nat) (k : Port) (q : Pkt) (rest : List Pkt) : State :=
  if q.src = selfId s then
    let q1 := { q with stamp := s.wall }
    let s1 := setPort s p { k with queue := rest, partway := some q1 }
    match findOut s q.dst with
    | none => s1
    | some c => putOut s1 { c with unacked := c.unacked.map (fun e =>
        if e.pkt = q then { e with pkt := q1, wall := s.wall, port := some p } else e) }
  else if stalePkt s q then setPort s p { k with queue := rest }
  else setPort s p { k with queue := rest, partway := some q }

/-- PACKET_FORWARD (R347): the packet part-way has crossed the link, which it does not while that retrains (R345); the head of the
queue leaves; or a packet that has arrived for another device is routed. -/
def execPacketForward (p : Nat) (q : Pkt) (s : State) : Host.Outcome State Fault Refusal :=
  if 32 ≤ p then .fault (.noSuchUnit p)
  else
    let k := portOf s p
    .next (if k.partway = some q then
        if k.retrain then s
        else
          updFab (setPort s p { k with partway := none }) (fun f => { f with sent := q :: f.sent })
      else
        match k.queue with
        | x :: rest =>
          if x = q then (if k.up ∧ k.retrain = false ∧ k.partway = none then leavePort s p k q rest else s)
          else if q.dst = selfId s then s else routeOn s q
        | [] => if q.dst = selfId s then s else routeOn s q)

/-- PACKET_RECEIVE (R347, R349, R352). A device that resets takes in nothing (R408). -/
def execPacketReceive (q : Pkt) (s : State) : Host.Outcome State Fault Refusal :=
  .next (if q.src = selfId s ∧ q.dst = selfId s then
      (if s.fabric.loop.head? = some q then arriveLoop s else s)
    else if stalePkt s q ∨ inGrid s q.src = false then s
    else if q.dst ≠ selfId s then routeOn s q
    else if fabricUp s then arrivePkt s q
    else s)

/-- ACK_RECEIVE (R349, R359): everything up to a sequence number has been acknowledged and performed. -/
def execAckReceive (dev : Nat) (seq : BitVec 24) (s : State) : Host.Outcome State Fault Refusal := whenUp s (fun t => ackUpTo t dev seq [])

/-- A packet still waits in this device to leave. -/
def inQueues (s : State) (k : Pkt) : Bool :=
  s.fabric.ports.any (fun p => p.2.queue.any (fun x => decide (x.dst = k.dst ∧ x.src = k.src ∧ x.seq = k.seq))
    || (match p.2.partway with | some x => decide (x.dst = k.dst ∧ x.src = k.src ∧ x.seq = k.seq) | none => false))

/-- RETRANSMIT_TIMER (R349): 2 µs after the last transmission, doubled with each retry, up to 64 µs. -/
def execRetransmitTimer (dev : Nat) (seq : BitVec 24) (s : State) : Host.Outcome State Fault Refusal :=
  .next (match (findOut s dev).bind (fun c => c.unacked.find? (fun e => e.pkt.seq == seq)) with
    | none => s
    | some e => if min 64000 (2000 * 2 ^ min e.tries 5) ≤ s.wall - e.wall ∧ inQueues s e.pkt = false then resend s dev e else s)

/-- The operation of a remote access to a device that has not ended: its packet was not acknowledged, or its reply or report
is awaited, or it is a store that was taken in and of which no acknowledgement has told yet that it was performed (R351, R359;
DEDUCED, log entry 72). -/
def openRop (dev : Nat) (r : ROp) : Bool :=
  r.dev == dev && !r.done && !(r.acked && r.perf && !r.held && (r.kind == .store || r.kind == .chunk))

/-- A store to a device was taken in there and not performed, as far as this device knows. -/
def unsettled (s : State) (dev : Nat) : Bool := s.fabric.rops.any (fun r => openRop dev r && r.acked && (r.kind == .store || r.kind == .chunk))

/-- CONTEXT_CLOSE (R349). While a store that was taken in at the device is not known to be performed, the close goes out anew after
each 4 µs without traffic: its acknowledgement brings the news, or its absence shows that the device is lost (R351; DEDUCED, log entry
72). -/
def execContextClose (dev : Nat) (s : State) : Host.Outcome State Fault Refusal :=
  .next (match findOut s dev with
    | none => s
    | some c =>
      if c.unacked = [] ∧ (c.closed = none ∨ unsettled s dev = true) ∧ 4000 ≤ s.wall - c.traffic then
        let s1 := sendPkt s dev .close
        putOut s1 { openOut s1 dev with closed := some s.wall }
      else s)

/-- LAST_SEQUENCE_EXPIRY (R349). Accesses of the context that were taken in and still wait are kept (R361). -/
def execLastSequenceExpiry (dev : Nat) (s : State) : Host.Outcome State Fault Refusal :=
  .next (match findIn s dev with
    | some c =>
      (match c.closed with
       | some w =>
         if 100000 ≤ s.wall - w then
           let kept : List RCtx := if c.behind.isEmpty then [] else [{ src := dev, born := c.born, behind := c.behind }]
           updFab s (fun f => { f with inn := kept ++ f.inn.filter (fun x => x.src != dev) })
         else s
       | none => s)
    | none => s)

/-- REMOTE_OUTCOME_UNKNOWN (R351). -/
def execRemoteOutcomeUnknown (dev : Nat) (s : State) : Host.Outcome State Fault Refusal :=
  .next (match findOut s dev with
    | none => s
    | some c =>
      if c.unacked.isEmpty = false ∧ s.fabric.reachto.toNat ≤ s.wall - c.ackWall then
        let s1 := updFab (putOut s { c with unacked := [] }) (fun f =>
          { f with unreach := if f.unreach.contains dev then f.unreach else dev :: f.unreach })
        (s1.fabric.rops.filter (openRop dev)).foldl (fun t r => failRop t r 0x0504) s1
      else s)

/-- REACHABILITY_PROBE (R351): the device answers; a new context to it begins, and the CLEARs it has not acknowledged go to it. What
this device knows of the context from it stays, so nothing is performed twice (R350). -/
def execReachabilityProbe (dev : Nat) (s : State) : Host.Outcome State Fault Refusal :=
  .next (if s.fabric.unreach.contains dev then
    let s1 := updFab s (fun f => { f with unreach := f.unreach.filter (· != dev), out := f.out.filter (fun c => c.dst != dev) })
    (s1.fabric.rack.filter (fun p => decide (p.2.st = .landed) && p.2.acks.contains dev)).foldl
      (fun t p => sendPkt t dev (.clear (tabletOf t p.1))) s1
  else s)

/-- REMOTE_REPLY (R355, R374). -/
def execRemoteReply (op : Nat) (r : Reply) (s : State) : Host.Outcome State Fault Refusal := whenUp s (fun t => replyRop t op r)

/-- RETRY_LIST_TIMEOUT (R356). -/
def execRetryListTimeout (st k : Nat) (s : State) : Host.Outcome State Fault Refusal :=
  if 16 ≤ st then .fault (.noSuchUnit st)
  else
    let l := amGet [] s.fabric.retry st
    .next (match l[k]? with
      | none => s
      | some e =>
        match pktAcc e.pkt.body with
        | some x =>
          if s.fw.rllim ≤ s.wall - e.arr then
            answerAccess (updFab s (fun f => { f with retry := amSet f.retry st (dropAt l k) })) e.src x e.pkt (.trap 0x0506)
          else s
        | none => s)

/-- CANCEL (R356). -/
def execCancel (src op : Nat) (s : State) : Host.Outcome State Fault Refusal := whenUp s (fun t => cancelAccess t src op)

/- Tablets (R359 to R362). -/

/-- HOLD (R360): a device asks that another one, to which it will send a store that carries the tablet, is made a holder. The operand
holds both device numbers, which have 8 bits each (R342): the asking one below, the one to record above. -/
def execHold (src : Nat) (tab : BitVec 32) (s : State) : Host.Outcome State Fault Refusal :=
  whenUp s (fun t => let r := recordHolder t (src / 256) tab; sendPkt r.2 (src % 256) (.holdAns tab (src / 256) r.1))

/-- CLEAR (R361). -/
def execClear (tab : BitVec 32) (s : State) : Host.Outcome State Fault Refusal :=
  whenUp s (fun t => sendPkt (settleTab t tab true) (tabDev tab) (.clearAck tab))

/-- CLEAR_ACK (R359). -/
def execClearAck (src idx : Nat) (s : State) : Host.Outcome State Fault Refusal :=
  if 4096 ≤ idx then .fault (.noSuchUnit idx) else whenUp s (fun t => clearAcked t src idx)

/-- DROP (R362). -/
def execDrop (tab : BitVec 32) (s : State) : Host.Outcome State Fault Refusal := whenUp s (fun t => settleTab t tab false)

/-- QUERY (R361): answered CLEAR, DROP, or that the tablet is pending. -/
def execQuery (src : Nat) (tab : BitVec 32) (s : State) : Host.Outcome State Fault Refusal :=
  whenUp s (fun t => sendPkt t src (.queryAns tab (rackStatus t tab)))

/-- The stores held at this device for their tablets: those of the siding, and those that were acknowledged and wait for room in it
(R361). One whose tablets are all cleared waits for its turn alone, and no limit ends that (R362). -/
def heldStores (s : State) : List Held :=
  (s.fabric.siding ++ s.fabric.inn.flatMap (fun c => c.behind.filter (fun h => !(pktTabs h.pkt.body).isEmpty))).filter
    (fun h => carryOf s h.pkt != .perform)

/-- A held store taken out of the siding and of those that wait. -/
def dropHeldStore (s : State) (h : Held) : State :=
  updFab s (fun f => { f with siding := f.siding.filter (· != h),
                              inn := f.inn.map (fun c => { c with behind := c.behind.filter (· != h) }) })

/-- SIDING_EXPIRY (R362, R361): a store held longer than its TABEXP is discarded. -/
def execSidingExpiry (k : Nat) (s : State) : Host.Outcome State Fault Refusal :=
  .next (match (heldStores s)[k]? with
    | none => s
    | some h =>
      if pktExp h.pkt.body < s.wall - h.arr then
        let tabs := pktTabs h.pkt.body
        let tab := (tabs.find? (fun t => tabKnown s t == 0)).getD (tabs.headD 0)
        tellDone (sweepAll (expireStore (dropHeldStore s h) h tab 1)) h.src
      else s)

/-- EXPIRED (R362). -/
def execExpired (op : Nat) (tab : BitVec 32) (holder reason : Nat) (addr : W64) (s : State) : Host.Outcome State Fault Refusal :=
  whenUp s (fun t => expiredAt t op tab holder reason addr)

/-- DEAD_ENTRY_FREE (R359): 10 ms after entering DEAD. -/
def execDeadEntryFree (idx : Nat) (s : State) : Host.Outcome State Fault Refusal :=
  if 4096 ≤ idx then .fault (.noSuchUnit idx)
  else
    let e := rackOf s idx
    .next (if e.st = .dead ∧ 10000000 ≤ s.wall - e.deadWall then setRack s idx { e with st := .free } else s)

/-- TABLET_RACK_FULL (R359). -/
def execTabletRackFull (c : Nat) (pilot : Bool) (s : State) : Host.Outcome State Fault Refusal :=
  if 1024 ≤ c then .fault (.noSuchUnit c) else .next (rackFull s c pilot)

/- The host's memory accesses (R371, R373). -/

/-- A host address range of a tier lies in its usable part. -/
def hostRange (s : State) (lpddr : Bool) (addr n : Nat) : Bool := decide (addr + n ≤ usable (if lpddr then s.lpddr else s.gddr))

/-- CXL_MEM_WRITE (R371): plain, and the full/empty bits stay. -/
def execCxlMemWrite (lpddr : Bool) (addr : Nat) (bytes : List Byte) (s : State) : Host.Outcome State Fault Refusal :=
  if hostRange s lpddr addr bytes.length = false then .fault (.noSuchUnit addr)
  else .next (landBytes s noCore 0 (tierFlat (bitNat lpddr) addr) bytes)

/-- CXL_MEM_READ (R371): uncorrectable data returns a poisoned completion. -/
def execCxlMemRead (lpddr : Bool) (addr len : Nat) (s : State) : Host.Outcome State Fault Refusal :=
  if hostRange s lpddr addr len = false then .fault (.noSuchUnit addr)
  else
    let a := tierFlat (bitNat lpddr) addr
    .next (match (granules [(a, len)]).find? (isBad s) with
      | some g => let t := uncRec s noCore 0 g; { t with hostOut := none :: t.hostOut }
      | none => { s with hostOut := some (rdBytes s.mem a len) :: s.hostOut })

end Sys2Proof.Machine
end

