-- ==== Sys2Proof/Machine/Mailbox.lean ====
section
/-! DEFINITION. Host registers written through the BARs (R42, R178, R343, R366, R370, R403, R415, R420, R422), the firmware
mailbox (R419, R420) and attestation (R426). -/

namespace Sys2Proof.Machine

/- Mailbox commands (R420). A command acts while it is the one that runs; otherwise its event finds nothing to do. -/

def updFw (s : State) (f : Fw → Fw) : State := { s with fw := f s.fw }

/-- ARG i. -/
def argOf (s : State) (i : Nat) : Nat := (s.fw.arg.getD i 0).toNat

/-- BUSY falls with a RESULT, and VECTOR is signalled if enabled. -/
def endCommand (s : State) (result : Nat) : State :=
  let s1 := updFw s (fun f => { f with busy := false, result := BitVec.ofNat 8 result })
  { s1 with msix := if s.fw.irqen then s.fw.vector.toNat :: s.msix else s.msix }

/-- RESP from a list of words; the words beyond it keep what they held. -/
def respond (s : State) (l : List W64) : State := updFw s (fun f => { f with resp := l ++ f.resp.drop l.length })

/-- The command of a code runs. -/
def runs (s : State) (op : Nat) : Bool := s.fw.busy && decide (s.fw.op.toNat = op)

/-- A command by its code: what it makes of the state, where it runs. -/
def command (op : Nat) (f : State → State) (s : State) : Host.Outcome State Fault Refusal := .next (if runs s op then f s else s)

/-- The value of a parameter. -/
def paramOf (s : State) (n : Nat) : Option Nat :=
  match n with
  | 1 => some s.fw.rackctx
  | 2 => some s.fw.tmig
  | 3 => some s.fw.s0
  | 4 => some s.fw.ubtow
  | 5 => some s.fw.rllim
  | 6 => some (s.fw.locktab.getD 0).toNat
  | 7 => some s.power.fwmax
  | _ => none

/-- The 32 KiB from an address lie in the GDDR-7 tier under PASID 0, as a translation station finds them (R420). -/
def lockRange (s : State) (v : Nat) : Bool :=
  decide (v ≠ 0 ∧ v % 4096 = 0 ∧ v + 0x8000 ≤ 2 ^ 48)
    && (List.range 8).all (fun i => match translate s dispStation 0 (v + 4096 * i) {} with
      | .ok (tier, _) => decide (tier = 0)
      | .error _ => false)

/-- A value is in the range of a parameter. -/
def paramOk (s : State) (n v : Nat) : Bool :=
  match n with
  | 1 => decide (v ≤ 15)
  | 2 => decide (85 ≤ v ∧ v ≤ 105)
  | 3 => decide (v ≤ 20)
  | 4 => decide (1000 ≤ v ∧ v ≤ 10000000)
  | 5 => decide (10000 ≤ v ∧ v ≤ 100000000)
  | 6 => lockRange s v
  | 7 => decide (600 ≤ v ∧ v ≤ 780)
  | _ => false

def setParamTo (s : State) (n v : Nat) : State :=
  match n with
  | 1 => updFw s (fun f => { f with rackctx := v })
  | 2 => updFw s (fun f => { f with tmig := v })
  | 3 => updFw s (fun f => { f with s0 := v })
  | 4 => updFw s (fun f => { f with ubtow := v })
  | 5 => updFw s (fun f => { f with rllim := v })
  | 6 => updFw s (fun f => { f with locktab := some (BitVec.ofNat 64 v) })
  | 7 => followSetpoint (updPower s (fun p => { p with fwmax := v }))
  | _ => s

/-- GETPARAM (R420). -/
def execGetparam (s : State) : Host.Outcome State Fault Refusal :=
  command 0x0001 (fun s => match paramOf s (argOf s 0) with
    | none => endCommand s 4
    | some v => endCommand (respond s [BitVec.ofNat 64 v]) 0) s

/-- SETPARAM (R420). -/
def execSetparam (s : State) : Host.Outcome State Fault Refusal :=
  command 0x0002 (fun s =>
    if (paramOf s (argOf s 0)).isNone then endCommand s 4
    else if paramOk s (argOf s 0) (argOf s 1) = false then endCommand s 2
    else endCommand (setParamTo s (argOf s 0) (argOf s 1)) 0) s

/-- The berth of a logical core that ARG0 and ARG1 name. -/
def namedBerth (s : State) : Option (Nat × BitVec 2) :=
  (berthsOf s (argOf s 0)).find? (fun p => (berthAt (coreOf s p.1) p.2).lcore.toNat == argOf s 1)

/-- A debug stop holds, or is due (R419). -/
def debugStop (k : Berth) : Bool := decide (k.stopFor = some .debug)

/-- DSTOP (R419): the berth goes to STOPPING at its next boundary. -/
def execDstop (s : State) : Host.Outcome State Fault Refusal :=
  command 0x0010 (fun s => match namedBerth s with
    | none => endCommand s 4
    | some (c, b) =>
      let k := berthAt (coreOf s c) b
      if debugStop k then endCommand s 0
      else if k.state ≠ .live ∨ k.stopFor ≠ none then endCommand s 5
      else endCommand (updBerth s c b (fun x => { x with stopFor := some .debug })) 0) s

/-- DSAVE (R419): a stopped berth whose stores are performed is written to a slot, and its accounting table as one record (R413); it
stays bound, and the bitmap is as it was. -/
def execDsave (s : State) : Host.Outcome State Fault Refusal :=
  command 0x0011 (fun s => match namedBerth s with
    | none => endCommand s 4
    | some (c, b) =>
      let k := berthAt (coreOf s c) b
      let g := graphOf s k.gid
      if k.state ≠ .stopping ∨ debugStop k = false ∨ g.pre = false then endCommand s 5
      else if 16384 ≤ argOf s 2 then endCommand s 2
      else if storesLeft s c b then s
      else match writeSlot (writeAcct s c b 2) c k g (argOf s 2) with
        | none => endCommand s 5
        | some t => endCommand t 0) s

/-- DGO (R419): the berth returns to LIVE. -/
def execDgo (s : State) : Host.Outcome State Fault Refusal :=
  command 0x0012 (fun s => match namedBerth s with
    | none => endCommand s 4
    | some (c, b) =>
      let k := berthAt (coreOf s c) b
      if debugStop k = false then endCommand s 0
      else if k.state = .stopping then endCommand (goLive s c b) 0
      else endCommand (updBerth s c b (fun x => { x with stopFor := none })) 0) s

/-- RACKALLOW (R420, R41): one entry of the launch-source filter. -/
def execRackallow (s : State) : Host.Outcome State Fault Refusal :=
  command 0x0020 (fun s =>
    if 16 ≤ argOf s 0 then endCommand s 2
    else
      let l := s.fw.allow.filter (fun e => e.1 != argOf s 0)
      endCommand (updFw s (fun f => { f with allow := if bitAt (argOf s 1) 12 then amSet l (argOf s 0) (fieldAt (argOf s 1) 0 12) else l })) 0) s

/-- RESET (R406, R407, R420): the custodian-ordered reset. -/
def execReset (s : State) : Host.Outcome State Fault Refusal := command 0x0030 (fun s => resetDevice s 8 0) s

/-- An image by its bytes. -/
def imageOf (s : State) (addr len : Nat) : Nat := leNat (rdBytes s.mem (gddrBase + addr) len ++ [1])

/-- FWLOAD (R420, R425): a staged image is verified, and installed at the next reset. A failed check gives RESULT 5, which is read
while the device runs on. -/
def execFwload (s : State) : Host.Outcome State Fault Refusal :=
  command 0x0031 (fun s =>
    if usable s.gddr < argOf s 0 + argOf s 1 then endCommand s 2
    else
      let i := imageOf s (argOf s 0) (argOf s 1)
      if Config.imageVerifies i then endCommand (updFw s (fun f => { f with staged := some (i, argOf s 1) })) 0
      else endCommand (deviceRec s 0x0901 13 0 []) 5) s

/-- MEASURE (R420, R425). -/
def execMeasure (s : State) : Host.Outcome State Fault Refusal := command 0x0032 (fun s => endCommand (respond s s.fw.meas) 0) s

/-- The commands there are, and those of the custodian. -/
def knownOps : List Nat := [0x0001, 0x0002, 0x0010, 0x0011, 0x0012, 0x0020, 0x0030, 0x0031, 0x0032]
def custodianOps : List Nat := [0x0030, 0x0031, 0x0032]

/-- GO: the command starts, or is turned away as unknown or not accepted in this phase. -/
def startCommand (s : State) : State :=
  let op := s.fw.op.toNat
  let f := s.fw
  if knownOps.contains op = false then { s with fw := { f with result := 1 } }
  else if (f.phase < 5 ∧ custodianOps.contains op = false) ∨ (f.phase = 15 ∧ op ≠ 0x0031) then { s with fw := { f with result := 3 } }
  else { s with fw := { f with busy := true, result := 0 } }

/- Attestation (R426). -/

/-- What a response of a kind holds ahead of its free part: the digest and the chain of the device's certificate, which its identity key
gives, and the firmware measurement (R425, R426). None: the request needs the identity key before it is derived. -/
def attestHead (kind : Nat) (f : Fw) : Option (List Byte) :=
  match kind with
  | 3 => f.key.map (fun k => (List.range 64).map (Config.certDigest k))
  | 4 => f.key.map (fun k => (List.range (Config.certLen k)).map (Config.certByte k))
  | 5 => f.key.map (fun _ => [])
  | 6 => f.key.map (fun _ => f.meas.flatMap (fun x => leBytes 8 x.toNat))
  | _ => some []

/-- An SPDM request of a kind: answered, or ATTESTATION is recorded where the device cannot serve it or a signature fails. The free part
of a response, with its signature by the identity key, depends on the key, the request and the draw (DESIGN CHOICE, log entry 86). -/
def attest (kind : Nat) (req : List Byte) (s : State) : State :=
  let n := leNat (leBytes 8 s.fresh ++ [BitVec.ofNat 8 kind] ++ req ++ [1]) + 2 ^ 4096 * (s.fw.key.getD 0)
  let s1 := { s with fresh := s.fresh + 1 }
  match (if Config.spdmValid n then attestHead kind s.fw else none) with
  | some h => updFw s1 (fun f => { f with spdm := (kind, h ++ (List.range (Config.spdmLen n)).map (Config.spdmByte n)) :: f.spdm })
  | none => deviceRec s1 0x0902 13 0 []

def execGetVersion (req : List Byte) (s : State) : Host.Outcome State Fault Refusal := .next (attest 0 req s)
def execGetCapabilities (req : List Byte) (s : State) : Host.Outcome State Fault Refusal := .next (attest 1 req s)
def execNegotiateAlgorithms (req : List Byte) (s : State) : Host.Outcome State Fault Refusal := .next (attest 2 req s)
def execGetDigests (req : List Byte) (s : State) : Host.Outcome State Fault Refusal := .next (attest 3 req s)
def execGetCertificate (req : List Byte) (s : State) : Host.Outcome State Fault Refusal := .next (attest 4 req s)
def execChallenge (req : List Byte) (s : State) : Host.Outcome State Fault Refusal := .next (attest 5 req s)
def execGetMeasurements (req : List Byte) (s : State) : Host.Outcome State Fault Refusal := .next (attest 6 req s)

/- Register writes (R6). A write reaches the 32-bit words of its bytes one by one, lowest first. -/

/-- The part of a write that falls in one word: value, and a one for each bit written. -/
structure RegW where
  v : BitVec 32
  m : BitVec 32
  deriving DecidableEq, Repr

/-- A read-write field after a write. -/
def RegW.rw {n : Nat} (w : RegW) (lo : Nat) (old : BitVec n) : BitVec n :=
  (old &&& ~~~(w.m.extractLsb' lo n)) ||| (w.v &&& w.m).extractLsb' lo n

/-- A read-write bit. -/
def RegW.bit (w : RegW) (i : Nat) (old : Bool) : Bool := if w.m.getLsbD i then w.v.getLsbD i else old

/-- A W1C field: the bits written 1 are cleared. -/
def RegW.clr {n : Nat} (w : RegW) (lo : Nat) (old : BitVec n) : BitVec n := old &&& ~~~((w.v &&& w.m).extractLsb' lo n)

/-- A one is written to a bit. -/
def RegW.one (w : RegW) (i : Nat) : Bool := w.m.getLsbD i && w.v.getLsbD i

/-- Half of a 64-bit register, of which only the bits of keep hold anything. -/
def RegW.half (w : RegW) (hi : Bool) (old keep : W64) : W64 :=
  (if hi then w.rw 0 (old.extractLsb' 32 32) ++ old.extractLsb' 0 32 else old.extractLsb' 32 32 ++ w.rw 0 (old.extractLsb' 0 32)) &&& keep

/-- Bits [47:12]. -/
def pageBits : W64 := 0x0000FFFFFFFFF000

/-- A byte list with one word written. -/
def RegW.bytes (w : RegW) (l : List Byte) (ofs : Nat) : List Byte :=
  l.take ofs ++ leBytes 4 (w.rw 0 (BitVec.ofNat 32 (leAt l ofs 4))).toNat ++ l.drop (ofs + 4)

/-- A ring control block (R403, R415). word: the meaning of the word at 0x0C. -/
def putRing (r : Ring) (o : Nat) (w : RegW) (word : RegW → Ring → Ring) : Ring :=
  match o with
  | 0x00 => { r with base := w.half false r.base pageBits }
  | 0x04 => { r with base := w.half true r.base pageBits }
  | 0x08 => { r with log := w.rw 0 r.log, en := w.bit 31 r.en }
  | 0x0C => word w r
  | 0x14 => { r with tail := w.rw 0 r.tail }
  | 0x18 => { r with drops := w.clr 0 r.drops }
  | _ => r

def putVec (w : RegW) (r : Ring) : Ring := { r with vector := w.rw 0 r.vector, irqen := w.bit 16 r.irqen }
def putPar (w : RegW) (r : Ring) : Ring := { r with param := w.rw 0 r.param }

/-- The mailbox (R420): OP, GO and ARG are ignored while a command runs. -/
def putMailbox (s : State) (o : Nat) (w : RegW) : State :=
  if o = 0x08 then updFw s (fun f => { f with vector := w.rw 0 f.vector, irqen := w.bit 16 f.irqen })
  else if s.fw.busy then s
  else if o = 0 then
    let s1 := updFw s (fun f => { f with op := w.rw 0 f.op })
    if w.one 31 then startCommand s1 else s1
  else if 0x40 ≤ o ∧ o < 0x140 then
    updFw s (fun f => { f with arg := f.arg.set ((o - 0x40) / 8) (w.half (decide (o % 8 = 4)) (f.arg.getD ((o - 0x40) / 8) 0) (~~~0)) })
  else s

/-- The fabric registers (R343): REACHTO takes the values of its range. -/
def putFabric (s : State) (o : Nat) (w : RegW) : State :=
  if o = 0x800 then updFab s (fun f => { f with gxm1 := w.rw 8 f.gxm1, gym1 := w.rw 12 f.gym1 })
  else if o = 0x808 then
    let v := w.rw 0 s.fabric.reachto
    if 10000 ≤ v.toNat ∧ v.toNat ≤ 10000000 then updFab s (fun f => { f with reachto := v }) else s
  else if o < 0x400 ∧ o % 0x20 = 0 then
    let k := portOf s (o / 0x20)
    setPort s (o / 0x20) { k with losses := (w.clr 16 (BitVec.ofNat 16 k.losses)).toNat }
  else s

/-- The table registers (R366). -/
def putTables (n : NetEng) (o : Nat) (w : RegW) : NetEng :=
  match o with
  | 0x00 => { n with epbase := w.half false n.epbase pageBits }
  | 0x04 => { n with epbase := w.half true n.epbase pageBits }
  | 0x08 => { n with winbase := w.half false n.winbase pageBits }
  | 0x0C => { n with winbase := w.half true n.winbase pageBits }
  | 0x10 => { n with iidx := w.rw 0 n.iidx, iwin := w.bit 12 n.iwin, iall := w.bit 13 n.iall }
  | _ => n

/-- A word of BAR0 (R370). -/
def putBar0 (s : State) (o : Nat) (w : RegW) : State :=
  if o / 0x100 = 0x10 then { s with flog := putRing s.flog (o % 0x100) w putVec }
  else if o / 0x100 = 0x11 then { s with rAcct := putRing s.rAcct (o % 0x100) w (fun _ r => r) }
  else if o / 0x100 = 0x12 then { s with rTrace := putRing s.rTrace (o % 0x100) w putPar }
  else if o / 0x100 = 0x13 then { s with rSample := putRing s.rSample (o % 0x100) w putPar }
  else if o = 0x1400 ∨ o = 0x1404 then updFw s (fun f => { f with pmbase := w.half (decide (o = 0x1404)) f.pmbase pageBits })
  else if o = 0x1408 then updFw s (fun f => { f with pmvalid := f.pmvalid && !w.one 0, pmlost := w.clr 8 f.pmlost })
  else if o / 0x1000 = 2 then putMailbox s (o % 0x1000) w
  else if o / 0x1000 = 4 then putFabric s (o % 0x1000) w
  else if o / 0x1000 = 6 then { s with net := putTables s.net (o % 0x1000) w }
  else s

/-- A word of a launch context (R42). -/
def putLaunch (k : LaunchCtx) (o : Nat) (w : RegW) : LaunchCtx :=
  if o < 0x40 then { k with stage := w.bytes k.stage o }
  else match o with
    | 0x44 => { k with fullseen := k.fullseen && !w.one 16, drop := k.drop && !w.one 17, enable := w.bit 31 k.enable }
    | 0x48 => { k with vector := w.rw 0 k.vector, irqen := w.bit 16 k.irqen }
    | 0x4C => { k with cpasid := w.rw 0 k.cpasid, anypasid := w.bit 31 k.anypasid }
    | _ => k

/-- A word of a translation station (R178). -/
def putStation (k : Station) (o : Nat) (w : RegW) : Station :=
  match o with
  | 0x00 => { k with dropped := k.dropped && !w.one 4 }
  | 0x04 => { k with vector := w.rw 0 k.vector, irqen := w.bit 16 k.irqen }
  | 0x10 => { k with ipasid := w.rw 0 k.ipasid }
  | 0x18 => { k with iva := w.half false k.iva pageBits }
  | 0x1C => { k with iva := w.half true k.iva pageBits }
  | 0x20 => { k with icnt := w.rw 0 k.icnt }
  | 0x80 => { k with ptbase := w.half false k.ptbase pageBits }
  | 0x84 => { k with ptbase := w.half true k.ptbase pageBits }
  | 0x88 => { k with ptlim := w.rw 0 k.ptlim }
  | _ => k

/-- One word of a BAR is written. -/
def putWord (s : State) (bar o : Nat) (w : RegW) : State :=
  if 0x10000 ≤ o then s
  else if bar = 0 then putBar0 s o w
  else if bar = 2 then setCtx s (o / 0x1000) (putLaunch (ctxOf s (o / 0x1000)) (o % 0x1000) w)
  else if bar = 4 then setStation s (o / 0x1000) (putStation (stationOf s (o / 0x1000)) (o % 0x1000) w)
  else s

/-- The words that a write of size bytes at an offset touches: each word's offset, value and mask. -/
def regWords (offset size : Nat) (value : W64) : List (Nat × RegW) :=
  let b := offset % 4
  let n := min size 8
  let v := value.toNat % 2 ^ (8 * n) * 2 ^ (8 * b)
  let m := (2 ^ (8 * n) - 1) * 2 ^ (8 * b)
  (List.range ((b + n + 3) / 4)).map (fun i =>
    (offset / 4 * 4 + 4 * i, { v := BitVec.ofNat 32 (v / 2 ^ (32 * i)), m := BitVec.ofNat 32 (m / 2 ^ (32 * i)) }))

/-- REGISTER_WRITE (R6): the RW and W1C fields of the registers that have no event of their own. -/
def execRegisterWrite (bar offset size : Nat) (value : W64) (s : State) : Host.Outcome State Fault Refusal :=
  if bar ≠ 0 ∧ bar ≠ 2 ∧ bar ≠ 4 then .fault (.noSuchUnit bar)
  else .next ((regWords offset size value).foldl (fun t x => putWord t bar x.1 x.2) s)

end Sys2Proof.Machine
end

