-- ==== Sys2Proof/Machine/Dispatch.lean ====
section
/-! DEFINITION. The meaning of each instruction: one arm for each row of the opcode table. -/

namespace Sys2Proof.Machine

def exec (i : Instr) (s : State) : Host.Outcome State Fault Refusal :=
  match i with
  | .udf => Sys2Proof.Machine.execUdf s
  | .nop o => Sys2Proof.Machine.execNop o s
  | .br o => Sys2Proof.Machine.execBr o s
  | .brx o => Sys2Proof.Machine.execBrx o s
  | .call o => Sys2Proof.Machine.execCall o s
  | .ret o => Sys2Proof.Machine.execRet o s
  | .brdec o => Sys2Proof.Machine.execBrdec o s
  | .steer o => Sys2Proof.Machine.execSteer o s
  | .follow o => Sys2Proof.Machine.execFollow o s
  | .retire o => Sys2Proof.Machine.execRetire o s
  | .finish o => Sys2Proof.Machine.execFinish o s
  | .realign o => Sys2Proof.Machine.execRealign o s
  | .trap o => Sys2Proof.Machine.execTrap o s
  | .pfx o m => Sys2Proof.Machine.execPfx o m s
  | .launch o => Sys2Proof.Machine.execLaunch o s
  | .waitc o => Sys2Proof.Machine.execWaitc o s
  | .waitw o => Sys2Proof.Machine.execWaitw o s
  | .rdts o => Sys2Proof.Machine.execRdts o s
  | .dlset o m => Sys2Proof.Machine.execDlset o m s
  | .dltest o m => Sys2Proof.Machine.execDltest o m s
  | .dlwait o m => Sys2Proof.Machine.execDlwait o m s
  | .add o m => Sys2Proof.Machine.execAdd o m s
  | .sub o m => Sys2Proof.Machine.execSub o m s
  | .mul o m => Sys2Proof.Machine.execMul o m s
  | .mulh o m => Sys2Proof.Machine.execMulh o m s
  | .div o m => Sys2Proof.Machine.execDiv o m s
  | .rem o m => Sys2Proof.Machine.execRem o m s
  | .and o m => Sys2Proof.Machine.execAnd o m s
  | .or o m => Sys2Proof.Machine.execOr o m s
  | .xor o m => Sys2Proof.Machine.execXor o m s
  | .andn o m => Sys2Proof.Machine.execAndn o m s
  | .shl o m => Sys2Proof.Machine.execShl o m s
  | .shr o m => Sys2Proof.Machine.execShr o m s
  | .sar o m => Sys2Proof.Machine.execSar o m s
  | .rot o m => Sys2Proof.Machine.execRot o m s
  | .min o m => Sys2Proof.Machine.execMin o m s
  | .max o m => Sys2Proof.Machine.execMax o m s
  | .clz o m => Sys2Proof.Machine.execClz o m s
  | .ctz o m => Sys2Proof.Machine.execCtz o m s
  | .popc o m => Sys2Proof.Machine.execPopc o m s
  | .bfx o m => Sys2Proof.Machine.execBfx o m s
  | .bfi o m => Sys2Proof.Machine.execBfi o m s
  | .sext o m => Sys2Proof.Machine.execSext o m s
  | .zext o m => Sys2Proof.Machine.execZext o m s
  | .mov o => Sys2Proof.Machine.execMov o s
  | .sel o => Sys2Proof.Machine.execSel o s
  | .abs o m => Sys2Proof.Machine.execAbs o m s
  | .lea o m => Sys2Proof.Machine.execLea o m s
  | .brev o m => Sys2Proof.Machine.execBrev o m s
  | .bswap o m => Sys2Proof.Machine.execBswap o m s
  | .mfx o => Sys2Proof.Machine.execMfx o s
  | .mtx o => Sys2Proof.Machine.execMtx o s
  | .cmp o m => Sys2Proof.Machine.execCmp o m s
  | .tst o m => Sys2Proof.Machine.execTst o m s
  | .pand o => Sys2Proof.Machine.execPand o s
  | .por o => Sys2Proof.Machine.execPor o s
  | .pxor o => Sys2Proof.Machine.execPxor o s
  | .pnot o => Sys2Proof.Machine.execPnot o s
  | .pmov o => Sys2Proof.Machine.execPmov o s
  | .ptos o => Sys2Proof.Machine.execPtos o s
  | .lds o m => Sys2Proof.Machine.execLds o m s
  | .sts o m => Sys2Proof.Machine.execSts o m s
  | .ldv o m => Sys2Proof.Machine.execLdv o m s
  | .stv o m => Sys2Proof.Machine.execStv o m s
  | .vlds o m => Sys2Proof.Machine.execVlds o m s
  | .vsts o m => Sys2Proof.Machine.execVsts o m s
  | .vldv o m => Sys2Proof.Machine.execVldv o m s
  | .vstv o m => Sys2Proof.Machine.execVstv o m s
  | .ldx o m => Sys2Proof.Machine.execLdx o m s
  | .stx o m => Sys2Proof.Machine.execStx o m s
  | .feget o => Sys2Proof.Machine.execFeget o s
  | .feset o => Sys2Proof.Machine.execFeset o s
  | .vgath o m => Sys2Proof.Machine.execVgath o m s
  | .vscat o m => Sys2Proof.Machine.execVscat o m s
  | .ldg o m => Sys2Proof.Machine.execLdg o m s
  | .stg o m => Sys2Proof.Machine.execStg o m s
  | .vldg o m => Sys2Proof.Machine.execVldg o m s
  | .vstg o m => Sys2Proof.Machine.execVstg o m s
  | .rld o m => Sys2Proof.Machine.execRld o m s
  | .rst o m => Sys2Proof.Machine.execRst o m s
  | .tabwait o m => Sys2Proof.Machine.execTabwait o m s
  | .tabtest o m => Sys2Proof.Machine.execTabtest o m s
  | .pref o => Sys2Proof.Machine.execPref o s
  | .aadd o m => Sys2Proof.Machine.execAadd o m s
  | .amin o m => Sys2Proof.Machine.execAmin o m s
  | .amax o m => Sys2Proof.Machine.execAmax o m s
  | .aand o m => Sys2Proof.Machine.execAand o m s
  | .aor o m => Sys2Proof.Machine.execAor o m s
  | .axor o m => Sys2Proof.Machine.execAxor o m s
  | .axchg o m => Sys2Proof.Machine.execAxchg o m s
  | .acas o m => Sys2Proof.Machine.execAcas o m s
  | .afadd o m => Sys2Proof.Machine.execAfadd o m s
  | .aredv o m => Sys2Proof.Machine.execAredv o m s
  | .areg o => Sys2Proof.Machine.execAreg o s
  | .acommit o m => Sys2Proof.Machine.execAcommit o m s
  | .aabort o => Sys2Proof.Machine.execAabort o s
  | .tspawn o => Sys2Proof.Machine.execTspawn o s
  | .fence o m => Sys2Proof.Machine.execFence o m s
  | .hbar o m => Sys2Proof.Machine.execHbar o m s
  | .hbara o m => Sys2Proof.Machine.execHbara o m s
  | .hbarw o m => Sys2Proof.Machine.execHbarw o m s
  | .abarm o => Sys2Proof.Machine.execAbarm o s
  | .abwait o m => Sys2Proof.Machine.execAbwait o m s
  | .abtest o m => Sys2Proof.Machine.execAbtest o m s
  | .fewait o m => Sys2Proof.Machine.execFewait o m s
  | .wmark o => Sys2Proof.Machine.execWmark o s
  | .cpy o m => Sys2Proof.Machine.execCpy o m s
  | .cpy2 o m => Sys2Proof.Machine.execCpy2 o m s
  | .tmaps o => Sys2Proof.Machine.execTmaps o s
  | .cpyt o m => Sys2Proof.Machine.execCpyt o m s
  | .send o m => Sys2Proof.Machine.execSend o m s
  | .sends o m => Sys2Proof.Machine.execSends o m s
  | .mcast o m => Sys2Proof.Machine.execMcast o m s
  | .netpost o => Sys2Proof.Machine.execNetpost o s
  | .netpoll o m => Sys2Proof.Machine.execNetpoll o m s
  | .pce o m => Sys2Proof.Machine.execPce o m s
  | .vadd o m => Sys2Proof.Machine.execVadd o m s
  | .vsub o m => Sys2Proof.Machine.execVsub o m s
  | .vmul o m => Sys2Proof.Machine.execVmul o m s
  | .vfma o m => Sys2Proof.Machine.execVfma o m s
  | .vmin o m => Sys2Proof.Machine.execVmin o m s
  | .vmax o m => Sys2Proof.Machine.execVmax o m s
  | .vabs o m => Sys2Proof.Machine.execVabs o m s
  | .vneg o m => Sys2Proof.Machine.execVneg o m s
  | .vand o m => Sys2Proof.Machine.execVand o m s
  | .vor o m => Sys2Proof.Machine.execVor o m s
  | .vxor o m => Sys2Proof.Machine.execVxor o m s
  | .vshl o m => Sys2Proof.Machine.execVshl o m s
  | .vshr o m => Sys2Proof.Machine.execVshr o m s
  | .vcmp o m => Sys2Proof.Machine.execVcmp o m s
  | .vsel o m => Sys2Proof.Machine.execVsel o m s
  | .vdot4 o m => Sys2Proof.Machine.execVdot4 o m s
  | .vrcp o m => Sys2Proof.Machine.execVrcp o m s
  | .vrsq o m => Sys2Proof.Machine.execVrsq o m s
  | .vexp2 o m => Sys2Proof.Machine.execVexp2 o m s
  | .vlog2 o m => Sys2Proof.Machine.execVlog2 o m s
  | .vscale o m => Sys2Proof.Machine.execVscale o m s
  | .vredadd o m => Sys2Proof.Machine.execVredadd o m s
  | .vredmax o m => Sys2Proof.Machine.execVredmax o m s
  | .vredmin o m => Sys2Proof.Machine.execVredmin o m s
  | .vargmax o m => Sys2Proof.Machine.execVargmax o m s
  | .vargmin o m => Sys2Proof.Machine.execVargmin o m s
  | .vperm o m => Sys2Proof.Machine.execVperm o m s
  | .vbcast o m => Sys2Proof.Machine.execVbcast o m s
  | .vrot o m => Sys2Proof.Machine.execVrot o m s
  | .viota o m => Sys2Proof.Machine.execViota o m s
  | .vmovsGet o m => Sys2Proof.Machine.execVmovsGet o m s
  | .vmovsPut o m => Sys2Proof.Machine.execVmovsPut o m s
  | .vclamp o m => Sys2Proof.Machine.execVclamp o m s
  | .vcvt o m => Sys2Proof.Machine.execVcvt o m s
  | .vquant o m => Sys2Proof.Machine.execVquant o m s
  | .vdeq o m => Sys2Proof.Machine.execVdeq o m s
  | .vrand o => Sys2Proof.Machine.execVrand o s
  | .vpln o m => Sys2Proof.Machine.execVpln o m s
  | .vunpln o m => Sys2Proof.Machine.execVunpln o m s
  | .padd o m => Sys2Proof.Machine.execPadd o m s
  | .psub o m => Sys2Proof.Machine.execPsub o m s
  | .pmul o m => Sys2Proof.Machine.execPmul o m s
  | .pcmp o m => Sys2Proof.Machine.execPcmp o m s
  | .gang o => Sys2Proof.Machine.execGang o s
  | .mma o m => Sys2Proof.Machine.execMma o m s
  | .mmaz o m => Sys2Proof.Machine.execMmaz o m s
  | .mmas o m => Sys2Proof.Machine.execMmas o m s
  | .mzero o => Sys2Proof.Machine.execMzero o s
  | .mdrain o => Sys2Proof.Machine.execMdrain o s
  | .mwait o => Sys2Proof.Machine.execMwait o s
  | .sclsend o => Sys2Proof.Machine.execSclsend o s
  | .syscall o => Sys2Proof.Machine.execSyscall o s
  | .tret o => Sys2Proof.Machine.execTret o s
  | .ctxsv o => Sys2Proof.Machine.execCtxsv o s
  | .ctxld o => Sys2Proof.Machine.execCtxld o s
  | .gauge o => Sys2Proof.Machine.execGauge o s
  | .gread o => Sys2Proof.Machine.execGread o s
  | .tmark o => Sys2Proof.Machine.execTmark o s
  | .idle o => Sys2Proof.Machine.execIdle o s
  | .faultrpt o => Sys2Proof.Machine.execFaultrpt o s
  | .supstep o => Sys2Proof.Machine.execSupstep o s
  | .doorbell ctx => Sys2Proof.Machine.execDoorbell ctx s
  | .rackLaunchPacket endpoint packet => Sys2Proof.Machine.execRackLaunchPacket endpoint packet s
  | .dispatcherTakePacket => Sys2Proof.Machine.execDispatcherTakePacket s
  | .prereqRecheck gid => Sys2Proof.Machine.execPrereqRecheck gid s
  | .bindTask gid task => Sys2Proof.Machine.execBindTask gid task s
  | .loadingDone core berth => Sys2Proof.Machine.execLoadingDone core berth s
  | .stopBerth core berth => Sys2Proof.Machine.execStopBerth core berth s
  | .berthFree core berth => Sys2Proof.Machine.execBerthFree core berth s
  | .priorityAging gid task => Sys2Proof.Machine.execPriorityAging gid task s
  | .berthPriorityRaise core berth => Sys2Proof.Machine.execBerthPriorityRaise core berth s
  | .preempt gid task => Sys2Proof.Machine.execPreempt gid task s
  | .migrate core berth => Sys2Proof.Machine.execMigrate core berth s
  | .contextSave core berth => Sys2Proof.Machine.execContextSave core berth s
  | .restore gid task => Sys2Proof.Machine.execRestore gid task s
  | .messageForward k => Sys2Proof.Machine.execMessageForward k s
  | .graphComplete gid => Sys2Proof.Machine.execGraphComplete gid s
  | .completionRecord gid => Sys2Proof.Machine.execCompletionRecord gid s
  | .fetchLineServed cluster => Sys2Proof.Machine.execFetchLineServed cluster s
  | .activationStart core => Sys2Proof.Machine.execActivationStart core s
  | .activationEnd core => Sys2Proof.Machine.execActivationEnd core s
  | .messageArrival k => Sys2Proof.Machine.execMessageArrival k s
  | .parkDelivery place k => Sys2Proof.Machine.execParkDelivery place k s
  | .parkDiscard place k => Sys2Proof.Machine.execParkDiscard place k s
  | .windowMarkArrival k => Sys2Proof.Machine.execWindowMarkArrival k s
  | .handlerRewrite core berth idx entry => Sys2Proof.Machine.execHandlerRewrite core berth idx entry s
  | .queueDeadlock core => Sys2Proof.Machine.execQueueDeadlock core s
  | .waitConditionMet core pilot => Sys2Proof.Machine.execWaitConditionMet core pilot s
  | .timedWaitTimeout core pilot => Sys2Proof.Machine.execTimedWaitTimeout core pilot s
  | .waitCountExpiry core pilot => Sys2Proof.Machine.execWaitCountExpiry core pilot s
  | .realignRelease core pilot => Sys2Proof.Machine.execRealignRelease core pilot s
  | .idleWake core => Sys2Proof.Machine.execIdleWake core s
  | .deadlineFire core slot => Sys2Proof.Machine.execDeadlineFire core slot s
  | .ratioWindowComplete cluster => Sys2Proof.Machine.execRatioWindowComplete cluster s
  | .gearStopStart pair => Sys2Proof.Machine.execGearStopStart pair s
  | .gearStopEnd pair => Sys2Proof.Machine.execGearStopEnd pair s
  | .gearStop pair => Sys2Proof.Machine.execGearStop pair s
  | .substationTick currents railMV => Sys2Proof.Machine.execSubstationTick currents railMV s
  | .layerImbalance pair => Sys2Proof.Machine.execLayerImbalance pair s
  | .thermalRequestStep => Sys2Proof.Machine.execThermalRequestStep s
  | .thermalTrip cluster => Sys2Proof.Machine.execThermalTrip cluster s
  | .slackReading tenths => Sys2Proof.Machine.execSlackReading tenths s
  | .supplyOutOfBand => Sys2Proof.Machine.execSupplyOutOfBand s
  | .brownoutReset => Sys2Proof.Machine.execBrownoutReset s
  | .asyncEventArrival k => Sys2Proof.Machine.execAsyncEventArrival k s
  | .asyncEventTaken core => Sys2Proof.Machine.execAsyncEventTaken core s
  | .storeLanding k => Sys2Proof.Machine.execStoreLanding k s
  | .go station => Sys2Proof.Machine.execGo station s
  | .all => Sys2Proof.Machine.execAll s
  | .igo station => Sys2Proof.Machine.execIgo station s
  | .invalidationDone => Sys2Proof.Machine.execInvalidationDone s
  | .chunkLanding copy chunk => Sys2Proof.Machine.execChunkLanding copy chunk s
  | .copyFaultParked copy chunk => Sys2Proof.Machine.execCopyFaultParked copy chunk s
  | .copyFailed copy chunk => Sys2Proof.Machine.execCopyFailed copy chunk s
  | .vectorComplete core => Sys2Proof.Machine.execVectorComplete core s
  | .matrixProductStart core => Sys2Proof.Machine.execMatrixProductStart core s
  | .matrixComplete core => Sys2Proof.Machine.execMatrixComplete core s
  | .gangFormed core => Sys2Proof.Machine.execGangFormed core s
  | .gangJoinTimeout core => Sys2Proof.Machine.execGangJoinTimeout core s
  | .gangProductStart core => Sys2Proof.Machine.execGangProductStart core s
  | .gangTimeout core => Sys2Proof.Machine.execGangTimeout core s
  | .scaleDelivery core k => Sys2Proof.Machine.execScaleDelivery core k s
  | .scaleMissing core => Sys2Proof.Machine.execScaleMissing core s
  | .hbarPhaseComplete core berth shape => Sys2Proof.Machine.execHbarPhaseComplete core berth shape s
  | .atomicPerform k => Sys2Proof.Machine.execAtomicPerform k s
  | .predictorQuiet core line => Sys2Proof.Machine.execPredictorQuiet core line s
  | .commit core => Sys2Proof.Machine.execCommit core s
  | .heldMessageSend core => Sys2Proof.Machine.execHeldMessageSend core s
  | .regionTimeout core => Sys2Proof.Machine.execRegionTimeout core s
  | .irrevocableRestart core => Sys2Proof.Machine.execIrrevocableRestart core s
  | .orderedTaskStart gid spawn core berth => Sys2Proof.Machine.execOrderedTaskStart gid spawn core berth s
  | .orderedTaskCommit gid => Sys2Proof.Machine.execOrderedTaskCommit gid s
  | .laneFailure port lanes => Sys2Proof.Machine.execLaneFailure port lanes s
  | .linkRetrained port => Sys2Proof.Machine.execLinkRetrained port s
  | .linkDown port => Sys2Proof.Machine.execLinkDown port s
  | .flitCheckFail port => Sys2Proof.Machine.execFlitCheckFail port s
  | .maxw port value => Sys2Proof.Machine.execMaxw port value s
  | .plannedWidthChange port => Sys2Proof.Machine.execPlannedWidthChange port s
  | .packetForward port p => Sys2Proof.Machine.execPacketForward port p s
  | .packetReceive p => Sys2Proof.Machine.execPacketReceive p s
  | .ackReceive dev seq => Sys2Proof.Machine.execAckReceive dev seq s
  | .retransmitTimer dev seq => Sys2Proof.Machine.execRetransmitTimer dev seq s
  | .contextClose dev => Sys2Proof.Machine.execContextClose dev s
  | .remoteOutcomeUnknown dev => Sys2Proof.Machine.execRemoteOutcomeUnknown dev s
  | .reachabilityProbe dev => Sys2Proof.Machine.execReachabilityProbe dev s
  | .remoteReply op r => Sys2Proof.Machine.execRemoteReply op r s
  | .retryListTimeout station k => Sys2Proof.Machine.execRetryListTimeout station k s
  | .cancel src op => Sys2Proof.Machine.execCancel src op s
  | .hold src tab => Sys2Proof.Machine.execHold src tab s
  | .clear tab => Sys2Proof.Machine.execClear tab s
  | .clearAck src idx => Sys2Proof.Machine.execClearAck src idx s
  | .drop tab => Sys2Proof.Machine.execDrop tab s
  | .query src tab => Sys2Proof.Machine.execQuery src tab s
  | .sidingExpiry k => Sys2Proof.Machine.execSidingExpiry k s
  | .expired op tab holder reason addr => Sys2Proof.Machine.execExpired op tab holder reason addr s
  | .deadEntryFree idx => Sys2Proof.Machine.execDeadEntryFree idx s
  | .tabletRackFull core pilot => Sys2Proof.Machine.execTabletRackFull core pilot s
  | .workRequestComplete k r => Sys2Proof.Machine.execWorkRequestComplete k r s
  | .windowPlacement win key ofs bytes => Sys2Proof.Machine.execWindowPlacement win key ofs bytes s
  | .tableRefreshEntry => Sys2Proof.Machine.execTableRefreshEntry s
  | .tableRefreshAll => Sys2Proof.Machine.execTableRefreshAll s
  | .tableRefreshDone => Sys2Proof.Machine.execTableRefreshDone s
  | .cxlMemWrite lpddr addr bytes => Sys2Proof.Machine.execCxlMemWrite lpddr addr bytes s
  | .cxlMemRead lpddr addr len => Sys2Proof.Machine.execCxlMemRead lpddr addr len s
  | .getparam => Sys2Proof.Machine.execGetparam s
  | .setparam => Sys2Proof.Machine.execSetparam s
  | .dstop => Sys2Proof.Machine.execDstop s
  | .dsave => Sys2Proof.Machine.execDsave s
  | .dgo => Sys2Proof.Machine.execDgo s
  | .rackallow => Sys2Proof.Machine.execRackallow s
  | .reset => Sys2Proof.Machine.execReset s
  | .fwload => Sys2Proof.Machine.execFwload s
  | .measure => Sys2Proof.Machine.execMeasure s
  | .powerOnReset => Sys2Proof.Machine.execPowerOnReset s
  | .cxlHotReset => Sys2Proof.Machine.execCxlHotReset s
  | .cxlFlr => Sys2Proof.Machine.execCxlFlr s
  | .watchdog => Sys2Proof.Machine.execWatchdog s
  | .dispatcherReport => Sys2Proof.Machine.execDispatcherReport s
  | .fatalErrorReset code => Sys2Proof.Machine.execFatalErrorReset code s
  | .bootPhaseAdvance => Sys2Proof.Machine.execBootPhaseAdvance s
  | .getVersion req => Sys2Proof.Machine.execGetVersion req s
  | .getCapabilities req => Sys2Proof.Machine.execGetCapabilities req s
  | .negotiateAlgorithms req => Sys2Proof.Machine.execNegotiateAlgorithms req s
  | .getDigests req => Sys2Proof.Machine.execGetDigests req s
  | .getCertificate req => Sys2Proof.Machine.execGetCertificate req s
  | .challenge req => Sys2Proof.Machine.execChallenge req s
  | .getMeasurements req => Sys2Proof.Machine.execGetMeasurements req s
  | .telemetryRefresh temps => Sys2Proof.Machine.execTelemetryRefresh temps s
  | .gaugeSample core idx value => Sys2Proof.Machine.execGaugeSample core idx value s
  | .sampleMark core pilot => Sys2Proof.Machine.execSampleMark core pilot s
  | .sampleRecord core pilot times flags => Sys2Proof.Machine.execSampleRecord core pilot times flags s
  | .registerWrite bar offset size value => Sys2Proof.Machine.execRegisterWrite bar offset size value s
  | .loadDataWritten core pilot => Sys2Proof.Machine.execLoadDataWritten core pilot s
  | .lastSequenceExpiry dev => Sys2Proof.Machine.execLastSequenceExpiry dev s
  | .peerRead win key ofs len => Sys2Proof.Machine.execPeerRead win key ofs len s

end Sys2Proof.Machine
end

