-- ==== Sys2Proof/Machine/Schedule.lean ====
section
/-! DEFINITION. Who moves (the model's own): what a move does, and the default schedule that takes the agenda's place when
it is empty. -/

namespace Sys2Proof.Machine

/-- A stream fetches and issues one instruction (R66, R67, R106); one whose line has not come does not. -/
def issueNow (s : State) (c : Nat) (pilot : Bool) : Host.Outcome State Fault Refusal :=
  match fetchNow s c pilot with
  | .instr i => exec i (issuing s c pilot)
  | .ask line => .next (askLine s c pilot (actBerth (coreOf s c)).pasid line)
  | .trap t => .next (fetchFails s c pilot t)

/-- The pilot and the execute stream stand at instructions of which the execute stream's comes first in one cyc (R131, R165). -/
def comesSecond (s : State) (c : Nat) : Bool :=
  canIssue s c false && (match fetchNow s c true with | .instr i => leavesTurn s c i | _ => false)

/-- The pilot issues: after the execute stream, in one cyc, where it comes second; and where both streams trap, the execute stream's
trap is taken (R384). -/
def pilotMove (c : Nat) (s : State) : Host.Outcome State Fault Refusal :=
  if comesSecond s c then
    match issueNow s c false with
    | .next t => if mayIssue t c true && !heldNow t c true && notYet (coreOf t c) true then issueNow t c true else .next t
    | r => r
  else
    match issueNow s c true with
    | .next t => .next (yieldTrap s t c (trapsNow s c false))
    | r => r

/-- A move of a stream: a STEP that is due, then an event that pends or the trap at its boundary, then its next instruction (R384,
R396). A stream that is held, or has issued in this cyc, does nothing. -/
def issueMove (c : Nat) (pilot : Bool) (s : State) : Host.Outcome State Fault Refusal :=
  if mayIssue s c pilot = false then .fault (.notIssuing c pilot)
  else if (stepDue (coreOf s c)).isSome then .next (takeStep s c)
  else if canIssue s c pilot = false then .next s
  else if (eventDue s c).isSome ∧ pilot = eventStream s c then .next (eventMove s c)
  else if pilot then pilotMove c s
  else issueNow s c false

/-- The instruction is a word that a stream issues, not a step of an engine. -/
def isWordInstr (i : Instr) : Bool := decide (i = .udf) || (partsOf i).isSome

/-- One move. -/
def runMove (m : Move) (s : State) : Host.Outcome State Fault Refusal :=
  match m with
  | .issue c pilot => issueMove c pilot s
  | .event i => if isWordInstr i then .refused .notAnEvent else exec i s
  | .tick => .next (passCyc s)

/- The default schedule: every step that the device itself could take next is offered in turn. A step whose condition does
not hold changes nothing. -/

/-- A step that the schedule offers: an issue, the passing of time, or the meaning of a row of the opcode table. -/
abbrev Offer := State → Host.Outcome State Fault Refusal

def berthOffers (c : Nat) : List Offer :=
  allBerthNos.flatMap (fun b =>
    [execLoadingDone c b, execStopBerth c b, execBerthFree c b, execContextSave c b, execBerthPriorityRaise c b, execMigrate c b]
      ++ ([Shape.row, .col, .quad, .rowcol].map (execHbarPhaseComplete c b)))

def streamOffers (s : State) (c : Nat) (pilot : Bool) : List Offer :=
  if mayIssue s c pilot = false then []
  else if heldNow s c pilot then
    [execWaitConditionMet c pilot, execTimedWaitTimeout c pilot, execWaitCountExpiry c pilot, execRealignRelease c pilot,
     execLoadDataWritten c pilot]
  else [issueMove c pilot]

def coreOffers (s : State) (c : Nat) : List Offer :=
  streamOffers s c true ++ streamOffers s c false
    ++ [execActivationStart c, execActivationEnd c, execAsyncEventTaken c, execIdleWake c, execVectorComplete c,
        execMatrixProductStart c, execMatrixComplete c, execGangFormed c, execGangProductStart c, execScaleDelivery c 0,
        execGangJoinTimeout c, execGangTimeout c, execScaleMissing c, execCommit c, execHeldMessageSend c, execRegionTimeout c,
        execIrrevocableRestart c, execQueueDeadlock c]
    ++ berthOffers c

/-- The first core that has room for the ordered tasks of a graph. -/
def ordOffers (s : State) (g : Graph) : List Offer :=
  match nextOrd s g, g.tasks[g.otask]? with
  | some i, some t =>
    match (List.range 1024).findSome? (fun c => (roomAt s c (regKiB t.regreq) (spRows t.spreq)).map (fun x => (c, x.1))) with
    | some (c, b) => [execOrderedTaskStart g.gid i c b]
    | none => []
  | _, _ => []

def graphOffers (s : State) (g : Graph) : List Offer :=
  [execPrereqRecheck g.gid, execGraphComplete g.gid, execCompletionRecord g.gid, execOrderedTaskCommit g.gid]
    ++ ordOffers s g
    ++ (List.range g.tasks.length).flatMap (fun i =>
        [execBindTask g.gid i, execRestore g.gid i, execPriorityAging g.gid i, execPreempt g.gid i])

/-- The step of the mailbox command that runs (R420). -/
def commandOffers (s : State) : List Offer :=
  if s.fw.busy = false then []
  else [execGetparam, execSetparam, execDstop, execDsave, execDgo, execRackallow, execReset, execFwload, execMeasure]

def parkOffers (a : ParkAt) (n : Nat) : List Offer :=
  (List.range n).flatMap (fun k => [execParkDelivery a k, execParkDiscard a k])

def deviceOffers (s : State) : List Offer :=
  [execBootPhaseAdvance, execDispatcherTakePacket, execDispatcherReport, execInvalidationDone, execTableRefreshDone,
   execThermalRequestStep]
    ++ commandOffers s
    ++ (if s.transit.isEmpty then [] else [execMessageArrival 0])
    ++ (if s.heldMsgs.isEmpty then [] else [execMessageForward 0])
    ++ parkOffers .device s.devPark.length
    ++ (List.range s.marksT.length).map execWindowMarkArrival
    ++ (if s.asyncs.isEmpty then [] else [execAsyncEventArrival 0])
    ++ (if s.posted.isEmpty then [] else [execStoreLanding 0, execAtomicPerform 0])
    ++ s.copies.flatMap (fun k => (List.range k.chunks.length).flatMap (fun i =>
        [execChunkLanding k.id i, execCopyFaultParked k.id i, execCopyFailed k.id i]))
    ++ s.fabric.loop.map execPacketReceive
    ++ s.cores.flatMap (fun e => allBerthNos.flatMap (fun b => parkOffers (.berth e.1 b) (berthAt e.2 b).park.length))

/-- Everything that the schedule offers. -/
def offers (s : State) : List Offer :=
  deviceOffers s ++ s.graphs.flatMap (graphOffers s) ++ s.cores.flatMap (fun e => coreOffers s e.1)
    ++ s.clusters.map (fun e => execFetchLineServed e.1) ++ [fun t => .next (passCyc t)]

/-- The offer whose turn it is. -/
def offered (s : State) : Offer :=
  let l := offers s
  l.getD (s.turn % l.length) (fun t => .next (passCyc t))

/-- The next move: the first of the agenda, or that of the default schedule. -/
def takeMove (s : State) : Host.Outcome State Fault Refusal :=
  match s.agenda with
  | m :: r => runMove m { s with agenda := r }
  | [] => offered s { s with turn := s.turn + 1 }

/- A word placed where the next fetch finds it. -/

/-- The lines of the twenty bytes at a program counter. -/
def placedLines (pasid : BitVec 20) (pc : Nat) (bs : List Byte) : List FetchLine :=
  let whole := List.replicate (pc % 64) (0 : Byte) ++ bs ++ List.replicate 108 0
  [{ pasid := pasid, line := pc / 64, bytes := whole.take 64 }, { pasid := pasid, line := pc / 64 + 1, bytes := (whole.drop 64).take 64 }]

/-- The execute stream of core 0 stands at an instruction of twenty bytes, in a running activation of a graph that holds it, with no
event before it, and issues next. -/
def placeWord (s : State) (nbits w : Nat) : State :=
  let x := coreOf s 0
  let a : Act := match x.act with | some a => a | none => {}
  let x1 := { x with act := some a, sup := false, issued := 0, stepped := 0 }
  let k := actBerth x1
  let pc := x.ex.pc.toNat
  let t := { x.ex with stopped := false, wait := none, buf := placedLines k.pasid pc (leBytes 20 (w % 2 ^ nbits)) }
  let g := graphOf s k.gid
  let s1 := setCore s 0 (setBerth { x1 with ex := t } a.berth { k with pend := [] })
  { s1 with graphs := { g with gid := k.gid, code := BitVec.ofNat 64 pc, codesize := 20 } :: s.graphs.filter (fun h => h.gid != k.gid),
            pairs := amSet s.pairs 0 { pairOf s 0 with stopped := false }, agenda := .issue 0 false :: s.agenda }

end Sys2Proof.Machine
end

