-- ==== Sys2Proof/Machine/Step.lean ====
section
/-! DEFINITION. One step of the device, and a word placed for the next one. -/

namespace Sys2Proof.Machine

/-- One step: the next move is taken. -/
def step (s : State) : Host.Outcome State Fault Refusal := takeMove s

/-- The state with a word of nbits bits stored where the next step fetches its instruction. -/
def State.withFetchWord (s : State) (nbits w : Nat) : State := placeWord s nbits w

end Sys2Proof.Machine
end

