-- ==== Sys2Proof/Safety.lean ====
section
/-! DEFINITION. What a safe run is, in the terms that claims use. -/

namespace Sys2Proof.Safety

open Sys2Proof.Machine

/-- The memories of a state are in their canonical form, so that equal memories are equal data. -/
def CanonicalMemory (s : State) : Prop := s.mem.wf = true ∧ s.fe.wf = true ∧ s.bad.wf = true

/-- The next step goes on: it neither faults nor is refused. -/
def GoesOn (s : State) : Prop := ∃ t, step s = .next t

/-- So many steps go on. -/
def RunsFor : Nat → State → Prop
  | 0, _ => True
  | n + 1, s => ∃ t, step s = .next t ∧ RunsFor n t

end Sys2Proof.Safety
end

