-- ==== Sys2Proof/WellFormed.lean ====
section
/-! DEFINITION. Which terms of Instr are instructions of this device: words that an encoding exists for (R70 to R106), and
steps of engines that name units which the device has (R2, R42, R178, R343). -/

namespace Sys2Proof

/-- A step of an engine names units that exist. -/
def unitsOk (i : Instr) : Bool :=
  match i with
  | .doorbell n => decide (n < 16)
  | .loadingDone n _ => decide (n < 1024)
  | .stopBerth n _ => decide (n < 1024)
  | .berthFree n _ => decide (n < 1024)
  | .berthPriorityRaise n _ => decide (n < 1024)
  | .migrate n _ => decide (n < 1024)
  | .contextSave n _ => decide (n < 1024)
  | .fetchLineServed n => decide (n < 128)
  | .activationStart n => decide (n < 1024)
  | .activationEnd n => decide (n < 1024)
  | .handlerRewrite n _ _ _ => decide (n < 1024)
  | .queueDeadlock n => decide (n < 1024)
  | .waitConditionMet n _ => decide (n < 1024)
  | .timedWaitTimeout n _ => decide (n < 1024)
  | .waitCountExpiry n _ => decide (n < 1024)
  | .realignRelease n _ => decide (n < 1024)
  | .idleWake n => decide (n < 1024)
  | .deadlineFire n _ => decide (n < 1024)
  | .ratioWindowComplete n => decide (n < 128)
  | .gearStopStart n => decide (n < 64)
  | .gearStopEnd n => decide (n < 64)
  | .gearStop n => decide (n < 64)
  | .layerImbalance n => decide (n < 64)
  | .thermalTrip n => decide (n < 128)
  | .asyncEventTaken n => decide (n < 1024)
  | .go n => decide (n < 16)
  | .igo n => decide (n < 16)
  | .vectorComplete n => decide (n < 1024)
  | .matrixProductStart n => decide (n < 1024)
  | .matrixComplete n => decide (n < 1024)
  | .gangFormed n => decide (n < 1024)
  | .gangJoinTimeout n => decide (n < 1024)
  | .gangProductStart n => decide (n < 1024)
  | .gangTimeout n => decide (n < 1024)
  | .scaleDelivery n _ => decide (n < 1024)
  | .scaleMissing n => decide (n < 1024)
  | .hbarPhaseComplete n _ _ => decide (n < 1024)
  | .predictorQuiet n _ => decide (n < 1024)
  | .commit n => decide (n < 1024)
  | .heldMessageSend n => decide (n < 1024)
  | .regionTimeout n => decide (n < 1024)
  | .irrevocableRestart n => decide (n < 1024)
  | .orderedTaskStart _ _ n _ => decide (n < 1024)
  | .laneFailure n _ => decide (n < 32)
  | .linkRetrained n => decide (n < 32)
  | .linkDown n => decide (n < 32)
  | .flitCheckFail n => decide (n < 32)
  | .maxw n _ => decide (n < 32)
  | .plannedWidthChange n => decide (n < 32)
  | .packetForward n _ => decide (n < 32)
  | .retryListTimeout n _ => decide (n < 16)
  | .clearAck _ n => decide (n < 4096)
  | .deadEntryFree n => decide (n < 4096)
  | .tabletRackFull n _ => decide (n < 1024)
  | .windowPlacement n _ _ _ => decide (n < 1024)
  | .sampleMark n _ => decide (n < 1024)
  | .sampleRecord n _ _ _ => decide (n < 1024)
  | .loadDataWritten n _ => decide (n < 1024)
  | .peerRead n _ _ _ => decide (n < 1024)
  | .parkDelivery (.berth n _) _ => decide (n < 1024)
  | .parkDiscard (.berth n _) _ => decide (n < 1024)
  | .gaugeSample (some n) idx _ => decide (n < 1024 ∧ idx < 4)
  | .gaugeSample none idx _ => decide (idx < 64)
  | .cxlMemWrite lpddr addr bytes => decide (addr + bytes.length ≤ if lpddr then 2 ^ 40 - 2 ^ 33 else 2 ^ 37 - 2 ^ 30)
  | .cxlMemRead lpddr addr len => decide (addr + len ≤ if lpddr then 2 ^ 40 - 2 ^ 33 else 2 ^ 37 - 2 ^ 30)
  | .registerWrite bar _ _ _ => decide (bar = 0 ∨ bar = 2 ∨ bar = 4)
  | _ => true

/-- The operands of a word: each of a kind its slot class admits (R74, R105), and at most one of kind L (R71). -/
def operandsOk (c : Opc) (o : Ops) (v : ModVal) : Bool :=
  let cls := slotCls c v
  admits cls.1 o.d && admits cls.2.1 o.a && admits cls.2.2 o.b
    && decide (bitNat (isLit o.d) + bitNat (isLit o.a) + bitNat (isLit o.b) ≤ 1)

/-- The modifier of a word: one that its bits encode and the instruction accepts (R93 to R104). -/
def modifierOk (c : Opc) (v : ModVal) : Bool := decide (checkMod c (modCode v) = some v)

/-- The term is an instruction of this device. UDF is one: its word has a meaning (R90). -/
def Instr.wf (i : Instr) : Bool :=
  match i with
  | .udf => true
  | _ =>
    match partsOf i with
    | some (c, o, v) => operandsOk c o v && modifierOk c v && decide (ofParts c o v = some i)
    | none => unitsOk i

end Sys2Proof
end

