-- ==== Sys2Proof/Certificates/Slice0/Obligations.lean ====
section
/-! DEFINITION. The statements for the provers, with the plain notions they are said in. -/

namespace Sys2Proof.Claims

open Sys2Proof Sys2Proof.Machine

/-- Parcels of four bytes as bytes (R70). -/
def parcels (l : List Nat) : List Byte := l.flatMap (leBytes 4)

/- When a word has its own effect. -/

/-- A word of the stream that issues gets to its own effect (R72, R106): step 6 passes, its guard is true, it is no misuse
of a prefix, no earlier vector operation has still to write what it names, the stream waits for no commit point, and it is not
single-stepped. -/
def issues (i : Instr) (s : State) : Bool :=
  match meaningOf i with
  | some m =>
    (check6 s m.o m.perm m.dRead).isNone && guardOk s m.o.g && !prefixBad s i && !engineWait s i m.o
      && !overflowWaits s && (supNow s || decide ((curCore s).stepping &&& stepBit s.cur.2 = 0))
  | none => false

/-- It issues, each queue it reads holds an entry, and each queue it writes has room (R75). -/
def ready (i : Instr) (s : State) : Bool :=
  issues i s && (match meaningOf i with | some m => (queueWait m.o m.dRead s).isNone | none => false)

/-- The program counter of the instruction after a word, of 12 bytes and four for each literal parcel (R71). -/
def following (s : State) (o : Ops) : W64 := pcNow s + BitVec.ofNat 64 (12 + 4 * litParcels (litOf o))

/- What a word leaves as it was. -/

/-- A stream without what issuing an instruction moves on: its PC, its registers, its prefix, its wait, its fetched lines, the YLD hint,
the count of sampling, and where its marked instruction goes on or how it ended. -/
def streamRest (t : Stream) : Stream :=
  { t with pc := 0, s := Vector.replicate 64 0, k := Vector.replicate 8 false, wait := none, pp := false, buf := [], yld := false,
           sampleLeft := 0, markEng := false, markDone := false, markFlags := 0, markWall := 0 }

/-- A vector operation that has not completed, without the scalar register for its result: a later instruction may have written that
(R147). -/
def vecRest (v : VCmd) : VCmd := match v.d with | .scalar _ => { v with d := .none } | _ => v

/-- A core without its streams, the registers and PC of its supervisor bank, its queues, the registers to which vector operations have
still to write, the cursor of its message and its region. -/
def coreRest (k : Core) : Core :=
  { k with ex := {}, pi := {}, q := Vector.replicate 16 [], qnew := Vector.replicate 16 0, act := k.act.map (fun a => { a with cursor := 0 }), region := none, vq := k.vq.map vecRest,
           supPc := 0, supS := Vector.replicate 64 0, supK := Vector.replicate 8 false, supWait := none }

/-- Nothing outside the core that issues has changed: no memory, no full/empty bit, no other core, no table, no time. -/
def OtherUnits (s t : State) : Prop := { t with cores := s.cores } = s ∧ ∀ c, c ≠ s.cur.1 → coreOf t c = coreOf s c

/-- A state without the place that the next wait takes in the order of arrivals (R170). -/
def samePlace (s t : State) : State := { t with arrNext := s.arrNext }

/-- Nothing has changed but what issuing a word moves on, registers and queues. -/
def Frame (s t : State) : Prop :=
  OtherUnits s t ∧ coreRest (curCore t) = coreRest (curCore s) ∧ streamRest (curStream t) = streamRest (curStream s)
    ∧ streamOf (curCore t) (!s.cur.2) = streamOf (curCore s) (!s.cur.2)
    ∧ ((curCore s).region = none → (curCore t).region = none)

/-- Every scalar register but those of a list holds what it held, and takes the results that it still waited for (R147). -/
def ScalarsBut (s t : State) (l : List (BitVec 6)) : Prop :=
  ∀ j, j ∉ l → readS t j = readS s j
    ∧ ∀ v ∈ (curCore s).vq, v.d = .scalar j → v.sup = supNow s → ∃ w ∈ (curCore t).vq, w.d = .scalar j ∧ w.sup = v.sup ∧ w.ord = v.ord

/-- Every predicate but those of a list holds what it held. -/
def PredsBut (s t : State) (l : List (BitVec 3)) : Prop := ∀ j, j ∉ l → readK t j = readK s j

/-- A result of class SD: a register takes it, a queue gets it as its last entry, NONE discards it (R74, R134). -/
def Result (s t : State) (d : Operand) (v : W64) : Prop :=
  match d with
  | .s n => readS t n = v ∧ ScalarsBut s t [n]
  | .q n => ScalarsBut s t [] ∧ qGet (curCore t) n = qGet (curCore s) n ++ [.word v]
  | _ => ScalarsBut s t []

/- Scalar operations in bit vectors (R150, R152). -/

/-- An operation on the low 32 bits under W, sign-extended, and on 64 bits without (R145). -/
def sized (w : Bool) (f : (n : Nat) → BitVec n → BitVec n → BitVec n) (a b : W64) : W64 :=
  if w then (f 32 (a.setWidth 32) (b.setWidth 32)).signExtend 64 else f 64 a b

def satAdd (sgn : Bool) (n : Nat) (x y : BitVec n) : BitVec n :=
  if sgn then
    (if 2 ^ (n - 1) ≤ x.toInt + y.toInt then BitVec.intMax n else if x.toInt + y.toInt < -2 ^ (n - 1) then BitVec.intMin n else x + y)
  else if 2 ^ n ≤ x.toNat + y.toNat then BitVec.allOnes n else x + y

def satSub (sgn : Bool) (n : Nat) (x y : BitVec n) : BitVec n :=
  if sgn then
    (if 2 ^ (n - 1) ≤ x.toInt - y.toInt then BitVec.intMax n else if x.toInt - y.toInt < -2 ^ (n - 1) then BitVec.intMin n else x - y)
  else if x.toNat < y.toNat then 0 else x - y

def highMul (sgn : Bool) (n : Nat) (x y : BitVec n) : BitVec n :=
  if sgn then (x.signExtend (2 * n) * y.signExtend (2 * n)).extractLsb' n n else (x.setWidth (2 * n) * y.setWidth (2 * n)).extractLsb' n n

def quotient (sgn : Bool) (n : Nat) (x y : BitVec n) : BitVec n :=
  if y = 0 then BitVec.allOnes n else if sgn then x.sdiv y else x / y

def remainder (sgn : Bool) (n : Nat) (x y : BitVec n) : BitVec n := if y = 0 then x else if sgn then x.srem y else x % y

/-- The operands, the reading of a 32-bit literal, W, and the value of each two-source instruction (R150, R152). -/
def twoSource (i : Instr) : Option (Ops × Bool × Bool × (W64 → W64 → W64)) :=
  match i with
  | .add o m => some (o, false, m.w, sized m.w (fun n x y => if m.sat then satAdd m.sgn n x y else x + y))
  | .sub o m => some (o, false, m.w, sized m.w (fun n x y => if m.sat then satSub m.sgn n x y else x - y))
  | .mul o m => some (o, false, m.w, sized m.w (fun _ x y => x * y))
  | .mulh o m => some (o, false, m.w, sized m.w (highMul m.sgn))
  | .div o m => some (o, false, m.w, sized m.w (quotient m.sgn))
  | .rem o m => some (o, false, m.w, sized m.w (remainder m.sgn))
  | .and o m => some (o, true, m.w, sized m.w (fun _ x y => x &&& y))
  | .or o m => some (o, true, m.w, sized m.w (fun _ x y => x ||| y))
  | .xor o m => some (o, true, m.w, sized m.w (fun _ x y => x ^^^ y))
  | .andn o m => some (o, true, m.w, sized m.w (fun _ x y => x &&& ~~~y))
  | .shl o m => some (o, false, m.w, sized m.w (fun n x y => x <<< (y.toNat % n)))
  | .shr o m => some (o, false, m.w, sized m.w (fun n x y => x >>> (y.toNat % n)))
  | .sar o m => some (o, false, m.w, sized m.w (fun n x y => x.sshiftRight (y.toNat % n)))
  | .rot o m => some (o, false, m.w, sized m.w (fun n x y => x.rotateLeft (y.toNat % n)))
  | .min o m => some (o, false, m.w, sized m.w (fun _ x y => if (if m.sgn then y.slt x else y.ult x) then y else x))
  | .max o m => some (o, false, m.w, sized m.w (fun _ x y => if (if m.sgn then x.slt y else x.ult y) then y else x))
  | .bfi o m => some (o, false, false, fun a b =>
      let mask : W64 := (BitVec.allOnes 64 >>> (63 - m.widm1.toNat)) <<< m.pos.toNat
      (b &&& ~~~mask) ||| ((a <<< m.pos.toNat) &&& mask))
  | .lea o m => some (o, false, false, fun a b => a + b <<< m.scale.toNat)
  | _ => none

/-- The first set bit among those at the places of a list, counted from its start; the length of the list where there is
none. -/
def firstSet (l : List Bool) : Nat := (l.findIdx? id).getD l.length

def bitsUp (n : Nat) (x : BitVec n) : List Bool := (List.range n).map x.getLsbD
def bitsDown (n : Nat) (x : BitVec n) : List Bool := (List.range n).map x.getMsbD

/-- A number's bytes in the opposite order. -/
def swapBytes (n : Nat) (x : BitVec n) : BitVec n :=
  (List.range (n / 8)).foldl (fun a j => a ||| ((x.extractLsb' (8 * j) 8).setWidth n <<< (n - 8 - 8 * j))) 0

def sizedOne (w : Bool) (f : (n : Nat) → BitVec n → BitVec n) (a : W64) : W64 := sized w (fun n x _ => f n x) a 0

/-- The operands, W, and the value of each one-source instruction (R152). -/
def oneSource (i : Instr) : Option (Ops × Bool × (W64 → W64)) :=
  match i with
  | .clz o m => some (o, m.w, sizedOne m.w (fun n x => BitVec.ofNat n (firstSet (bitsDown n x))))
  | .ctz o m => some (o, m.w, sizedOne m.w (fun n x => BitVec.ofNat n (firstSet (bitsUp n x))))
  | .popc o m => some (o, m.w, sizedOne m.w (fun n x => BitVec.ofNat n ((bitsUp n x).count true)))
  | .abs o m => some (o, m.w, sizedOne m.w (fun _ x => if x.msb then -x else x))
  | .brev o m => some (o, m.w, sizedOne m.w (fun _ x => x.reverse))
  | .bswap o m => some (o, m.w, sizedOne m.w swapBytes)
  | .bfx o m => some (o, false, fun a => (a >>> m.pos.toNat) &&& (BitVec.allOnes 64 >>> (63 - m.widm1.toNat)))
  | .sext o m => some (o, false, fun a => (a.setWidth (8 * 2 ^ m.swid.toNat)).signExtend 64)
  | .zext o m => some (o, false, fun a => (a.setWidth (8 * 2 ^ m.swid.toNat)).setWidth 64)
  | .mov o => some (o, false, id)
  | _ => none

/-- The relation of two numbers (R158). -/
def related (r : Rel) (x y : Int) : Bool :=
  match r with
  | .eq => decide (x = y)
  | .ne => decide (x ≠ y)
  | .lt => decide (x < y)
  | .le => decide (x ≤ y)
  | .gt => decide (y < x)
  | .ge => decide (y ≤ x)

/-- A number of N bits as SGN has it read. -/
def reading (sgn : Bool) (n : Nat) (x : BitVec n) : Int := if sgn then x.toInt else x.toNat

/-- The truth that CMP or TST combines into its predicate (R158). -/
def compared (i : Instr) (a b : W64) : Bool :=
  match i with
  | .cmp _ m =>
    if m.w then related m.rel (reading m.sgn 32 (a.setWidth 32)) (reading m.sgn 32 (b.setWidth 32))
    else related m.rel (reading m.sgn 64 a) (reading m.sgn 64 b)
  | .tst _ m =>
    let z := if m.w then decide ((a &&& b).setWidth 32 = (0 : BitVec 32)) else decide (a &&& b = 0)
    if m.rel = .eq then z else !z
  | _ => false

/-- The value of each predicate instruction, from its two sources (R158). -/
def predValue (i : Instr) : Option (Ops × (Bool → Bool → Bool)) :=
  match i with
  | .pand o => some (o, fun x y => x && y)
  | .por o => some (o, fun x y => x || y)
  | .pxor o => some (o, fun x y => x != y)
  | .pnot o => some (o, fun x _ => !x)
  | .pmov o => some (o, fun x _ => x)
  | _ => none

/-- The operands of a well-formed compare are a destination predicate and two sources. -/
def PredResult (s t : State) (d : Operand) (v : Bool) : Prop :=
  match d with
  | .k n => (n ≠ 0 → readK t n = v) ∧ readK t 0 = true ∧ PredsBut s t [n]
  | _ => PredsBut s t []

/- Memory. -/

/-- A word goes on at the next instruction, and its stream waits no more. -/
def GoesOnAt (s t : State) (o : Ops) : Prop := pcNow t = following s o ∧ waitNow t = none

/-- Of the cores, only what issuing a word moves on has changed, registers and queues. -/
def CoreFrame (s t : State) : Prop :=
  (∀ c, c ≠ s.cur.1 → coreOf t c = coreOf s c) ∧ coreRest (curCore t) = coreRest (curCore s)
    ∧ streamRest (curStream t) = streamRest (curStream s)
    ∧ streamOf (curCore t) (!s.cur.2) = streamOf (curCore s) (!s.cur.2) ∧ t.cur = s.cur
    ∧ ((curCore s).region = none → (curCore t).region = none)

/-- k[PRED] is true under TRES, and no other predicate has changed (R129). -/
def TrioPred (s t : State) (m : Trio) : Prop := if m.tres then PredResult s t (.k m.pred) true else PredsBut s t []

/-- A result of class VD: a V register holds the 256 bytes and no other byte of memory has changed, a queue gets them as its
last entry, NONE discards them (R74, R80). -/
def BlockResult (s t : State) (d : Operand) (bs : List Byte) : Prop :=
  match d with
  | .v n => ∃ a, vReg s n = some a ∧ t.mem = wrBytes s.mem a bs
      ∧ (∀ x, x < a ∨ a + bs.length ≤ x → rdByte t.mem x = rdByte s.mem x)
  | .q n => qGet (curCore t) n = qGet (curCore s) n ++ [.block bs] ∧ t.mem = s.mem
  | _ => t.mem = s.mem

/-- The operands, MOD and space of each scalar load, block load, scalar store and block store (LDX and STX: their record's space). -/
def scalarLoad (i : Instr) : Option (Ops × MemMod × Space) :=
  match i with
  | .lds o m => some (o, m, .sp)
  | .ldv o m => some (o, m, .vlt)
  | .ldg o m => some (o, m, .glb)
  | .ldx o m => some (o, m, .sp)
  | _ => none
def blockLoad (i : Instr) : Option (Ops × MemMod × Space) :=
  match i with
  | .vlds o m => some (o, m, .sp)
  | .vldv o m => some (o, m, .vlt)
  | .vldg o m => some (o, m, .glb)
  | _ => none
def scalarStore (i : Instr) : Option (Ops × MemMod × Space) :=
  match i with
  | .sts o m => some (o, m, .sp)
  | .stv o m => some (o, m, .vlt)
  | .stg o m => some (o, m, .glb)
  | .stx o m => some (o, m, .sp)
  | _ => none
def blockStore (i : Instr) : Option (Ops × MemMod × Space) :=
  match i with
  | .vsts o m => some (o, m, .sp)
  | .vstv o m => some (o, m, .vlt)
  | .vstg o m => some (o, m, .glb)
  | _ => none

/-- A store with its bytes, its alignment and whether it is a block. -/
def storeOf (i : Instr) : Option (Ops × MemMod × Space × Nat × Nat × Bool) :=
  match scalarStore i, blockStore i with
  | some (o, m, spc), _ => some (o, m, spc, sizeBytes m.size, sizeBytes m.size, false)
  | _, some (o, m, spc) => some (o, m, spc, 256, 16, true)
  | _, _ => none

/-- Any of them, and whether it loads. -/
def accessOfWord (i : Instr) : Option (Ops × MemMod × Space × Nat × Nat × Bool × Bool) :=
  match storeOf i, scalarLoad i, blockLoad i with
  | some (o, m, spc, n, align, block), _, _ => some (o, m, spc, n, align, block, false)
  | _, some (o, m, spc), _ => some (o, m, spc, sizeBytes m.size, sizeBytes m.size, false, true)
  | _, _, some (o, m, spc) => some (o, m, spc, 256, 16, true, true)
  | _, _, _ => none

/-- A load or store of n bytes gets to memory: its stream is held for no answer of another device, its operand resolves to g,
the checks of R185 pass, and its bytes are the pieces ps of this device, outside the buffer of a region. -/
def Reaches (s : State) (o : Ops) (m : MemMod) (spc : Space) (n align : Nat) (load block : Bool) (g : Target) (ps : List (Nat × Nat)) : Prop :=
  heldRop s = none
    ∧ (target s o spc (2 ^ m.scale.toNat) n (syncKind load m.sync) m.sync (loadEng s block)).1 = .ok g
    ∧ accChecks s g align = none ∧ locate s g.x (if load then 0 else 1) = .ok (.here ps) ∧ specRegion s g.x = none

/-- What a load waits for: its stream's own atomics on the bytes; under SYNC its stores on them, and all of its stores where the load is
a release, and its turn at the granules in the state it asks for (R169, R170, R186, R283). -/
def SyncMet (s : State) (m : MemMod) (ps : List (Nat × Nat)) : Prop :=
  if m.sync = .plain then ownTouches s s.cur.1 s.cur.2 true ps = false
  else loadVisible s m.sync ps = true ∧ syncTurn s m.sync (granules ps) = true

/-- The bytes a load finds. -/
def foundBytes (s : State) (m : MemMod) (ps : List (Nat × Nat)) : List Byte :=
  if m.sync = .plain then ps.flatMap (seenBytes s s.cur.1 s.cur.2) else ps.flatMap (fun p => rdBytes s.mem p.1 p.2)

/-- The store that the stream which issues posts: pieces of memory with their bytes, or an SPX address and its bytes (R166, R186). -/
def stored (s : State) (x : Acc) (ps : List (Nat × Nat)) (bs : List Byte) (fill : Bool) : Posted where
  core := s.cur.1
  pilot := s.cur.2
  berth := actBerthNo (curCore s)
  gid := (curBerth s).gid
  task := (curBerth s).task
  ord := (curBerth s).ordered
  pieces := if x.space = .spx then [(0, bs)] else dealOut ps bs
  fill := fill
  rel := fill
  addr := x.addr
  pc := pcNow s
  spx := if x.space = .spx then some x.addr else none

/-- A V register named as the data of a block is in its view, and no earlier vector or matrix operation has still to write it. -/
def ViewReady (s : State) (o : Ops) : Prop := vBad s o.d = false ∧ ∀ n, o.d = .v n → enginesIdle s = true

/-- The operands, MOD and operation of each atomic; the operation is formed from a state (R310 to R312). -/
def atomicOf (i : Instr) : Option (Ops × AtomMod × (State → Atom)) :=
  match i with
  | .aadd o m => some (o, m, intAtom .add o m)
  | .amin o m => some (o, m, intAtom .min o m)
  | .amax o m => some (o, m, intAtom .max o m)
  | .aand o m => some (o, m, intAtom .and o m)
  | .aor o m => some (o, m, intAtom .or o m)
  | .axor o m => some (o, m, intAtom .xor o m)
  | .axchg o m => some (o, m, intAtom .xchg o m)
  | .acas o m => some (o, m, intAtom .cas o m)
  | .afadd o m => some (o, m, fun s => { op := .fadd, e := atomSize m true, x := (readSrc o.d s).1, ft := m.ftype })
  | .aredv o m => some (o, m, fun s => { op := .redv, e := atomSize m m.fp, vec := (readVD o.d s).1, fp := m.fp, ft := m.ftype })
  | _ => none

/-- The target of an atomic. -/
def atomTarget (s : State) (o : Ops) (a : Atom) : Except Stop Target × State :=
  target s o .glb a.e (atomLen a) .atom .plain (if a.op = .redv then 3 else 1)

/-- An atomic gets to its bytes in this device: the checks of R309 pass (R293, R309, R314, R318). -/
def AtomReaches (i : Instr) (s : State) (o : Ops) (m : AtomMod) (a : Atom) (g : Target) (ps : List (Nat × Nat)) : Prop :=
  heldRop s = none ∧ (atomTarget s o a).1 = .ok g ∧ g.x.addr.toNat % (if a.op = .redv then 16 else a.e) = 0 ∧ g.bad = none
    ∧ reachCheck s g.x = none ∧ lockCheck s g.x = none ∧ locate s g.x 1 = .ok (.here ps) ∧ atomRules s g.x a m = none
    ∧ atomEmul s g.x a i (tiersOf (.here ps)) = none

/-- The ORDRED region at which an atomic is held: only a float atomic is (R293). -/
def heldFor (s : State) (x : Acc) (a : Atom) : Option Nat := if atomFloat a then (ordredOf s x).map (·.1) else none

/-- Two cores agree but for the lines that their predictors know as lost (R313). -/
def SameButPred (k l : Core) : Prop := { k with pred := [] } = { l with pred := [] }

/-- The operands and MOD of each vector or bit-plane instruction; VRAND has no MOD (R91, R248). -/
def vectorOf (i : Instr) : Option (Ops × VecMod) :=
  match partsOf i with
  | some (_, o, .vec m) => some (o, m)
  | some (.vrand, o, _) => some (o, {})
  | _ => none

/-- It is VRAND, which always draws (R248). -/
def isVrand (i : Instr) : Bool :=
  match i with
  | .vrand _ => true
  | _ => false

/-- A vector instruction passes the checks of R256: its V operands lie in their view, and a plane instruction's width is at
most that of its type. -/
def VectorOk (i : Instr) (s : State) (o : Ops) (m : VecMod) : Prop :=
  vBad s o.d = false ∧ vBad s o.a = false ∧ vBad s o.b = false
    ∧ (∀ c o2 v, partsOf i = some (c, o2, v) → isPlane c = true → effWidth s ≤ vbits (effMod s m).ty)

/-- Element k of 32 bits of a register. -/
def lane (l : List Byte) (k : Nat) : BitVec 32 := BitVec.ofNat 32 (leAt l (4 * k) 4)

/-- Element k, of e bytes, of a source: of the bytes of a register or an entry, or of a scalar that stands for every element (R230, R231). -/
def elemOf (e : Nat) (v : VVal) (k : Nat) : BitVec (8 * e) :=
  match v with
  | .bytes l => BitVec.ofNat (8 * e) (leAt l (e * k) e)
  | .scalar x => x.setWidth (8 * e)

/-- An exact integer in n bits, of a signed or a natural type: clamped to their range under SAT, else wrapped (R205, R206). -/
def narrowTo (sgn sat : Bool) (n : Nat) (x : Int) : BitVec n :=
  if sat = false then BitVec.ofInt n x
  else if sgn then BitVec.ofInt n (max (-(2 ^ (n - 1) : Nat)) (min ((2 ^ (n - 1) : Nat) - 1) x))
  else BitVec.ofInt n (max 0 (min ((2 ^ n : Nat) - 1) x))

/-- A value of a type in 64 bits (R232). -/
def widened (sgn : Bool) (n : Nat) (x : BitVec n) : W64 := if sgn then x.signExtend 64 else x.setWidth 64

/-- The types S8, S16 and S32 are signed (R205). -/
def signedType (t : VType) : Bool := decide (t ∈ [VType.s8, .s16, .s32])

/-- The integer value of an element of a type. -/
def valueIn (t : VType) (x : BitVec (8 * vbytes t)) : Int := reading (signedType t) (8 * vbytes t) x

/-- Of each float format: its canonical NaN, the largest magnitude that is no NaN, and 1.0 (R213, R214). -/
def floatFacts (t : VType) : Option (Nat × Nat × Nat) :=
  match t with
  | .f32 => some (0x7FC00000, 0x7F800000, 0x3F800000)
  | .bf16 => some (0x7FC0, 0x7F80, 0x3F80)
  | .f16 => some (0x7E00, 0x7C00, 0x3C00)
  | .f8a => some (0x7F, 0x7E, 0x38)
  | .f8b => some (0x7E, 0x7C, 0x3C)
  | _ => none

/-- The infinity of a float format; F8A has none (R213). -/
def infinityOf (t : VType) : Option Nat :=
  match t with
  | .f8a => none
  | _ => (floatFacts t).map (·.2.1)

/-- The bits of a float without its sign. -/
def magnitude (n : Nat) (x : BitVec n) : Nat := x.toNat % 2 ^ (n - 1)

/-- A float in the order of R222, in which both zeros are equal: its magnitude with its sign. -/
def floatKey (n : Nat) (x : BitVec n) : Int := if x.msb then -(magnitude n x : Int) else magnitude n x

/-- A float in the order of R223, in which -0 is less than +0. -/
def floatPlace (n : Nat) (x : BitVec n) : Int := if x.msb then -(magnitude n x : Int) - 1 else magnitude n x

/-- The source element of element k of the destination of a conversion; none: it keeps its old value (R245). -/
def sourceOf (m : VecMod) (k : Nat) : Option Nat :=
  let n := 256 / max (vbytes m.ty) (vbytes m.ty2)
  let p := m.func.toNat % 4
  if vbytes m.ty < vbytes m.ty2 then some (p * n + k)
  else if p * n ≤ k ∧ k < p * n + n then some (k - p * n)
  else none

/-- Element j of a stack of w planes of E elements, the top plane first (R208, R250). -/
def stackOf (E w : Nat) (v : VVal) (j : Nat) : BitVec w :=
  match v with
  | .bytes l => BitVec.ofNat w (((List.range w).map (fun p => bitNat ((l.getD (p * (E / 8) + j / 8) 0).getLsbD (j % 8)) * 2 ^ (w - 1 - p))).sum)
  | .scalar x => x.setWidth w

/-- The operands, MOD and kind of each product (R270). -/
def productOf (i : Instr) : Option (Ops × MatMod × MKind) :=
  match i with
  | .mma o m => some (o, m, .mma)
  | .mmaz o m => some (o, m, .mmaz)
  | .mmas o m => some (o, m, .mmas)
  | _ => none

/-- The matrix engine takes an operation: it has not failed, fewer than two of its operations have not started, and the stream's
stores have been performed (R263, R270, R283). -/
def MatrixReady (s : State) : Prop := (curCore s).mat.failed = none ∧ matFull s = false ∧ ownPosted s s.cur.1 s.cur.2 = []

/-- A matrix operation has joined the queue of its core, and its stream goes on. -/
def MatrixQueued (s t : State) (o : Ops) (x : MOp) : Prop :=
  (curCore t).mat.queue = (curCore s).mat.queue ++ [x] ∧ x.berth = actBerthNo (curCore s) ∧ x.started = false ∧ x.ord = (curCore s).opNext
    ∧ ScalarsBut s t [] ∧ PredsBut s t [] ∧ GoesOnAt s t o ∧ OtherUnits s t

/- Steps of the device. -/

/-- A state with the stream of a core as the one that issues. -/
def asStream (s : State) (c : Nat) (pilot : Bool) : State := { s with cur := (c, pilot) }

/-- A fault record of the device is the last one made (R402, R404). -/
def Recorded (s t : State) (code engine eid : Nat) (detail : List Byte) : Prop :=
  t.lastFaults.head? = some (recBytes { code := code, action := actionOf code, engine := engine, eid := eid, wall := s.wall, detail := detail })

/-- A packet for a device is the last that was sent to it and that it has not acknowledged (R349). -/
def Sent (s t : State) (dev : Nat) (body : PktBody) : Prop :=
  ∃ c e, findOut t dev = some c ∧ c.unacked.getLast? = some e ∧ e.pkt.dst = dev ∧ e.pkt.src = selfId s ∧ e.pkt.body = body

/-- An acknowledgement for a device enters the output queue of its port, where that is up (R349). -/
def AckSent (s t : State) (dev : Nat) (seq : BitVec 24) : Prop :=
  let r := routePort s (selfId s) dev 0
  (portOf s r).up = true → ∃ q : Pkt, (portOf t r).queue = (portOf s r).queue ++ [q] ∧ q.dst = dev ∧ q.src = selfId s ∧ q.body = .ack seq (openOps s dev)

/-- A mailbox command has ended with a result (R419, R420). -/
def Answered (t : State) (result : Nat) : Prop := t.fw.busy = false ∧ t.fw.result = BitVec.ofNat 8 result

end Sys2Proof.Claims

section

open Sys2Proof Sys2Proof.Machine Sys2Proof.Claims

/- Encodings. -/

/-- R70 to R106: what an instruction encodes to decodes to it, whatever bytes follow. -/
def Obligations.DecodeOfEncode : Prop :=
  ∀ (i : Instr) (bs rest : List Byte), i.wf = true → encode i = some bs → decode (bs ++ rest) = .ok (i, bs.length)

/-- R70 to R106: what decodes is well formed, and every bit of it but those of UDF is in what it decodes to. -/
def Sys2Proof.Claims.DecodedWordsEncode : Prop :=
  ∀ (bs : List Byte) (i : Instr) (n : Nat), decode bs = .ok (i, n) →
    i.wf = true ∧ n ≤ bs.length ∧ (i ≠ .udf → encode i = some (bs.take n))

/-- R89, R90, R106: a word whose OPC is 0 is UDF; an OPC that no instruction has is refused as an opcode, whatever its other
bits are. -/
def Sys2Proof.Claims.UnassignedOpcodes : Prop :=
  ∀ (bs : List Byte), 12 ≤ bs.length →
    ((bs.getD 0 0).toNat = 0 → decode bs = .ok (.udf, 12))
    ∧ ((bs.getD 0 0).toNat ≠ 0 → (∀ c, (opcCode c).toNat ≠ (bs.getD 0 0).toNat) → decode bs = .error .opcode)

/-- R70, R89, R90, R106: what decodes is well formed and holds every bit of its word; opcodes that no instruction has are refused. -/
def Obligations.DecodingIsExact : Prop := Claims.DecodedWordsEncode ∧ Claims.UnassignedOpcodes

/-- R70, R71, R97, R98, R101, R134, R144: words of the spec's own tables decode to the instructions that stand beside them
there. -/
def Obligations.SpecWords : Prop :=
  decode (parcels [0x80000013, 0x5000093E, 0x00000000]) = .ok (.dlset { a := .i 1000 } { slot := 1, base := true }, 12)
    ∧ decode (parcels [0x31009015, 0x00000900, 0x00000026])
        = .ok (.dlwait { d := .s 9, a := .i 3 } { tb := true, tres := true, pred := 2 }, 12)
    ∧ decode (parcels [0x11010037, 0x00000A00, 0x20000000, 0x00000000, 0x00000100])
        = .ok (.mov { d := .s 16, a := .l64 0x010000000000 }, 20)
    ∧ decode (parcels [0xB101F004, 0x00000903, 0x00000000]) = .ok (.call { d := .s 31, a := .i 59 }, 12)
    ∧ decode (parcels [0x0100A059, 0x3100FB00, 0x00000001])
        = .ok (.stx { d := .s 10, a := .b 0, b := .s 15 } { size := .d, sync := .fill }, 12)
    ∧ decode (parcels [0x11012050, 0xB9000101, 0x00000000])
        = .ok (.lds { d := .s 18, a := .s 17, b := .i 0 } { size := .d, sync := .take }, 12)
    ∧ decode (parcels [0x25001040, 0x29002100, 0x00000000])
        = .ok (.cmp { d := .k 1, a := .s 2, b := .i 2 } { rel := .lt }, 12)
    ∧ decode (parcels [0x00000081, 0x20000000, 0x00000036])
        = .ok (.hbar {} { shape := .quad, trio := { tb := true, tres := true, pred := 3 } }, 12)
    ∧ decode (parcels [0x11016B70, 0x39000B00, 0x00000007])
        = .ok (.aadd { g := { neg := true, prd := 3 }, d := .s 22, a := .b 1, b := .i 0 } { size := .d, ret := true, scope := .device }, 12)
    ∧ decode (parcels [0x51007065, 0x39000100, 0x00000400])
        = .ok (.rst { d := .s 7, a := .s 5, b := .i 0 } { size := .d, tab := true }, 12)
    ∧ decode (parcels [0x21001021, 0x81003100, 0x00000000]) = .error (.encoding 5)
    ∧ decode (parcels [0x17002037, 0x00000100, 0x00000000]) = .error (.operand 7)

/- The step. -/

/-- R66, R67, R83, R384, R396: when the bytes at the program counter of a stream that may issue, lines served and in its graph's code,
decode to an instruction, no STEP is due and no event pends for the stream, and the agenda has the stream issue, the step is that
instruction's meaning for that stream, in the state in which the stream has issued (its sampling counted); the agenda loses the move.
Of the pilot's step, where it traps in the cyc in which the execute stream traps, the execute stream's trap is what remains; and an
instruction of the pilot that leaves the turn to the execute stream's (a deadline slot, R131; the scratchpad, R165, R170) issues after
that one, if it still may. -/
def Sys2Proof.Claims.StepRunsWord : Prop :=
  ∀ (s : State) (c : Nat) (pilot : Bool) (r : List Move) (i : Instr) (bs : List Byte) (n : Nat),
    s.agenda = .issue c pilot :: r → canIssue s c pilot = true → stepDue (coreOf s c) = none →
    (pilot = eventStream s c → eventDue s c = none) → (coreOf s c).sup = false →
    n = bs.length → decode bs = .ok (i, n) →
    gather (streamOf (coreOf s c) pilot) (actBerth (coreOf s c)).pasid (streamOf (coreOf s c) pilot).pc.toNat n = .bytes bs →
    inCode (graphOf s (actBerth (coreOf s c)).gid) (streamOf (coreOf s c) pilot).pc.toNat n = true →
    let s1 : State := { s with agenda := r }
    (pilot = false → step s = exec i (issuing s1 c false))
    ∧ (pilot = true → (canIssue s1 c false && leavesTurn s1 c i) = false →
        ∀ t, exec i (issuing s1 c true) = .next t → step s = .next (yieldTrap s1 t c (trapsNow s1 c false)))
    ∧ (pilot = true → (canIssue s1 c false && leavesTurn s1 c i) = true → ∀ t, issueNow s1 c false = .next t →
        step s = if mayIssue t c true && !heldNow t c true && notYet (coreOf t c) true then issueNow t c true else .next t)

/-- R67, R106, R107: a word that fails steps 1 to 5 makes the step trap, outside regions. A PC outside the graph's code is a
PERMISSION_FAULT; a line that came with a fault gives its code at the address of its first byte; an opcode that no instruction has, an
operand and an encoding that are refused give ILLEGAL_OPCODE, ILLEGAL_OPERAND and ILLEGAL_ENCODING with the FIELD of R106; and the same of
the literal parcels that a word asks for. TRAPPC is the word's own. A line that has not come is asked for, and the stream stays where it
is. -/
def Sys2Proof.Claims.FetchFailuresTrap : Prop :=
  ∀ (s : State) (c : Nat) (pilot : Bool) (r : List Move),
    s.agenda = .issue c pilot :: r → canIssue s c pilot = true → stepDue (coreOf s c) = none →
    (pilot = eventStream s c → eventDue s c = none) → (coreOf s c).sup = false → (coreOf s c).region = none →
    (pilot = true → trapsNow { s with agenda := r } c false = none) →
    let x := streamOf (coreOf s c) pilot
    let pasid := (actBerth (coreOf s c)).pasid
    let inside := fun (n : Nat) => inCode (graphOf s (actBerth (coreOf s c)).gid) x.pc.toNat n = true
    let got := gather x pasid x.pc.toNat
    let Traps := fun (code field : Nat) (a : W64) => ∃ t : State, step s = .next t ∧ (coreOf t c).sup = true
      ∧ (coreOf t c).tcause = BitVec.ofNat 64 code ∧ (coreOf t c).tinfo = BitVec.ofNat 64 field ∧ (coreOf t c).tpc = x.pc ∧ (coreOf t c).taddr = a
      ∧ (coreOf t c).tstream = pilot ∧ t.mem = s.mem
    let Refused := fun (e : DErr) => match e with
      | .opcode => Traps 0x0101 1 x.pc
      | .operand n => Traps 0x0102 n x.pc
      | .encoding n => Traps 0x0103 n x.pc
      | .short => False
    (¬inside 12 → Traps 0x0205 0 x.pc)
    ∧ (inside 12 →
      (∀ code a, got 12 = .trap code a → Traps code 0 (BitVec.ofNat 64 a))
      ∧ (∀ l, got 12 = .missing l →
        ∃ t : State, step s = .next t ∧ (coreOf t c).sup = false ∧ (streamOf (coreOf t c) pilot).pc = x.pc ∧ t.mem = s.mem
          ∧ ((stationOf s (stationNo c)).parked = [] → ∃ q ∈ (clusterOf t (clusterNo c)).reqs, q.fs = fetchNo c pilot ∧ q.pasid = pasid ∧ q.line = l))
      ∧ (∀ w e, got 12 = .bytes w → decode w = .error e → e ≠ .short → Refused e)
      ∧ (∀ w op v n, got 12 = .bytes w → decode w = .error .short → decodeHead (leNat w) = .ok (op, v, n) →
        (¬inside (lenOf n) → Traps 0x0205 0 x.pc)
        ∧ (inside (lenOf n) →
          (∀ code a, got (lenOf n) = .trap code a → Traps code 0 (BitVec.ofNat 64 a))
          ∧ (∀ bs e, got (lenOf n) = .bytes bs → decode bs = .error e → e ≠ .short → Refused e))))

/-- R106, R381, R383: in supervisor mode the step runs the instruction that the supervisor routine's bytes at SUPPC decode to; where they
cannot be read or decode to none, that is a double trap, which fails the graph. That a routine no page maps is the custodian's own copy is
the model's choice (log entry 77). -/
def Sys2Proof.Claims.SupervisorSteps : Prop :=
  ∀ (s : State) (c : Nat) (r : List Move), s.agenda = .issue c false :: r → canIssue s c false = true → (coreOf s c).sup = true →
    let got := supCodes s c (coreOf s c).supPc.toNat
    let gid := (actBerth (coreOf s c)).gid
    (∀ i bs, got bs.length = .ok bs → decode bs = .ok (i, bs.length) → step s = exec i (issuing { s with agenda := r } c false))
    ∧ ((findGraph s gid).isSome = true → (∃ e, got 12 = .error e) ∨ (∃ w e, got 12 = .ok w ∧ decode w = .error e ∧ e ≠ .short) →
      ∃ t : State, step s = .next t ∧ (graphOf t gid).failing = true ∧ (coreOf t c).act = none)

/-- R66, R67, R83, R106, R107, R131, R381, R383, R384, R396: a step runs the word at the program counter, or takes the trap of one that is
refused; and so in supervisor mode. -/
def Obligations.StepRunsDecoded : Prop := Claims.StepRunsWord ∧ Claims.FetchFailuresTrap ∧ Claims.SupervisorSteps

/-- Every row of the opcode table, on a well-formed term, goes on in every state: no word and no step of an engine that
names units of the device ends in a fault or a refusal. Only a host access beyond the memory that is fitted ends in a fault, which is the
model's choice (log entries 8 and 11): the spec does not say what such an access does. -/
def Obligations.EveryRowGoesOn : Prop :=
  ∀ (i : Instr) (s : State), i.wf = true →
    let inside := fun (lpddr : Bool) (addr n : Nat) => decide (addr + n ≤ usable (if lpddr then s.lpddr else s.gddr))
    (match i with
      | .cxlMemWrite lpddr addr bytes =>
        if inside lpddr addr bytes.length then ∃ t : State, exec i s = .next t else exec i s = .fault (.noSuchUnit addr)
      | .cxlMemRead lpddr addr len =>
        if inside lpddr addr len then ∃ t : State, exec i s = .next t else exec i s = .fault (.noSuchUnit addr)
      | _ => ∃ t : State, exec i s = .next t)

/-- R164, R169, R181: every step keeps the three memories in canonical form (the model's own invariant). -/
def Obligations.StepKeepsCanonicalMemory : Prop :=
  ∀ (s t : State), Safety.CanonicalMemory s → step s = .next t → Safety.CanonicalMemory t

/-- The memories after reset are in canonical form. -/
def Obligations.ResetHasCanonicalMemory : Prop := Safety.CanonicalMemory State.reset

/-- R343, R358, R406, R407, R420, R424: what power-on reset leaves. It gives phase 1, cause 1 and the parameters their reset values,
whatever the state before. That every register of a core holds its first value, where the spec states none, is the model's choice (log
entry 1, and log entry 2 for SEED). -/
def Obligations.PowerOnReset : Prop :=
  ∀ s : State, ∃ t : State, exec .powerOnReset s = .next t
    ∧ t.fw.phase = 1 ∧ t.fw.first = 1 ∧ t.fw.also = 0 ∧ t.fw.rcode = 0 ∧ t.fw.busy = false ∧ t.fw.result = 0
    ∧ t.fw.rackctx = 15 ∧ t.fw.tmig = 95 ∧ t.fw.s0 = 3 ∧ t.fw.ubtow = 100000 ∧ t.fw.rllim = 1000000 ∧ t.power.fwmax = 780
    ∧ t.fw.allow = [] ∧ t.fw.pmbase = 0 ∧ t.fw.pmvalid = false ∧ t.fabric.reachto = 200000
    ∧ (∀ c, coreOf t c = {}) ∧ (∀ c, (coreOf t c).tabexp = 50000) ∧ t.graphs = [] ∧ t.posted = [] ∧ t.transit = []
    ∧ (∀ a, a < hostBase → rdByte t.mem a = 0)

/- Guards, checks and traps. -/

/-- R72: a word whose guard is false, and which passes step 6, has no effect: the stream only goes to the next instruction,
and consumes a pending prefix, which is read from R139 (the model's choice: log entry 49). -/
def Obligations.FalseGuardHasNoEffect : Prop :=
  ∀ (i : Instr) (m : Meaning) (s : State), meaningOf i = some m → check6 s m.o m.perm m.dRead = none → guardOk s m.o.g = false →
    (supNow s || decide ((curCore s).stepping &&& stepBit s.cur.2 = 0)) = true →
    ∃ t : State, exec i s = .next t ∧ pcNow t = following s m.o ∧ waitNow t = none ∧ Frame s t ∧ ScalarsBut s t [] ∧ PredsBut s t []
      ∧ (curCore t).q = (curCore s).q ∧ (curCore t).act = (curCore s).act ∧ (curStream t).pp = false

/-- R381, R382: entry to the supervisor routine from user mode, outside a region, in an irrevocable one, or by the pilot stream. That TLAST
goes to a shadow with PP and PFXV is the model's choice (log entry 67). -/
def Obligations.TrapEntry : Prop :=
  ∀ (s : State) (c : Nat) (pilot : Bool) (pc : W64) (t : TrapIn), (coreOf s c).sup = false →
    (pilot = true ∨ ∀ r, (coreOf s c).region = some r → r.irrevocable = true) →
    let u := takeTrap s c pilot pc t
    (coreOf u c).sup = true ∧ (coreOf u c).supPc = Config.supEntry
      ∧ (coreOf u c).tcause = BitVec.ofNat 64 (t.code + (if t.async then 2 ^ 16 else 0)) ∧ (coreOf u c).tpc = pc
      ∧ (∀ a : W64, t.addr = some a → (coreOf u c).taddr = a) ∧ (coreOf u c).tinfo = t.info ∧ (coreOf u c).tstream = pilot
      ∧ (coreOf u c).ex.pp = false ∧ (coreOf u c).pi.pp = false
      ∧ (coreOf u c).ex.shPp = (coreOf s c).ex.pp ∧ (coreOf u c).pi.shPp = (coreOf s c).pi.pp
      ∧ (coreOf u c).ex.s = (coreOf s c).ex.s ∧ (coreOf u c).pi.s = (coreOf s c).pi.s
      ∧ (coreOf u c).supS = (coreOf s c).supS ∧ (coreOf u c).supK = (coreOf s c).supK
      ∧ (coreOf u c).ex.shPfxv = (coreOf s c).ex.pfxv ∧ (coreOf u c).pi.shPfxv = (coreOf s c).pi.pfxv
      ∧ (coreOf u c).ex.pfxv = (coreOf s c).ex.pfxv ∧ (coreOf u c).pi.pfxv = (coreOf s c).pi.pfxv
      ∧ (coreOf u c).ex.shTlast = (coreOf s c).ex.tlast ∧ (coreOf u c).pi.shTlast = (coreOf s c).pi.tlast
      ∧ (coreOf u c).ex.pc = (coreOf s c).ex.pc ∧ (coreOf u c).pi.pc = (coreOf s c).pi.pc
      ∧ (coreOf u c).ex.wait = none ∧ (coreOf u c).pi.wait = none ∧ (coreOf u c).stepping = 0
      ∧ (coreOf u c).region.isSome = (coreOf s c).region.isSome ∧ u.copies = s.copies
      ∧ (t.mat = false → (coreOf u c).mat.queue = (coreOf s c).mat.queue ∧ ∀ d, d ≠ c → coreOf u d = coreOf s d)
      ∧ u.mem = s.mem ∧ u.graphs = s.graphs

/-- R90, R138, R388: UDF, TRAP and SYSCALL are their traps. UDF traps ILLEGAL_OPCODE whatever the mode allows; TRAP traps
USER_TRAP with its operand as information; SYSCALL traps with its two operands as information and address. TRAPPC is the
instruction's own. -/
def Obligations.TrappingInstructions : Prop :=
  ∀ (s : State), (curCore s).sup = false → (curCore s).region = none →
    (∃ t : State, exec .udf s = .next t ∧ (curCore t).sup = true ∧ (curCore t).tcause = 0x0101 ∧ (curCore t).tinfo = 1
      ∧ (curCore t).tpc = pcNow s ∧ (curCore t).taddr = pcNow s)
    ∧ (∀ o, ready (.trap o) s = true →
        ∃ t : State, exec (.trap o) s = .next t ∧ (curCore t).sup = true ∧ (curCore t).tcause = 0x0112
          ∧ (curCore t).tinfo = (readSrc o.a s).1 ∧ (curCore t).tpc = pcNow s)
    ∧ (∀ o, ready (.syscall o) s = true →
        ∃ t : State, exec (.syscall o) s = .next t ∧ (curCore t).sup = true ∧ (curCore t).tcause = 0x0113
          ∧ (curCore t).tinfo = (readSrc o.a s).1 ∧ (curCore t).taddr = (readSrc o.b (readSrc o.a s).2).1 ∧ (curCore t).tpc = pcNow s)

/-- R106, R107: a word that step 6 denies traps with the code and field of the first failing check, before its guard is
looked at. -/
def Sys2Proof.Claims.DeniedWordsTrap : Prop :=
  ∀ (i : Instr) (m : Meaning) (s : State) (code field : Nat), meaningOf i = some m → (curCore s).sup = false → (curCore s).region = none →
    check6 s m.o m.perm m.dRead = some (code, field) →
    ∃ t : State, exec i s = .next t ∧ (curCore t).sup = true ∧ (curCore t).tcause = BitVec.ofNat 64 code
      ∧ (curCore t).tinfo = BitVec.ofNat 64 field ∧ (curCore t).tpc = pcNow s ∧ (curCore t).taddr = pcNow s ∧ t.mem = s.mem
      ∧ (curCore t).ex.s = (curCore s).ex.s ∧ (curCore t).ex.k = (curCore s).ex.k

/-- R92, R105 (codes of R405): an instruction of the supervisor group in user mode is PRIVILEGED, unless it names a queue or channel that
its stream may not, which is checked first; one of the other stream's is STREAM_VIOLATION. -/
def Sys2Proof.Claims.ModesAndStreams : Prop :=
  ∀ (i : Instr) (m : Meaning) (s : State), meaningOf i = some m →
    (m.perm = .supervisor → s.cur.2 = true → check6 s m.o m.perm m.dRead = some (0x0104, 10))
    ∧ (m.perm = .supervisor → s.cur.2 = false → (curCore s).sup = false →
        check6 s m.o m.perm m.dRead
          = if srcDenied false false m.o.a || srcDenied false false m.o.b
              || (if m.dRead then srcDenied false false m.o.d else dstDenied false false m.o.d) then some (0x0104, 10) else some (0x0105, 11))
    ∧ (m.perm = .execute → s.cur.2 = true → check6 s m.o m.perm m.dRead = some (0x0104, 10))
    ∧ (m.perm = .pilot → s.cur.2 = false → check6 s m.o m.perm m.dRead = some (0x0104, 10))

/-- R92, R105 to R107: what step 6 denies traps, and which words a mode and a stream deny. -/
def Obligations.DeniedInstructions : Prop := Claims.DeniedWordsTrap ∧ Claims.ModesAndStreams

/-- R389, R154: the return from a trap. User mode is restored, the trapped stream stands at TRAPPC, the prefixes come back. That TLAST comes
back with them, as R154 lists it and R389 does not, is the model's choice (log entry 67). -/
def Obligations.TrapReturn : Prop :=
  ∀ (s : State) (o : Ops), issues (.tret o) s = true → (curCore s).tpc.toNat % 4 = 0 →
    ∃ t : State, exec (.tret o) s = .next t ∧ (curCore t).sup = false
      ∧ (streamOf (curCore t) (curCore s).tstream).pc = (curCore s).tpc
      ∧ (streamOf (curCore t) (!(curCore s).tstream)).pc = (streamOf (curCore s) (!(curCore s).tstream)).pc
      ∧ (curCore t).ex.pp = (curCore s).ex.shPp ∧ (curCore t).pi.pp = (curCore s).pi.shPp
      ∧ (curCore t).ex.pfxv = (curCore s).ex.shPfxv ∧ (curCore t).pi.pfxv = (curCore s).pi.shPfxv
      ∧ (curCore t).ex.tlast = (curCore s).ex.shTlast ∧ (curCore t).pi.tlast = (curCore s).pi.shTlast
      ∧ (curCore t).ex.s = (curCore s).ex.s ∧ (curCore t).ex.k = (curCore s).ex.k ∧ (curCore t).pi.s = (curCore s).pi.s
      ∧ (curCore t).stepping = (if (curCore s).stepped = 0 then (curCore s).step else 0) ∧ (curCore t).tcause = (curCore s).tcause ∧ OtherUnits s t

/- The scalar group. -/

/-- R150, R152: the value of every two-source instruction, in every operand form; it goes on at the next instruction. -/
def Obligations.TwoSourceResults : Prop :=
  ∀ (i : Instr) (s : State) (o : Ops) (zx w : Bool) (f : W64 → W64 → W64), i.wf = true → twoSource i = some (o, zx, w, f) → ready i s = true →
    ∃ t : State, exec i s = .next t
      ∧ Result s t o.d (f (readSrcW o.a zx w s).1 (readSrcW o.b zx w (readSrcW o.a zx w s).2).1)
      ∧ PredsBut s t [] ∧ pcNow t = following s o ∧ waitNow t = none ∧ Frame s t

/-- R152: the value of every one-source instruction. -/
def Sys2Proof.Claims.OneSourceResults : Prop :=
  ∀ (i : Instr) (s : State) (o : Ops) (w : Bool) (f : W64 → W64), i.wf = true → oneSource i = some (o, w, f) → ready i s = true →
    ∃ t : State, exec i s = .next t ∧ Result s t o.d (f (readSrcW o.a false w s).1)
      ∧ PredsBut s t [] ∧ pcNow t = following s o ∧ waitNow t = none ∧ Frame s t

/-- R152: SEL chooses by the old value of its destination; both sources are consumed. -/
def Sys2Proof.Claims.SelectResult : Prop :=
  ∀ (s : State) (o : Ops) (n : BitVec 6), o.d = .s n → ready (.sel o) s = true →
    ∃ t, exec (.sel o) s = .next t
      ∧ Result s t o.d (if readS s n ≠ 0 then (readSrc o.a s).1 else (readSrc o.b (readSrc o.a s).2).1)
      ∧ PredsBut s t [] ∧ pcNow t = following s o ∧ waitNow t = none ∧ Frame s t

/-- R152: the one-source instructions and SEL. -/
def Obligations.OneSourceAndSelectResults : Prop := Claims.OneSourceResults ∧ Claims.SelectResult

/-- R158: PTOS writes a predicate as a number. -/
def Sys2Proof.Claims.PtosResult : Prop :=
  ∀ (s : State) (o : Ops), ready (.ptos o) s = true →
    ∃ t, exec (.ptos o) s = .next t ∧ Result s t o.d (if readPred o.a s then 1 else 0)
      ∧ PredsBut s t [] ∧ pcNow t = following s o ∧ waitNow t = none ∧ Frame s t

/-- R158: CMP and TST combine their truth into the destination predicate; k0 discards it. CMP is stated outside a region
whose constraints it would overflow (R324). -/
def Sys2Proof.Claims.CompareResults : Prop :=
  ∀ (i : Instr) (s : State) (o : Ops) (m : CmpMod), (i = .cmp o m ∧ cmpOverflow o s = false) ∨ (i = .tst o m ∧ (m.rel = .eq ∨ m.rel = .ne)) → ready i s = true →
    let zx := decide (i = .tst o m)
    let a := readSrcW o.a zx m.w s
    let b := readSrcW o.b zx m.w a.2
    let old := readPred o.d s
    let c := compared i a.1 b.1
    ∃ t : State, exec i s = .next t
      ∧ PredResult s t o.d (match m.comb with | .set => c | .and => old && c | .or => old || c)
      ∧ ScalarsBut s t [] ∧ pcNow t = following s o ∧ waitNow t = none ∧ Frame s t

/-- R158: the predicate instructions. -/
def Sys2Proof.Claims.PredicateResults : Prop :=
  ∀ (i : Instr) (s : State) (o : Ops) (f : Bool → Bool → Bool), predValue i = some (o, f) → issues i s = true →
    ∃ t : State, exec i s = .next t ∧ PredResult s t o.d (f (readPred o.a s) (readPred o.b s))
      ∧ ScalarsBut s t [] ∧ pcNow t = following s o ∧ waitNow t = none ∧ Frame s t

/-- R158: compares, predicate instructions and PTOS. -/
def Obligations.PredicateInstructions : Prop := Claims.PtosResult ∧ Claims.CompareResults ∧ Claims.PredicateResults

/- Control. -/

/-- R133, R134: NOP has no effect; BR and CALL go to PC + 4 × offset, CALL with the next PC as its link; BRX and RET go to
an address that is a multiple of 4. -/
def Sys2Proof.Claims.Branches : Prop :=
  ∀ (s : State) (o : Ops),
    (issues (.nop o) s = true → ∃ t : State, exec (.nop o) s = .next t ∧ pcNow t = following s o ∧ ScalarsBut s t [] ∧ PredsBut s t []
      ∧ (curCore t).q = (curCore s).q ∧ (curCore t).act = (curCore s).act ∧ waitNow t = none ∧ Frame s t)
    ∧ (ready (.br o) s = true → ∃ t : State, exec (.br o) s = .next t ∧ pcNow t = pcNow s + 4 * (readSrc o.a s).1 ∧ ScalarsBut s t [] ∧ PredsBut s t []
      ∧ waitNow t = none ∧ Frame s t)
    ∧ (ready (.call o) s = true → ∃ t : State, exec (.call o) s = .next t ∧ pcNow t = pcNow s + 4 * (readSrc o.a s).1
      ∧ Result s t o.d (following s o) ∧ PredsBut s t [] ∧ waitNow t = none ∧ Frame s t)
    ∧ (∀ i, i = .brx o ∨ i = .ret o → ready i s = true → (readSrc o.a s).1.toNat % 4 = 0 →
        ∃ t : State, exec i s = .next t ∧ pcNow t = (readSrc o.a s).1 ∧ ScalarsBut s t [] ∧ PredsBut s t [] ∧ waitNow t = none ∧ Frame s t)

/-- R134: BRX and RET to an address that is no multiple of 4 trap MISALIGNED with the target as information. -/
def Sys2Proof.Claims.MisalignedJumps : Prop :=
  ∀ (s : State) (o : Ops) (i : Instr), i = .brx o ∨ i = .ret o → (curCore s).sup = false → (curCore s).region = none →
    ready i s = true → (readSrc o.a s).1.toNat % 4 ≠ 0 →
    ∃ t : State, exec i s = .next t ∧ (curCore t).sup = true ∧ (curCore t).tcause = 0x0206 ∧ (curCore t).tinfo = (readSrc o.a s).1
      ∧ (curCore t).tpc = pcNow s

/-- R134: BRDEC counts its register down modulo 2^64 and branches unless it is then 0. -/
def Sys2Proof.Claims.CountedBranch : Prop :=
  ∀ (s : State) (o : Ops) (n : BitVec 6), o.d = .s n → ready (.brdec o) s = true →
    ∃ t : State, exec (.brdec o) s = .next t ∧ readS t n = readS s n - 1 ∧ ScalarsBut s t [n] ∧ PredsBut s t []
      ∧ pcNow t = (if readS s n - 1 ≠ 0 then pcNow s + 4 * (readSrc o.a s).1 else following s o) ∧ waitNow t = none ∧ Frame s t

/-- R133, R134: NOP, the branches, calls and returns, their trap, and BRDEC. -/
def Obligations.ControlTransfers : Prop := Claims.Branches ∧ Claims.MisalignedJumps ∧ Claims.CountedBranch

/-- R119, R135, R283: STEER pushes the token CODE + 4 × offset; FOLLOW pops the oldest token, one of an earlier cyc whose pusher's stores
have been performed, and continues there. -/
def Obligations.SteerAndFollow : Prop :=
  ∀ (s : State) (o : Ops) (n : BitVec 4),
    (o.d = .q n → ready (.steer o) s = true →
      ∃ t : State, exec (.steer o) s = .next t ∧ qGet (curCore t) n = qGet (curCore s) n ++ [.token ((curGraph s).code + 4 * (readSrc o.a s).1)]
        ∧ pcNow t = following s o ∧ ScalarsBut s t [] ∧ PredsBut s t [] ∧ waitNow t = none ∧ Frame s t)
    ∧ (∀ pc l, o.a = .q n → qGet (curCore s) n = .token pc :: l → qReady (curCore s) n ≠ 0 → pusherStores s = false → issues (.follow o) s = true →
      ∃ t : State, exec (.follow o) s = .next t ∧ qGet (curCore t) n = l ∧ pcNow t = pc ∧ ScalarsBut s t [] ∧ PredsBut s t [] ∧ waitNow t = none ∧ Frame s t)

/-- R139, R141: PFX sets PP and PFXV. -/
def Sys2Proof.Claims.PrefixIsPending : Prop :=
  ∀ (s : State) (o : Ops) (m : PfxMod), (PfxMod.width m).toNat ≤ 16 → issues (.pfx o m) s = true →
    ∃ t : State, exec (.pfx o m) s = .next t ∧ (curStream t).pp = true ∧ (curStream t).pfxv = BitVec.ofNat 16 (modCode (.pfx m))
      ∧ pcNow t = following s o ∧ ScalarsBut s t [] ∧ PredsBut s t [] ∧ waitNow t = none ∧ OtherUnits s t

/-- R114: RETIRE and FINISH stop their stream once the engines are idle, no delivery is outstanding and no gang has failed;
FINISH, and RETIRE in an ordered task, mark the activation. -/
def Sys2Proof.Claims.StreamsEnd : Prop :=
  ∀ (s : State) (o : Ops) (i : Instr), i = .retire o ∨ i = .finish o → issues i s = true → supNow s = false → explicitOpen s = false →
    (s.cur.2 = true ∨ (enginesIdle s = true ∧ sendsDone s s.cur.1 = true ∧ (curCore s).mat.failed = none)) →
    ∃ t : State, exec i s = .next t ∧ (curStream t).stopped = true ∧ streamOf (curCore t) (!s.cur.2) = streamOf (curCore s) (!s.cur.2)
      ∧ (curCore t).act = (curCore s).act.map (fun a => { a with finish := a.finish || decide (i = .finish o) || (curBerth s).ordered })
      ∧ ScalarsBut s t [] ∧ OtherUnits s t

/-- R114, R136, R139, R141: PFX, RETIRE and FINISH. -/
def Obligations.PrefixAndStreamEnds : Prop := Claims.PrefixIsPending ∧ Claims.StreamsEnd

/- Time. -/

/-- R144: WAITC and WAITW of 0, and REALIGN alone in its cluster, go on. -/
def Sys2Proof.Claims.CountsPassed : Prop :=
  ∀ (s : State) (o : Ops) (i : Instr),
    ((i = .waitc o ∧ (readSrc o.a s).1 = 0) ∨ (i = .waitw o ∧ (readSrc o.a s).1 = 0)
      ∨ (i = .realign o ∧ realignPeers s s.cur.1 s.cur.2 = [])) → ready i s = true →
    ∃ t : State, exec i s = .next t ∧ pcNow t = following s o ∧ ScalarsBut s t [] ∧ PredsBut s t [] ∧ waitNow t = none ∧ Frame s t

/-- R137, R144: a count that has not passed holds the stream at its instruction, which has had no effect. -/
def Sys2Proof.Claims.CountsHold : Prop :=
  ∀ (s : State) (o : Ops) (i : Instr),
    ((i = .waitc o ∧ (readSrc o.a s).1 ≠ 0) ∨ (i = .waitw o ∧ (readSrc o.a s).1 ≠ 0)
      ∨ (i = .realign o ∧ (readSrc o.a s).1 ≠ 0 ∧ realignPeers s s.cur.1 s.cur.2 ≠ [])) → waitNow s = none → ready i s = true →
    ∃ t : State, exec i s = .next t ∧ pcNow t = pcNow s ∧ (waitNow t).map (·.instr) = some i ∧ ScalarsBut s t [] ∧ PredsBut s t []
      ∧ (curCore t).q = (curCore s).q ∧ (curCore t).act = (curCore s).act ∧ Frame s (samePlace s t)

/-- R137, R144: WAITC, WAITW and REALIGN, whose count is 0 or still to pass. -/
def Obligations.CountedWaits : Prop := Claims.CountsPassed ∧ Claims.CountsHold

/-- R131, R144: RDTS, DLSET, DLTEST, and DLWAIT where a slot of its mask has fired or none is armed; the pilot's takes a slot that the
execute stream's DLWAIT does not take. -/
def Obligations.TimeResults : Prop :=
  ∀ (s : State) (o : Ops),
    (∀ n, o.d = .s n → n ≠ 63 → issues (.rdts o) s = true →
      ∃ t : State, exec (.rdts o) s = .next t ∧ readS t n = BitVec.ofNat 64 (cycOf s s.cur.1) ∧ readS t (n + 1) = BitVec.ofNat 64 (edgeOf s s.cur.1)
        ∧ ScalarsBut s t [n, n + 1] ∧ PredsBut s t [] ∧ pcNow t = following s o ∧ waitNow t = none ∧ Frame s t)
    ∧ (∀ m, ready (.dlset o m) s = true →
      let n := (readSrc o.a s).1.toNat
      let target := min (if m.base = false then cycOf s s.cur.1 + n else if m.abs = false then s.wall + n else n) (2 ^ 60 - 1)
      ∃ t : State, exec (.dlset o m) s = .next t ∧ dlTarget (dlGet (curCore t) m.slot) = target ∧ dlArmed (dlGet (curCore t) m.slot) = true
        ∧ dlFired (dlGet (curCore t) m.slot) = false ∧ dlSeen (dlGet (curCore t) m.slot) = false
        ∧ dlBase (dlGet (curCore t) m.slot) = m.base ∧ (∀ j, j ≠ m.slot → dlGet (curCore t) j = dlGet (curCore s) j)
        ∧ ScalarsBut s t [] ∧ PredsBut s t [] ∧ pcNow t = following s o ∧ OtherUnits s t)
    ∧ (∀ m, issues (.dltest o m) s = true →
      let f := dlArmed (dlGet (curCore s) m.slot) && dlFired (dlGet (curCore s) m.slot)
      ∃ t : State, exec (.dltest o m) s = .next t ∧ PredResult s t (.k m.pred) f
        ∧ dlSeen (dlGet (curCore t) m.slot) = (f || dlSeen (dlGet (curCore s) m.slot))
        ∧ dlArmed (dlGet (curCore t) m.slot) = dlArmed (dlGet (curCore s) m.slot)
        ∧ ScalarsBut s t [] ∧ pcNow t = following s o ∧ OtherUnits s t)
    ∧ (∀ m : Trio, ready (.dlwait o m) s = true → dlOf (curCore s) ((readSrc o.a s).1.toNat % 16) = [] →
      ∃ t : State, exec (.dlwait o m) s = .next t ∧ Result s t o.d (BitVec.allOnes 64) ∧ (m.tres = true → PredResult s t (.k m.pred) true)
        ∧ pcNow t = following s o ∧ OtherUnits s t)
    ∧ (∀ (m : Trio) (j : BitVec 2), ready (.dlwait o m) s = true → dlFirst (curCore s) (dlHit (curCore s) ((readSrc o.a s).1.toNat % 16)) = some j →
      (s.cur.2 = true → exTakes s j = false) →
      ∃ t : State, exec (.dlwait o m) s = .next t ∧ Result s t o.d (j.setWidth 64) ∧ dlArmed (dlGet (curCore t) j) = false
        ∧ dlSeen (dlGet (curCore t) j) = true ∧ (m.tres = true → PredResult s t (.k m.pred) true) ∧ pcNow t = following s o ∧ OtherUnits s t)

/- Control registers. -/

/-- R82, R153: MFX reads every control register the mode may read. -/
def Sys2Proof.Claims.ControlRegisterRead : Prop :=
  ∀ (s : State) (o : Ops) (r : CtlReg), o.a = .x r → ready (.mfx o) s = true → (accessOf r ≠ .none ∨ supNow s = true) → ctlWaits s r = false →
    ∃ t : State, exec (.mfx o) s = .next t ∧ Result s t o.d (readCtl s r) ∧ PredsBut s t [] ∧ pcNow t = following s o ∧ waitNow t = none ∧ Frame s t

/-- R82, R154, R155: a value that MTX writes and the register's map allows is what MFX then reads; FPFLAGS and ACCSAT lose
the bits written 1. -/
def Sys2Proof.Claims.ControlRegisterWrite : Prop :=
  ∀ (s : State) (o : Ops) (r : CtlReg), o.d = .x r → ready (.mtx o) s = true →
    (accessOf r = .rw ∨ accessOf r = .w1c ∨ (accessOf r = .none ∧ supNow s = true)) → ctlValueOk r (readSrc o.a s).1.toNat = true → ctlWaits s r = false →
    ∃ t : State, exec (.mtx o) s = .next t
      ∧ readCtl t r = (if accessOf r = .w1c then readCtl s r &&& ~~~(readSrc o.a s).1 else (readSrc o.a s).1)
      ∧ ScalarsBut s t [] ∧ PredsBut s t [] ∧ pcNow t = following s o ∧ waitNow t = none ∧ OtherUnits s t

/-- R82, R154, R155: MTX of a register that is read-only, or of a value its map does not allow, traps; MFX and MTX of a trap
register in user mode trap PRIVILEGED. The FIELD 8 in TRAPINFO of a value that is not allowed is the model's choice (log entry 88). -/
def Sys2Proof.Claims.ControlRegisterTraps : Prop :=
  ∀ (s : State) (o : Ops) (r : CtlReg), (curCore s).sup = false → (curCore s).region = none →
    (o.a = .x r → accessOf r = .none → ready (.mfx o) s = true →
      ∃ t : State, exec (.mfx o) s = .next t ∧ (curCore t).tcause = 0x0105 ∧ (curCore t).tpc = pcNow s ∧ t.mem = s.mem)
    ∧ (o.d = .x r → (accessOf r = .none ∨ accessOf r = .ro) → ready (.mtx o) s = true →
      ∃ t : State, exec (.mtx o) s = .next t ∧ (curCore t).tcause = 0x0105 ∧ (curCore t).tpc = pcNow s ∧ t.mem = s.mem)
    ∧ (o.d = .x r → (accessOf r = .rw ∨ accessOf r = .w1c) → ctlValueOk r (readSrc o.a s).1.toNat = false → ready (.mtx o) s = true →
      ∃ t : State, exec (.mtx o) s = .next t ∧ (curCore t).tcause = 0x0102 ∧ (curCore t).tinfo = 8 ∧ (curCore t).tpc = pcNow s ∧ t.mem = s.mem)

/-- R82, R153 to R155: MFX and MTX. -/
def Obligations.ControlRegisters : Prop := Claims.ControlRegisterRead ∧ Claims.ControlRegisterWrite ∧ Claims.ControlRegisterTraps

/- Loads and stores. -/

/-- R172, R182, R185, R186: a scalar load that passes its checks, whose bytes lie in this device outside the buffer of a
region, and whose SYNC condition holds: OPD takes the bytes, sign-extended under SX; TAKE leaves the granules empty; no byte of
memory changes. A plain load sees the stream's own stores over memory. -/
def Sys2Proof.Claims.ScalarLoads : Prop :=
  ∀ (i : Instr) (s : State) (o : Ops) (m : MemMod) (spc : Space) (g : Target) (ps : List (Nat × Nat)),
    i.wf = true → scalarLoad i = some (o, m, spc) → ready i s = true → Safety.CanonicalMemory s →
    Reaches s o m spc (sizeBytes m.size) (sizeBytes m.size) true false g ps → SyncMet s m ps → (granules ps).all (fun x => !isBad s x) = true →
    let bs := foundBytes s m ps
    ∃ t : State, exec i s = .next t
      ∧ Result s t o.d (if m.sx then sextTo64 (8 * bs.length) (leNat bs) else leW64 bs)
      ∧ (if m.sync = .plain then PredsBut s t [] else TrioPred s t m.trio)
      ∧ t.mem = s.mem ∧ t.bad = s.bad ∧ t.posted = s.posted
      ∧ (∀ x, feGet t x = if m.sync = .take ∧ x ∈ granules ps then false else feGet s x)
      ∧ GoesOnAt s t o ∧ CoreFrame s t

/-- R172, R182, R185, R186: a block load: 256 bytes reach a V register, or enter a queue; SX does not matter. -/
def Sys2Proof.Claims.BlockLoads : Prop :=
  ∀ (i : Instr) (s : State) (o : Ops) (m : MemMod) (spc : Space) (g : Target) (ps : List (Nat × Nat)),
    i.wf = true → blockLoad i = some (o, m, spc) → ready i s = true → Safety.CanonicalMemory s → ViewReady s o →
    Reaches s o m spc 256 16 true true g ps → SyncMet s m ps → (granules ps).all (fun x => !isBad s x) = true →
    ∃ t : State, exec i s = .next t ∧ BlockResult s t o.d (foundBytes s m ps)
      ∧ ScalarsBut s t [] ∧ (if m.sync = .plain then PredsBut s t [] else TrioPred s t m.trio)
      ∧ t.bad = s.bad ∧ t.posted = s.posted
      ∧ (∀ x, feGet t x = if m.sync = .take ∧ x ∈ granules ps then false else feGet s x)
      ∧ GoesOnAt s t o ∧ CoreFrame s t

/-- R172, R182, R185, R186: the scalar and the block loads. -/
def Obligations.LoadsComplete : Prop := Claims.ScalarLoads ∧ Claims.BlockLoads

/-- R186, R284: a PLAIN or FILL store, and any SPX store but a PUT, outside regions: it joins the posted stores as their last, with the
pieces and bytes that STORE_LANDING writes, and the stream goes on. No byte of memory changes yet. -/
def Sys2Proof.Claims.PostedStores : Prop :=
  ∀ (i : Instr) (s : State) (o : Ops) (m : MemMod) (spc : Space) (n align : Nat) (block : Bool) (g : Target) (ps : List (Nat × Nat)),
    i.wf = true → storeOf i = some (o, m, spc, n, align, block) → (m.sync = .plain ∨ m.sync = .fill) → ready i s = true →
    ViewReady s o →
    Reaches s o m spc n align false block g ps → isRegionAcc s g.x = false →
    let d := (storeData o block n (target s o spc (2 ^ m.scale.toNat) n (syncKind false m.sync) m.sync (loadEng s block)).2).1
    ∃ t : State, exec i s = .next t
      ∧ t.posted = s.posted ++ [stored s g.x ps d (decide (m.sync = .fill))]
      ∧ t.mem = s.mem ∧ t.fe = s.fe ∧ t.bad = s.bad ∧ ScalarsBut s t [] ∧ TrioPred s t m.trio ∧ GoesOnAt s t o ∧ CoreFrame s t

/-- R169, R170, R186: a PUT store whose granules are all empty, whose turn it is there, and whose stream has no store under way, is
performed at once: it writes its bytes and leaves the granules full. -/
def Sys2Proof.Claims.PutStores : Prop :=
  ∀ (i : Instr) (s : State) (o : Ops) (m : MemMod) (spc : Space) (n align : Nat) (block : Bool) (g : Target) (ps : List (Nat × Nat)),
    i.wf = true → storeOf i = some (o, m, spc, n, align, block) → m.sync = .put → ready i s = true → Safety.CanonicalMemory s →
    ViewReady s o → Reaches s o m spc n align false block g ps → ps ≠ [] →
    ownPosted s s.cur.1 s.cur.2 = [] → syncTurn s .put (granules ps) = true → (granules ps).all (fun x => !isBad s x) = true →
    let d := (storeData o block n (target s o spc (2 ^ m.scale.toNat) n (syncKind false m.sync) m.sync (loadEng s block)).2).1
    ∃ t : State, exec i s = .next t
      ∧ t.mem = (dealOut ps d).foldl (fun u p => wrBytes u p.1 p.2) s.mem
      ∧ (∀ a, (∀ p ∈ ps, a < p.1 ∨ p.1 + p.2 ≤ a) → rdByte t.mem a = rdByte s.mem a)
      ∧ (∀ x, feGet t x = (decide (x ∈ granules ps) || feGet s x)) ∧ t.bad = s.bad ∧ t.posted = s.posted
      ∧ ScalarsBut s t [] ∧ TrioPred s t m.trio ∧ GoesOnAt s t o ∧ CoreFrame s t

/-- R169, R186, R284: the stores that are posted, and the PUT stores. -/
def Obligations.StoresIssue : Prop := Claims.PostedStores ∧ Claims.PutStores

/-- R284, R186: STORE_LANDING performs a posted store that no earlier one of its stream holds back: its bytes stand in memory,
no other byte has changed, a FILL leaves its granules full, and the streams that wait are then tested again. Before that nothing else of
the device changes but which lines the station caches hold dirty. -/
def Obligations.StoresLand : Prop :=
  ∀ (s : State) (k : Nat) (p : Posted), Safety.CanonicalMemory s → s.posted[k]? = some p → p.atom = none → p.spx = none →
    mayLand s k p = true → (granules (p.pieces.map (fun x => (x.1, x.2.length)))).all (fun x => !isBad s x) = true →
    p.pieces.Pairwise (fun x y => x.1 + x.2.length ≤ y.1 ∨ y.1 + y.2.length ≤ x.1) →
    ∃ u : State, exec (.storeLanding k) s = .next (retestAll u) ∧ u.posted = s.posted.eraseIdx k ∧ u.cores = s.cores
      ∧ (∀ x ∈ p.pieces, ∀ j (h : j < x.2.length), rdByte u.mem (x.1 + j) = x.2[j])
      ∧ (∀ a, (∀ x ∈ p.pieces, a < x.1 ∨ x.1 + x.2.length ≤ a) → rdByte u.mem a = rdByte s.mem a)
      ∧ (∀ x, feGet u x = ((p.fill && decide (x ∈ granules (p.pieces.map (fun y => (y.1, y.2.length))))) || feGet s x))
      ∧ { u with posted := s.posted, mem := s.mem, fe := s.fe, dirty := s.dirty } = s

/-- R185, R381: a load, a store or a block transfer that fails a check of steps 1 to 3 of R185 (alignment, reach, table) traps with that
check's code and address, before anything is read or written, in user mode and outside regions. The first check is alignment: MISALIGNED at
the address. -/
def Sys2Proof.Claims.ChecksTrap : Prop :=
  ∀ (i : Instr) (s : State) (o : Ops) (m : MemMod) (spc : Space) (n align : Nat) (block load : Bool) (g : Target) (e : TrapIn),
    i.wf = true → accessOfWord i = some (o, m, spc, n, align, block, load) → ready i s = true →
    (curCore s).sup = false → (curCore s).region = none → ViewReady s o → heldRop s = none →
    (target s o spc (2 ^ m.scale.toNat) n (syncKind load m.sync) m.sync (loadEng s block)).1 = .ok g → accChecks s g align = some e →
    (g.x.addr.toNat % align ≠ 0 → e.code = 0x0206 ∧ e.addr = some g.x.addr)
    ∧ ∃ t : State, exec i s = .next t ∧ (curCore t).sup = true ∧ (curCore t).tcause = BitVec.ofNat 64 e.code ∧ (∀ a : W64, e.addr = some a → (curCore t).taddr = a)
      ∧ (curCore t).tinfo = e.info ∧ (curCore t).tpc = pcNow s ∧ t.mem = s.mem ∧ t.fe = s.fe ∧ t.posted = s.posted
      ∧ (curCore t).ex.s = (curCore s).ex.s ∧ (curCore t).pi.s = (curCore s).pi.s ∧ (curCore t).q = (curCore s).q

/-- R31, R176, R177, R180, R181, R185: in user mode and outside regions, an access whose record cannot be used traps with what refuses the
record: a number past the pool, a page that may not be read, bytes that are uncorrectable. -/
def Sys2Proof.Claims.RecordsTrap : Prop :=
  ∀ (i : Instr) (s : State) (o : Ops) (m : MemMod) (spc : Space) (n align : Nat) (block load : Bool),
    i.wf = true → accessOfWord i = some (o, m, spc, n, align, block, load) → ready i s = true →
    (curCore s).sup = false → (curCore s).region = none → ViewReady s o → heldRop s = none →
    let found := (target s o spc (2 ^ m.scale.toNat) n (syncKind load m.sync) m.sync (loadEng s block)).1
    let Trapped := fun (t : State) (code : Nat) => (curCore t).sup = true ∧ (curCore t).tcause = BitVec.ofNat 64 code ∧ (curCore t).tpc = pcNow s
      ∧ t.fe = s.fe ∧ t.posted = s.posted ∧ (curCore t).ex.s = (curCore s).ex.s ∧ (curCore t).pi.s = (curCore s).pi.s ∧ (curCore t).q = (curCore s).q
    (∀ e, found = .error (.trap e) →
      ∃ t : State, exec i s = .next t ∧ Trapped t e.code ∧ (curCore t).tinfo = e.info ∧ (∀ a : W64, e.addr = some a → (curCore t).taddr = a) ∧ t.mem = s.mem)
    ∧ (∀ h a, found = .error (.unc h a) → ∃ t : State, exec i s = .next t ∧ Trapped t 0x0207 ∧ (curCore t).taddr = a)

/-- R176, R177, R180, R181, R185: steps 4 and 6 of R185, in user mode and outside regions. An access whose translation is refused traps with
that refusal's code and address; one whose translation faults replayably holds its stream, and its request is parked at the station of the
cluster; a load that finds its bytes uncorrectable once its SYNC condition holds traps UNCORRECTABLE_DATA at the granule. -/
def Sys2Proof.Claims.LateChecksTrap : Prop :=
  ∀ (i : Instr) (s : State) (o : Ops) (m : MemMod) (spc : Space) (n align : Nat) (block load : Bool) (g : Target),
    i.wf = true → accessOfWord i = some (o, m, spc, n, align, block, load) → ready i s = true →
    (curCore s).sup = false → (curCore s).region = none → ViewReady s o → heldRop s = none →
    (target s o spc (2 ^ m.scale.toNat) n (syncKind load m.sync) m.sync (loadEng s block)).1 = .ok g → accChecks s g align = none →
    let at4 := locate s g.x (if load then 0 else 1)
    let Trapped := fun (t : State) (code : Nat) (info : W64) => (curCore t).sup = true ∧ (curCore t).tcause = BitVec.ofNat 64 code
      ∧ (curCore t).tinfo = info ∧ (curCore t).tpc = pcNow s ∧ t.fe = s.fe ∧ t.posted = s.posted
      ∧ (curCore t).ex.s = (curCore s).ex.s ∧ (curCore t).pi.s = (curCore s).pi.s ∧ (curCore t).q = (curCore s).q
    (∀ e, at4 = .error (.trap e) →
      ∃ t : State, exec i s = .next t ∧ Trapped t e.code e.info ∧ (∀ a : W64, e.addr = some a → (curCore t).taddr = a) ∧ t.mem = s.mem)
    ∧ (∀ k p v, at4 = .error (.stall k p v) →
      ∃ t : State, exec i s = .next t ∧ (∃ w : Wait, waitNow t = some w ∧ w.instr = i ∧ w.why = .replay) ∧ pcNow t = pcNow s
        ∧ (stationOf t (stationNo s.cur.1)).parked = (stationOf s (stationNo s.cur.1)).parked
            ++ [{ who := .stream s.cur.1 s.cur.2, kind := k, pasid := p, vpage := v, cluster := clusterNo s.cur.1 }]
        ∧ ScalarsBut s t [] ∧ PredsBut s t [] ∧ t.mem = s.mem ∧ t.fe = s.fe ∧ t.posted = s.posted)
    ∧ (∀ ps j, load = true → at4 = .ok (.here ps) → SyncMet s m ps → (granules ps).findIdx? (isBad s) = some j →
      ∃ t : State, exec i s = .next t ∧ Trapped t 0x0207 0 ∧ (curCore t).taddr = BitVec.ofNat 64 (granFrom g.x.addr.toNat + 16 * j))

/-- R129, R185, R186: step 5 of R185. A scalar load with a SYNC mode that is held, without TRES, traps SYNC_TIMEOUT when its limit is due and
its condition does not hold; it has had no effect. -/
def Sys2Proof.Claims.LimitsTrap : Prop :=
  ∀ (s : State) (c : Nat) (pilot : Bool) (w : Wait) (o : Ops) (m : MemMod) (spc : Space) (g : Target) (ps : List (Nat × Nat)),
    c < 1024 → waitAt s c pilot = some w → (coreOf s c).sup = false → (coreOf s c).region = none →
    let u := asStream s c pilot
    w.instr.wf = true → ready w.instr u = true → eventDue s c = none ∨ pilot ≠ eventStream s c →
    (pilot = true → trapsNow s c false = none ∧ leavesTurn s c w.instr = false) →
    updCore s c (fun k => { k with viewV := w.viewV }) = s → (pilot = true → (coreOf s c).issued.getLsbD 0 = false) →
    scalarLoad w.instr = some (o, m, spc) → w.why = .timed → m.sync ≠ .plain → m.trio.tres = false →
    Reaches u o m spc (sizeBytes m.size) (sizeBytes m.size) true false g ps → ¬SyncMet u m ps → limitDue u m.trio = true →
    ∃ t : State, exec (.timedWaitTimeout c pilot) s = .next t ∧ (coreOf t c).sup = true ∧ (coreOf t c).tcause = 0x0208
      ∧ (coreOf t c).tpc = (streamOf (coreOf s c) pilot).pc ∧ (coreOf t c).tstream = pilot ∧ t.mem = s.mem ∧ t.fe = s.fe ∧ t.posted = s.posted

/-- R31, R129, R176, R177, R180, R181, R185, R186, R381: the traps of loads and stores in the order of R185. -/
def Obligations.AccessTraps : Prop := Claims.ChecksTrap ∧ Claims.RecordsTrap ∧ Claims.LateChecksTrap ∧ Claims.LimitsTrap

/-- R187, R189, R302: FEGET reads 64 bits and FESET writes them, FEWAIT goes on at a granule in the state it wants, PREF has no
effect but on the cache of its station. -/
def Obligations.FullEmptyBits : Prop :=
  ∀ (s : State) (o : Ops), Safety.CanonicalMemory s →
    (ready (.feget o) s = true → (readSrc o.a s).1.toNat % 16 = 0 → inAlloc s (readSrc o.a s).1.toNat 1024 = true →
      ownTouches s s.cur.1 s.cur.2 false [(spHome s (readSrc o.a s).1.toNat, 1024)] = false →
      ∃ t v, exec (.feget o) s = .next t ∧ Result s t o.d v
        ∧ (∀ j, j < 64 → v.getLsbD j = feGet s (spHome s (readSrc o.a s).1.toNat / 16 + j))
        ∧ PredsBut s t [] ∧ GoesOnAt s t o ∧ Frame s t)
    ∧ (ready (.feset o) s = true → (readSrc o.a s).1.toNat % 16 = 0 → inAlloc s (readSrc o.a s).1.toNat 1024 = true →
      windowCheck s { curAcc s .sp (readSrc o.a s).1 1024 .st with kind := .st } = none → ownPosted s s.cur.1 s.cur.2 = [] →
      ∃ t : State, exec (.feset o) s = .next t
        ∧ (∀ j, j < 64 → feGet t (spHome s (readSrc o.a s).1.toNat / 16 + j) = (readSrc o.b (readSrc o.a s).2).1.getLsbD j)
        ∧ (∀ x, x < spHome s (readSrc o.a s).1.toNat / 16 ∨ spHome s (readSrc o.a s).1.toNat / 16 + 64 ≤ x → feGet t x = feGet s x)
        ∧ t.mem = s.mem ∧ t.bad = s.bad ∧ t.posted = s.posted
        ∧ ScalarsBut s t [] ∧ PredsBut s t [] ∧ GoesOnAt s t o ∧ CoreFrame s t)
    ∧ (∀ m : WantTrio, ready (.fewait o m) s = true → spCheck s (readSrc o.a s).1 16 = none →
      ownTouches s s.cur.1 s.cur.2 false [(spHome s (readSrc o.a s).1.toNat, 16)] = false →
      syncTurn s (if m.want then .waite else .waitf) [spHome s (readSrc o.a s).1.toNat / 16] = true →
      ∃ t : State, exec (.fewait o m) s = .next t ∧ TrioPred s t m.trio ∧ ScalarsBut s t [] ∧ GoesOnAt s t o ∧ Frame s t)
    ∧ (ready (.pref o) s = true →
      ∃ t : State, exec (.pref o) s = .next t ∧ { t with cores := s.cores, stations := s.stations } = s
        ∧ ScalarsBut s t [] ∧ PredsBut s t [] ∧ GoesOnAt s t o ∧ CoreFrame s t)

/-- R184, R188: VGATH loads 64 elements, each zero-extended into a lane of 32 bits, and VSCAT posts 64 stores, in lane order,
outside regions and where every element lies in this device. -/
def Obligations.GathersAndScatters : Prop :=
  ∀ (s : State) (o : Ops) (m : MemMod) (ts : List Target) (ls : List (List (Nat × Nat))), Safety.CanonicalMemory s →
    vBad s o.d = false → vBad s o.b = false → enginesIdle s = true →
    (ready (.vgath o m) s = true → laneTargets s o m (elemsOf 4 (srcBytes s (readVS o.b s).1 4)) .ld = .ok ts →
      laneChecks s (sizeBytes m.size) ts = none → laneHomes s 0 ts 0 = .ok (ls.map Loc.here) →
      ownTouches s s.cur.1 s.cur.2 true ls.flatten = false → (granules ls.flatten).all (fun x => !isBad s x) = true →
      (∀ t ∈ ts, specRegion s t.x = none) →
      ∃ t : State, exec (.vgath o m) s = .next t
        ∧ BlockResult s t o.d (ls.flatMap (fun ps => leBytes 4 (leNat (ps.flatMap (seenBytes s s.cur.1 s.cur.2)))))
        ∧ t.fe = s.fe ∧ t.posted = s.posted ∧ ScalarsBut s t [] ∧ PredsBut s t [] ∧ GoesOnAt s t o ∧ CoreFrame s t)
    ∧ (ready (.vscat o m) s = true → laneTargets s o m (elemsOf 4 (srcBytes s (readVS o.b s).1 4)) .st = .ok ts →
      laneChecks s (sizeBytes m.size) ts = none → laneHomes s 1 ts 0 = .ok (ls.map Loc.here) →
      ts.any (fun t => isRegionAcc s t.x) = false →
      let d := (elemsOf 4 (readVD o.d (readVS o.b s).2).1).map (fun v => leBytes (sizeBytes m.size) v)
      ∃ t : State, exec (.vscat o m) s = .next t
        ∧ t.posted = s.posted ++ ((ts.zip ls).zip d).map (fun p => stored s p.1.1.x p.1.2 p.2 false)
        ∧ t.mem = s.mem ∧ t.fe = s.fe ∧ ScalarsBut s t [] ∧ PredsBut s t [] ∧ GoesOnAt s t o ∧ CoreFrame s t)

/- Atomics. -/

/-- R310: the new value of each integer atomic, in bit vectors of its size: old is what stands in memory, x and y are the
registers of OPD. -/
def Obligations.AtomicArithmetic : Prop :=
  ∀ (e : Nat) (old x y : W64) (sgn : Bool), e ∈ [1, 2, 4, 8] →
    let u := old.setWidth (8 * e)
    let v := x.setWidth (8 * e)
    let new := fun (op : AtomOp) => BitVec.ofNat (8 * e) (leNat (atomBytes { op := op, e := e, x := x, y := y, sgn := sgn } (w64Bytes e old)))
    new .add = u + v ∧ new .and = u &&& v ∧ new .or = u ||| v ∧ new .xor = u ^^^ v ∧ new .xchg = v
      ∧ new .cas = (if u = v then y.setWidth (8 * e) else u)
      ∧ new .min = (if (if sgn then v.slt u else v.ult u) then v else u)
      ∧ new .max = (if (if sgn then u.slt v else u.ult v) then v else u)

/-- R293, R309, R310, R313: an atomic that returns its old value, or works in SPX outside every ORDRED region that would hold it, is
performed as it issues once its stream has no store under way: memory holds the new bytes, no other byte has changed, OPD takes the old
value under RET. Of the cores, only the predictors of a cluster that loses the line have changed beside. -/
def Obligations.AtomicsReturn : Prop :=
  ∀ (i : Instr) (s : State) (o : Ops) (m : AtomMod) (mk : State → Atom) (g : Target) (ps : List (Nat × Nat)),
    i.wf = true → atomicOf i = some (o, m, mk) → ready i s = true → Safety.CanonicalMemory s → ViewReady s o →
    AtomReaches i s o m (mk s) g ps → (m.ret = true ∨ (g.x.space = .spx ∧ heldFor s g.x (mk s) = none)) → ownPosted s s.cur.1 s.cur.2 = [] →
    (m.scope = .fabric → remoteDone s = true) → (!(atomicRegions s g.x).isEmpty && atomHeldBack s (curBerth s).gid s.cur.1) = false →
    (granules ps).all (fun x => !isBad s x) = true →
    let old := ps.flatMap (fun p => rdBytes s.mem p.1 p.2)
    ∃ t : State, exec i s = .next t
      ∧ t.mem = (dealOut ps (atomBytes (mk s) old)).foldl (fun u p => wrBytes u p.1 p.2) s.mem
      ∧ (∀ a, (∀ p ∈ ps, a < p.1 ∨ p.1 + p.2 ≤ a) → rdByte t.mem a = rdByte s.mem a)
      ∧ (if m.ret then Result s t o.d (atomOld (mk s) old) else ScalarsBut s t [])
      ∧ PredsBut s t [] ∧ t.fe = s.fe ∧ t.bad = s.bad ∧ t.posted = s.posted ∧ GoesOnAt s t o ∧ t.cur = s.cur
      ∧ (∀ c, c ≠ s.cur.1 → SameButPred (coreOf t c) (coreOf s c)) ∧ SameButPred (coreRest (curCore t)) (coreRest (curCore s))
      ∧ streamRest (curStream t) = streamRest (curStream s) ∧ streamOf (curCore t) (!s.cur.2) = streamOf (curCore s) (!s.cur.2)

/-- R293, R310, R313, R316: an atomic without RET, outside SPX or to an ORDRED region that holds it, is posted: it joins the stream's
operations as their last, and memory does not change yet. One at FABRIC scope waits for the stream's remote stores before. -/
def Sys2Proof.Claims.AtomicsPosted : Prop :=
  ∀ (i : Instr) (s : State) (o : Ops) (m : AtomMod) (mk : State → Atom) (g : Target) (ps : List (Nat × Nat)),
    i.wf = true → atomicOf i = some (o, m, mk) → ready i s = true → ViewReady s o →
    AtomReaches i s o m (mk s) g ps → m.ret = false → (g.x.space ≠ .spx ∨ (heldFor s g.x (mk s)).isSome = true) →
    (m.scope = .fabric → remoteDone s = true) →
    ∃ (t : State) (p : Posted), exec i s = .next t ∧ t.posted = s.posted ++ [p] ∧ p.atom = some (mk s) ∧ p.core = s.cur.1 ∧ p.pilot = s.cur.2
      ∧ p.berth = actBerthNo (curCore s) ∧ p.gid = (curBerth s).gid ∧ p.pieces.map (fun x => (x.1, x.2.length)) = ps ∧ p.spx = none
      ∧ p.fill = false ∧ p.rel = true ∧ p.region = !(atomicRegions s g.x).isEmpty
      ∧ p.ordred = heldFor s g.x (mk s)
      ∧ t.mem = s.mem ∧ t.fe = s.fe ∧ t.bad = s.bad ∧ ScalarsBut s t [] ∧ PredsBut s t [] ∧ GoesOnAt s t o ∧ CoreFrame s t

/-- R293, R313: ATOMIC_PERFORM performs a posted atomic at its place; a float atomic to an ORDRED region is held there for the phase that
comes next. PREDICTOR_QUIET takes back that a line is contested, and never changes data. -/
def Sys2Proof.Claims.PostedAtomics : Prop :=
  ∀ (s : State) (k : Nat) (p : Posted) (a : Atom), Safety.CanonicalMemory s → s.posted[k]? = some p → p.atom = some a → mayLand s k p = true →
    (p.region = true → atomHeldBack s p.gid p.core = false) →
    (p.ordred = none → (granules (p.pieces.map (fun x => (x.1, x.2.length)))).all (fun x => !isBad s x) = true →
      let ps := p.pieces.map (fun x => (x.1, x.2.length))
      ∃ t : State, exec (.atomicPerform k) s = .next t ∧ t.posted = s.posted.eraseIdx k
        ∧ t.mem = (dealOut ps (atomBytes a (ps.flatMap (fun q => rdBytes s.mem q.1 q.2)))).foldl (fun u q => wrBytes u q.1 q.2) s.mem
        ∧ (∀ b, (∀ q ∈ ps, b < q.1 ∨ q.1 + q.2 ≤ b) → rdByte t.mem b = rdByte s.mem b) ∧ t.fe = s.fe
        ∧ ∀ c, SameButPred (coreOf t c) (coreOf s c))
    ∧ (∀ r, p.ordred = some r → (findGraph s p.gid).isSome = true →
      ∃ t x, exec (.atomicPerform k) s = .next t ∧ t.posted = s.posted.eraseIdx k ∧ t.mem = s.mem ∧ t.cores = s.cores
        ∧ (graphOf t p.gid).ordreds = (graphOf s p.gid).ordreds ++ [x] ∧ x.atom = a ∧ x.region = r
        ∧ x.pieces = p.pieces.map (fun y => (y.1, y.2.length)))
    ∧ (∀ c line, c < 1024 → ∃ t : State, exec (.predictorQuiet c line) s = .next t ∧ { t with cores := s.cores } = s
        ∧ (∀ d, d ≠ c → coreOf t d = coreOf s d) ∧ SameButPred (coreOf t c) (coreOf s c)
        ∧ (coreOf t c).pred.map (·.line) = (coreOf s c).pred.map (·.line)
        ∧ ∀ q ∈ (coreOf t c).pred, q.line = line → (∀ w ∈ q.losses, w + 16000 ≤ s.wall) → q.contested = false)

/-- R293, R310, R313: atomics are posted, and performed. -/
def Obligations.PostedAtomicOperations : Prop := Claims.AtomicsPosted ∧ Claims.PostedAtomics

/- Regions. -/

/-- What a register holds after its region commits: fresh(s) + c of its tag, or what it held where it has none (R323). -/
def Sys2Proof.Claims.repaired (s : State) (r : Region) (j : BitVec 6) (old : W64) : W64 :=
  match amFind r.tags j.toNat with
  | some p => freshOf s r p.1 + p.2
  | none => old

/-- R319, R320, R323, R325, R327: AREG opens a region with its checkpoint; ACOMMIT of an irrevocable region ends it; ACOMMIT of a region that
validates writes its stores, repairs its tagged registers and ends it, and of one that does not restores the checkpoint; AABORT restores
it. -/
def Sys2Proof.Claims.RegionInstructions : Prop :=
  ∀ (s : State) (o : Ops), s.cur.2 = false → (curCore s).sup = false →
    ((curCore s).region = none → (curBerth s).det = false → regionCount s < 512 → ready (.areg o) s = true →
      ∃ (t : State) (r : Region), exec (.areg o) s = .next t ∧ (curCore t).region = some r ∧ r.target = pcNow s + 4 * (readSrc o.a s).1 ∧ r.restart = following s o
        ∧ r.reads = [] ∧ r.stores = [] ∧ r.irrevocable = false ∧ r.implicit = false ∧ r.cpS = (curCore t).ex.s ∧ r.cpK = (curCore t).ex.k
        ∧ r.opd = o.d ∧ Result s t o.d 0 ∧ PredsBut s t [] ∧ GoesOnAt s t o ∧ OtherUnits s t)
    ∧ (∀ (m : PredMod) r, (curCore s).region = some r → r.implicit = false → r.irrevocable = true → issues (.acommit o m) s = true →
      ownPosted s s.cur.1 false = [] →
      ∃ t : State, exec (.acommit o m) s = .next t ∧ (curCore t).region = none ∧ (graphOf t (curBerth s).gid).commitPt = none
        ∧ ScalarsBut s t [] ∧ PredResult s t (.k m.pred) true ∧ GoesOnAt s t o ∧ t.mem = s.mem)
    ∧ (∀ (m : PredMod) r l, (curCore s).region = some r → r.implicit = false → r.irrevocable = false → issues (.acommit o m) s = true →
      ownPosted s s.cur.1 false = [] → commitFree s (curBerth s).gid s.cur.1 = true → validate s s.cur.1 (curBerth s) r = .ok l →
      (∀ x ∈ l, (granules [(x.addr, x.bytes.length)]).all (fun y => !isBad s y) = true) →
      ∃ t : State, exec (.acommit o m) s = .next t ∧ (curCore t).region = none
        ∧ t.mem = l.foldl (fun u x => wrBytes u x.addr x.bytes) s.mem ∧ t.fe = s.fe ∧ t.posted = s.posted
        ∧ (∀ j, readS t j = Claims.repaired s r j (readS s j)) ∧ PredResult s t (.k m.pred) true ∧ GoesOnAt s t o ∧ (r.held = [] → CoreFrame s t))
    ∧ (∀ (m : PredMod) r cause n, (curCore s).region = some r → r.implicit = false → r.irrevocable = false → issues (.acommit o m) s = true →
      ownPosted s s.cur.1 false = [] → commitFree s (curBerth s).gid s.cur.1 = true → validate s s.cur.1 (curBerth s) r = .error cause →
      r.opd = .s n →
      ∃ t : State, exec (.acommit o m) s = .next t ∧ (curCore t).region = none ∧ (curCore t).ex.s = sSet r.cpS n (BitVec.ofNat 64 cause)
        ∧ (curCore t).ex.k = kSet r.cpK m.pred false ∧ pcNow t = r.target ∧ waitNow t = none ∧ t.mem = s.mem ∧ t.fe = s.fe)
    ∧ (∀ r n, (curCore s).region = some r → r.implicit = false → r.irrevocable = false → ready (.aabort o) s = true → r.opd = .s n →
      ∃ t : State, exec (.aabort o) s = .next t ∧ (curCore t).region = none ∧ (curCore t).ex.s = sSet r.cpS n (5 + 256 * (readSrc o.a s).1)
        ∧ (curCore t).ex.k = r.cpK ∧ pcNow t = r.target ∧ waitNow t = none ∧ OtherUnits s t)

/-- R328: TSPAWN from a tile task hands its graph an ordered task with its timestamp and its payload. -/
def Sys2Proof.Claims.SpawnsTasks : Prop :=
  ∀ (s : State) (o : Ops),
    let ts := (readSrc o.a s).1.toNat
    let n := (readSrc o.b (readSrc o.a s).2).1.toNat
    let p := (readSrc o.d (readSrc o.b (readSrc o.a s).2).2).1.toNat
    ready (.tspawn o) s = true → ts < 2 ^ 48 → n ≤ 256 → p % 16 = 0 → inAlloc s p n = true → (curGraph s).hasOrd = true → (curBerth s).det = false →
    explicitOpen s = false → (curBerth s).ordered = false → (∀ x, (curBerth s).lastSpawn = some x → x ≤ ts) → spBad s p n = none →
    ownTouches s s.cur.1 s.cur.2 true [(spHome s p, n)] = false → (curCore s).act.isSome = true →
    ∃ (t : State) (x : OTask), exec (.tspawn o) s = .next t ∧ (graphOf t (curBerth s).gid).ords = (curGraph s).ords ++ [x] ∧ x.ts = ts ∧ x.spawner = (curBerth s).lcore
      ∧ x.payload = spSeen s p n ∧ x.parent = none ∧ x.st = .accepted ∧ (curBerth t).lastSpawn = some ts
      ∧ { t with cores := s.cores, graphs := s.graphs } = s ∧ ScalarsBut s t [] ∧ PredsBut s t [] ∧ GoesOnAt s t o

/-- R319 to R328: the instructions of regions and ordered tasks. -/
def Obligations.SpeculativeRegions : Prop := Claims.RegionInstructions ∧ Claims.SpawnsTasks

/-- The queue that the OPD of a region names has room for the cause (R320). -/
def Sys2Proof.Claims.CauseFits (k : Core) (r : Region) : Prop :=
  ∀ q, r.opd = .q q → (qGet k q).length < qDepth q ∧ pendingPush k q = 0

/-- The checkpoint of a region is back in its stream, and OPD has taken a value (R320). -/
def Sys2Proof.Claims.Restored (k l : Core) (r : Region) (v : W64) : Prop :=
  l.ex.k = r.cpK ∧ (match r.opd with
    | .s n => l.ex.s = sSet r.cpS n v
    | .q q => l.ex.s = r.cpS ∧ qGet l q = qGet k q ++ [.word v]
    | _ => l.ex.s = r.cpS)

/-- R325: COMMIT takes up a region whose ACOMMIT waits, once its stream's stores are performed and the commit point is free: what
validates is written, tagged registers are repaired (R323), and the stream goes on past ACOMMIT. -/
def Sys2Proof.Claims.CommitCompletes : Prop :=
  ∀ (s : State) (c : Nat) (w : Wait) (o : Ops) (m : PredMod) (r : Region) (l : List RStore), c < 1024 →
    waitAt s c false = some w → w.instr = .acommit o m → w.why = .commit → (coreOf s c).sup = false → (coreOf s c).stepping &&& 1 = 0 →
    eventDue s c = none ∨ eventStream s c = true → engineWait (asStream s c false) w.instr o = false →
    (coreOf s c).region = some r → r.implicit = false → r.irrevocable = false → r.overflow = false → r.aborting = none →
    ownPosted s c false = [] → commitFree s (actBerth (coreOf s c)).gid c = true → validate s c (actBerth (coreOf s c)) r = .ok l →
    (∀ x ∈ l, (granules [(x.addr, x.bytes.length)]).all (fun y => !isBad s y) = true) →
    ∃ t : State, exec (.commit c) s = .next t ∧ (coreOf t c).region = none ∧ t.mem = l.foldl (fun u x => wrBytes u x.addr x.bytes) s.mem
      ∧ (coreOf t c).ex.wait = none ∧ (coreOf t c).ex.pc = following (asStream s c false) o
      ∧ (∀ j, sGet (coreOf t c).ex.s j = Claims.repaired s r j (sGet (coreOf s c).ex.s j))
      ∧ (coreOf t c).ex.k = kSet (coreOf s c).ex.k m.pred true ∧ t.fe = s.fe ∧ t.posted = s.posted

/-- R325: HELD_MESSAGE_SEND sends the first message that waits at a core, once there is a slot for it. -/
def Sys2Proof.Claims.HeldMessageLeaves : Prop :=
  ∀ (s : State) (c : Nat) (m : Msg) (l : List Msg), c < 1024 → (coreOf s c).handoff = m :: l → hasSlot s m = true →
    ∃ (t : State) (x : Msg), exec (.heldMessageSend c) s = .next t ∧ (coreOf t c).handoff = l ∧ t.transit = s.transit ++ [x]
      ∧ x.payload = m.payload ∧ x.len = m.len ∧ x.seq = m.seq ∧ x.route = m.route ∧ x.gid = m.gid ∧ x.sender = m.sender ∧ t.mem = s.mem
      ∧ ∀ d, d ≠ c → coreOf t d = coreOf s d

/-- R326: REGION_TIMEOUT aborts a region that has run 65,536 cyc and of whose read set a byte has changed. -/
def Sys2Proof.Claims.OldRegionAborts : Prop :=
  ∀ (s : State) (c : Nat) (r : Region), c < 1024 → (coreOf s c).region = some r → r.implicit = false → r.irrevocable = false →
    r.overflow = false → r.commit = false → r.aborting = none → (coreOf s c).sup = false → geared s c = false →
    65536 ≤ cycOf s c - r.startCyc → readsHold s r = false → Claims.CauseFits (coreOf s c) r →
    ∃ t : State, exec (.regionTimeout c) s = .next t ∧ (coreOf t c).region = none ∧ (coreOf t c).ex.pc = r.target
      ∧ (coreOf t c).ex.wait = none ∧ Claims.Restored (coreOf s c) (coreOf t c) r 1 ∧ t.mem = s.mem ∧ t.graphs = s.graphs

/-- R327: IRREVOCABLE_RESTART gives a region that overflowed the commit point of its graph, and the region runs again from after its
AREG. -/
def Sys2Proof.Claims.OverflowedRegionRestarts : Prop :=
  ∀ (s : State) (c : Nat) (r : Region), c < 1024 → (coreOf s c).region = some r → r.overflow = true → r.aborting = none →
    (coreOf s c).sup = false → (graphOf s r.gid).commitPt = none → (findGraph s r.gid).isSome = true → geared s c = false →
    Claims.CauseFits (coreOf s c) r →
    ∃ t : State, exec (.irrevocableRestart c) s = .next t ∧ (coreOf t c).ex.pc = r.restart ∧ (coreOf t c).ex.wait = none
      ∧ Claims.Restored (coreOf s c) (coreOf t c) r 7 ∧ (coreOf t c).region = some { r with overflow := false, irrevocable := true }
      ∧ (graphOf t r.gid).commitPt = some c ∧ t.mem = s.mem ∧ ∀ d, d ≠ c → coreOf t d = coreOf s d

/-- R317, R330: ORDERED_TASK_COMMIT commits the front of a graph that awaits it and validates, once the stores it made outside its region
are performed. -/
def Sys2Proof.Claims.OrderedTaskCommits : Prop :=
  ∀ (s : State) (gid : Nat) (g : Graph) (i : Nat) (o : OTask) (r : Region) (l : List RStore), findGraph s gid = some g →
    commitFront g = some i → g.ords[i]? = some o → o.region = some r → o.st = .awaiting → frontHeld s g o.ts = false → g.commitPt = none →
    s.posted.any (fun p => p.ord && p.gid == gid && p.task == i) = false →
    validate s o.core { gid := gid, task := i, lcore := 0xFFFF, pasid := g.pasid, ordered := true } r = .ok l →
    (∀ x ∈ l, (granules [(x.addr, x.bytes.length)]).all (fun y => !isBad s y) = true) →
    ∃ (t : State) (x : OTask), exec (.orderedTaskCommit gid) s = .next t ∧ (graphOf t gid).ords[i]? = some x ∧ x.st = .committed
      ∧ x.region = none ∧ x.ts = o.ts ∧ t.mem = l.foldl (fun u y => wrBytes u y.addr y.bytes) s.mem ∧ t.fe = s.fe
      ∧ (r.held = [] → t.cores = s.cores ∧ t.transit = s.transit)

/-- R112, R329, R332: ORDERED_TASK_START binds the ordered task of the lowest key on a free berth with room, and its activation starts at
the execute entry of handler 0 with the spawn payload as its message, in one step, which is the model's choice (log entry 23). -/
def Sys2Proof.Claims.OrderedTaskStarts : Prop :=
  ∀ (s : State) (gid : Nat) (g : Graph) (i : Nat) (o : OTask) (d : Task) (t : TaskIn) (c : Nat) (b : BitVec 2) (room : BitVec 2 × Nat × Nat),
    c < 1024 → findGraph s gid = some g → nextOrd s g = some i → g.ords[i]? = some o → g.tasks[g.otask]? = some d →
    (coreOf s c).act = none → geared s c = false → berthHeld s c b = false →
    roomAt s c (regKiB d.regreq) (spRows d.spreq) = some room → readTask s g.pasid d.tdesc.toNat = some t →
    ∃ (u : State) (a : Act), exec (.orderedTaskStart gid i c b) s = .next u ∧ (coreOf u c).act = some a ∧ a.berth = b ∧ a.msg.payload = o.payload
      ∧ (berthAt (coreOf u c) b).state = .live ∧ (berthAt (coreOf u c) b).ordered = true ∧ (berthAt (coreOf u c) b).task = i
      ∧ (coreOf u c).ex.pc = g.code + BitVec.ofNat 64 (4 * fieldAt ((tdHandlers t.td).getD 0 0).toNat 0 26)
      ∧ (coreOf u c).ex.stopped = false ∧ (∀ d, d ≠ c → coreOf u d = coreOf s d)

/-- R317, R325, R326, R327, R329, R330: the steps of the signal box, each where it has its effect. That an ordered task is bound, loaded and
started in one step is the model's choice (log entry 23). -/
def Obligations.SignalBoxSteps : Prop :=
  Claims.CommitCompletes ∧ Claims.HeldMessageLeaves ∧ Claims.OldRegionAborts ∧ Claims.OverflowedRegionRestarts ∧ Claims.OrderedTaskCommits
    ∧ Claims.OrderedTaskStarts

/- Fences and barriers. -/

/-- R284, R287, R294 to R296: FENCE goes on, with no other effect, once what it orders is visible. -/
def Sys2Proof.Claims.FenceGoesOn : Prop :=
  ∀ (s : State) (o : Ops) (m : FenceMod), issues (.fence o m) s = true → (m.eng = true → engineJoined s = true) →
    (m.kind ≠ .acq → storesVisible s (m.scope == .fabric) = true) →
    ∃ t : State, exec (.fence o m) s = .next t ∧ ScalarsBut s t [] ∧ PredsBut s t [] ∧ (curCore t).q = (curCore s).q ∧ GoesOnAt s t o ∧ Frame s t

/-- R291, R297, R298, R300: HBARA and HBAR arrive at the next phase of their shape, HBARW and HBAR go on once it has completed, and a
phase completes at a core when every logical core of the group has reached it. -/
def Sys2Proof.Claims.HardwareBarriers : Prop :=
  ∀ (s : State) (o : Ops) (h : Shape), (curCore s).act.isSome = true → (curBerth s).ordered = false → regionOpen s = false →
    (∀ m : ShapeMod, m.shape = h → ready (.hbara o m) s = true → mayEnter s h = true →
      ∃ t : State, exec (.hbara o m) s = .next t ∧ Result s t o.d ((hGet (curBerth s).hbar h + 1).setWidth 64)
        ∧ hGet (curBerth t).hbar h = hGet (curBerth s).hbar h + 1 ∧ (curBerth t).hdone = (curBerth s).hdone
        ∧ (∀ x, x ≠ h → hGet (curBerth t).hbar x = hGet (curBerth s).hbar x) ∧ PredsBut s t [] ∧ GoesOnAt s t o ∧ OtherUnits s t)
    ∧ (∀ m : ShapeTrio, m.shape = h → issues (.hbar o m) s = true → standing s h = false ∨ supNow s = true → mayEnter s h = true →
      ∃ t : State, exec (.hbar o m) s = .next t ∧ hGet (curBerth t).hbar h = hGet (curBerth s).hbar h + 1
        ∧ (∃ w : Wait, waitNow t = some w ∧ w.instr = .hbar o m ∧ w.aux = 1) ∧ pcNow t = pcNow s ∧ OtherUnits s (samePlace s t))
    ∧ (∀ m : ShapeTrio, m.shape = h → issues (.hbar o m) s = true → standing s h = true → supNow s = false →
      phaseGe (hGet (curBerth s).hdone h) (hGet (curBerth s).hbar h) = true →
      ∃ t : State, exec (.hbar o m) s = .next t ∧ standing t h = false ∧ (curBerth t).hbar = (curBerth s).hbar ∧ TrioPred s t m.trio ∧ ScalarsBut s t []
        ∧ GoesOnAt s t o ∧ OtherUnits s t)
    ∧ (∀ (m : ShapeTrio) w, m.shape = h → issues (.hbar o m) s = true → (curCore s).sup = false → geared s s.cur.1 = false → s.cur.1 < 1024 →
      waitNow s = some w → w.instr = .hbar o m → w.why = .timed → w.aux = 1 → standing s h = false →
      (eventStream s s.cur.1 = false → eventDue s s.cur.1 = none) →
      phaseGe (hGet (curBerth s).hdone h) (hGet (curBerth s).hbar h) = true →
      ∃ t : State, exec (.waitConditionMet s.cur.1 false) s = .next t ∧ GoesOnAt s t o ∧ TrioPred s t m.trio ∧ ScalarsBut s t [] ∧ Frame s t)
    ∧ (∀ m : ShapeTrio, m.shape = h → ready (.hbarw o m) s = true →
      phaseGe (hGet (curBerth s).hbar h) ((readSrc o.a s).1.setWidth 32) = true → phaseGe (hGet (curBerth s).hdone h) ((readSrc o.a s).1.setWidth 32) = true →
      ∃ t : State, exec (.hbarw o m) s = .next t ∧ TrioPred s t m.trio ∧ ScalarsBut s t [] ∧ GoesOnAt s t o ∧ Frame s t)
    ∧ (∀ c b g, c < 1024 → findGraph s (berthAt (coreOf s c) b).gid = some g →
      let k := berthAt (coreOf s c) b
      (k.state = .live ∨ k.state = .stopping) → k.ordered = false → geared s c = false → phaseGe (hGet k.hbar h) (hGet k.hdone h + 1) = true →
      (∀ l ∈ barGroup g h k.lcore.toNat, hasReached s g h (hGet k.hdone h + 1) l = true) → g.ordreds = [] →
      ∃ t : State, exec (.hbarPhaseComplete c b h) s = .next t ∧ hGet (berthAt (coreOf t c) b).hdone h = hGet k.hdone h + 1
        ∧ (∀ x, x ≠ h → hGet (berthAt (coreOf t c) b).hdone x = hGet k.hdone x) ∧ (berthAt (coreOf t c) b).hbar = k.hbar ∧ t.mem = s.mem)

/-- R284 to R300: FENCE and the hardware barriers. -/
def Obligations.FencesAndBarriers : Prop := Claims.FenceGoesOn ∧ Claims.HardwareBarriers

/-- R190, R291, R301, R304: ABARM arms a barrier object in SP, ABWAIT goes on at a complete one, ABTEST reads it, WMARK has no effect
outside a deterministic launch and sends a mark in one. -/
def Obligations.AsyncBarriers : Prop :=
  ∀ (s : State) (o : Ops), regionOpen s = false → Safety.CanonicalMemory s →
    let a := (readSrc o.a s).1
    (let n := (readSrcW o.b true false (readSrc o.a s).2).1.toNat
     ready (.abarm o) s = true → spCheck s a 16 = none → n < 2 ^ 56 → barBusy s a.toNat = false → isBad s (spHome s a.toNat / 16) = false →
     ownTouches s s.cur.1 s.cur.2 false [(spHome s a.toNat, 16)] = false →
     ∃ t : State, exec (.abarm o) s = .next t
       ∧ rdBytes t.mem (spHome s a.toNat) 16 = leBytes 16 (barWord n true false false 0 0 (barGen (barAt s a) + 1))
       ∧ (∀ x, x < spHome s a.toNat ∨ spHome s a.toNat + 16 ≤ x → rdByte t.mem x = rdByte s.mem x)
       ∧ t.fe = s.fe ∧ ScalarsBut s t [] ∧ PredsBut s t [] ∧ GoesOnAt s t o ∧ CoreFrame s t)
    ∧ (∀ m : Trio, ready (.abwait o m) s = true → spCheck s a 16 = none → spBad s a.toNat 16 = none → barDone (barAt s a) = true → barFail (barAt s a) = false →
      ownTouches s s.cur.1 s.cur.2 true [(spHome s a.toNat, 16)] = false →
      ∃ t : State, exec (.abwait o m) s = .next t ∧ TrioPred s t m ∧ ScalarsBut s t [] ∧ GoesOnAt s t o ∧ t.mem = s.mem ∧ t.fe = s.fe
        ∧ (curBerth t).sects = (curBerth (observeBar s a (barGen (barAt s a)))).sects ∧ OtherUnits s t)
    ∧ (∀ m : PredMod, ready (.abtest o m) s = true → ((curBerth s).det = false ∨ (barDone (barAt s a) = true ∧ barFail (barAt s a) = false)) →
      spCheck s a 16 = none → spBad s a.toNat 16 = none → ownTouches s s.cur.1 s.cur.2 true [(spHome s a.toNat, 16)] = false →
      ∃ t : State, exec (.abtest o m) s = .next t ∧ Result s t o.d (BitVec.ofNat 64 (barAt s a)) ∧ PredResult s t (.k m.pred) (barDone (barAt s a))
        ∧ GoesOnAt s t o ∧ OtherUnits s t)
    ∧ (ready (.wmark o) s = true → (curBerth s).det = false →
      ∃ t : State, exec (.wmark o) s = .next t ∧ ScalarsBut s t [] ∧ PredsBut s t [] ∧ GoesOnAt s t o ∧ Frame s t)
    ∧ (ready (.wmark o) s = true → (curBerth s).det = true → storesVisible s false = true →
      ∃ (t : State) (x : Mark), exec (.wmark o) s = .next t ∧ t.marksT = s.marksT ++ [x] ∧ x.gid = (curBerth s).gid ∧ x.sender = (curBerth s).lcore
        ∧ x.dest = tagDest (a.setWidth 32) ∧ x.chan = tagChan (a.setWidth 32) ∧ t.mem = s.mem ∧ ScalarsBut s t [] ∧ GoesOnAt s t o ∧ CoreFrame s t)

/- Copies, messages and the network. -/

/-- R192 to R195, R199: CPY and PCE that pass their checks join the copies in flight with chunks of at most 256 bytes that cover the
block; a block of 0 bytes has no effect. No byte moves at issue. -/
def Sys2Proof.Claims.CopiesIssue : Prop :=
  ∀ (i : Instr) (s : State) (o : Ops) (m : CopyMod) (kind : CopyKind),
    ((i = .cpy o m ∧ kind = .cpy) ∨ (i = .pce o m ∧ kind = .pce)) → ready i s = true → regionOpen s = false →
    let a := readSrc o.a s
    let c := readSrc o.b a.2
    let d := readSrc o.d c.2
    let n := c.1.toNat / 2 ^ 32
    let bar := BitVec.ofNat 64 (c.1.toNat % 2 ^ 17)
    c.1.toNat % 2 ^ 32 < 2 ^ 17 →
    copyChecks s (if kind = .pce then 6 else 5) m.fill bar [bar, BitVec.ofNat 64 n] [{ space := m.src, addr := a.1, n := n, write := false }]
      [{ space := m.dst, addr := d.1, n := n, write := true }] false = none →
    (n = 0 → permitsUsed s (kind == .pce) < (if kind = .pce then 4 else 64) → ownPosted s s.cur.1 s.cur.2 = [] →
      ∃ t : State, exec i s = .next t ∧ ScalarsBut s t [] ∧ PredsBut s t [] ∧ GoesOnAt s t o ∧ Frame s t)
    ∧ (0 < n → permitsUsed s (kind == .pce) < (if kind = .pce then 4 else 64) → ownPosted s s.cur.1 s.cur.2 = [] →
      ∃ (t : State) (k : Copy), exec i s = .next t ∧ t.copies = s.copies ++ [k] ∧ k.kind = kind ∧ k.core = s.cur.1 ∧ k.berth = actBerthNo (curCore s) ∧ k.pilot = s.cur.2
        ∧ k.srcSp = m.src ∧ k.dstSp = m.dst ∧ k.fill = m.fill ∧ k.bar = bar.toNat ∧ k.st = .running ∧ k.id = s.copyNext ∧ t.copyNext = s.copyNext + 1
        ∧ k.chunks.length = (n + 255) / 256
        ∧ (∀ j (h : j < k.chunks.length), k.chunks[j].src = a.1.toNat + 256 * j ∧ k.chunks[j].dst = d.1.toNat + 256 * j
            ∧ k.chunks[j].len = min 256 (n - 256 * j) ∧ k.chunks[j].landed = false)
        ∧ { t with copies := s.copies, copyNext := s.copyNext, cores := s.cores } = s ∧ ScalarsBut s t [] ∧ PredsBut s t []
        ∧ GoesOnAt s t o ∧ CoreFrame s t)

/-- R197, R198, R200, R201: the strided copy, the multicast and the copy through a tensor map join the copies in flight as well, with the
chunks of their rows, destinations or output; TMAPS stages a map. -/
def Sys2Proof.Claims.StridedCastAndMappedCopies : Prop :=
  ∀ (s : State) (o : Ops) (m : CopyMod), regionOpen s = false → ownPosted s s.cur.1 s.cur.2 = [] → permitsUsed s false < 64 →
    let a := readSrc o.a s
    let c := readSrc o.b a.2
    let d := readSrc o.d c.2
    let bs := spSeen s c.1.toNat 32
    spCheck s c.1 32 = none → spBad s c.1.toNat 32 = none →
    (let len := leAt bs 0 4
     let rows := leAt bs 4 4
     let row := fun (b : W64) (i : Nat) (x : Nat) => rowAddr b (signedOf 32 (leAt bs x 4)) i
     ready (.cpy2 o m) s = true → leAt bs 20 12 = 0 → 1 ≤ rows → rows ≤ 65535 → 0 < len →
     copyChecks s 5 m.fill (BitVec.ofNat 64 (leAt bs 16 4))
       [BitVec.ofNat 64 (leAt bs 16 4), BitVec.ofNat 64 len, BitVec.ofInt 64 (signedOf 32 (leAt bs 8 4)), BitVec.ofInt 64 (signedOf 32 (leAt bs 12 4))]
       ((List.range rows).map (fun i => { space := m.src, addr := row a.1 i 8, n := len, write := false }))
       ((List.range rows).map (fun i => { space := m.dst, addr := row d.1 i 12, n := len, write := true }))
       (decide (1 < rows ∧ 0 < len ∧ (signedOf 32 (leAt bs 12 4)).natAbs < len)) = none →
     ∃ (t : State) (k : Copy), exec (.cpy2 o m) s = .next t ∧ t.copies = s.copies ++ [k] ∧ k.kind = .cpy2 ∧ k.bar = leAt bs 16 4
       ∧ k.chunks = (List.range rows).flatMap (fun i => chunksOf (row a.1 i 8).toNat (row d.1 i 12).toNat len 0)
       ∧ t.mem = s.mem ∧ ScalarsBut s t [] ∧ PredsBut s t [] ∧ GoesOnAt s t o ∧ CoreFrame s t)
    ∧ (let n := leAt bs 0 4
       let nd := leAt bs 8 2
       let dests := if m.mc then shapeDests (curGraph s) (curBerth s).lcore.toNat (leAt bs 10 1)
         else (List.range nd).map (fun i => leAt (spSeen s (leAt bs 12 4) (2 * nd)) (2 * i) 2)
       ready (.mcast o m) s = true → leAt bs 11 1 = 0 → leAt bs 16 16 = 0 → (m.mc = true → leAt bs 10 1 ≤ 3) →
       (m.mc = false → 1 ≤ nd ∧ nd ≤ 32 ∧ inAlloc s (leAt bs 12 4) (2 * nd) = true ∧ spBad s (leAt bs 12 4) (2 * nd) = none) → 0 < n → dests ≠ [] →
       copyChecks s 5 m.fill (BitVec.ofNat 64 (leAt bs 4 4)) [BitVec.ofNat 64 (leAt bs 4 4), BitVec.ofNat 64 n, BitVec.ofNat 64 (d.1.toNat % 2 ^ 48)]
         [{ space := m.src, addr := a.1, n := n, write := false }]
         (dests.map (fun t => { space := .spx, addr := BitVec.ofNat 64 (castAddr d.1.toNat t), n := n, write := true })) false = none →
       ∃ (t : State) (k : Copy), exec (.mcast o m) s = .next t ∧ t.copies = s.copies ++ [k] ∧ k.kind = .mcast ∧ k.dstSp = .spx ∧ k.bar = leAt bs 4 4
         ∧ k.chunks = dests.flatMap (fun x => chunksOf a.1.toNat d.1.toNat n x)
         ∧ t.mem = s.mem ∧ ScalarsBut s t [] ∧ PredsBut s t [] ∧ GoesOnAt s t o ∧ CoreFrame s t)
    ∧ (∀ e rc, stagedMap s a.1.toNat = some e → rcdOf e.trec = some rc → ready (.cpyt o m) s = true →
       let org := (List.range 5).map (fun i => signedOf 32 (leAt bs (4 * i) 4))
       let bar := BitVec.ofNat 64 (leAt bs 0x14 4)
       leAt bs 0x18 8 = 0 → walkBad (tmapOf e.map) org = false → rcdCheck (curBerth s).sects (some rc) (BitVec.ofNat 64 rc.base) 0 0 true false .plain 5 = none →
       bar.toNat % 16 = 0 → d.1.toNat % 16 = 0 → 0 < tmapOut (tmapOf e.map) →
       copyChecks s 5 m.fill bar []
         [{ space := rc.space, addr := BitVec.ofNat 64 (granFrom rc.base), n := rc.ext + rc.base % 16, write := false, only := rc.ilreg }]
         [{ space := m.dst, addr := d.1, n := tmapOut (tmapOf e.map), write := true }] false = none →
       ∃ (t : State) (k : Copy), exec (.cpyt o m) s = .next t ∧ t.copies = s.copies ++ [k] ∧ k.kind = .cpyt ∧ k.org = org ∧ k.map = e.map ∧ k.trec = e.trec
         ∧ k.bar = bar.toNat ∧ k.chunks = chunksOf 0 d.1.toNat (tmapOut (tmapOf e.map)) 0
         ∧ t.mem = s.mem ∧ ScalarsBut s t [] ∧ PredsBut s t [] ∧ GoesOnAt s t o ∧ CoreFrame s t)
    ∧ (∀ mb rb, stagedMap s a.1.toNat = none → fetchMap s a.1.toNat = .ok (mb, rb) → ready (.tmaps o) s = true →
       ∃ t : State, exec (.tmaps o) s = .next t ∧ (curCore t).maps.getLast? = some { gid := (curBerth s).gid, idx := a.1.toNat, map := mb, trec := rb }
         ∧ (curCore t).maps.length ≤ (curCore s).maps.length + 1 ∧ ScalarsBut s t [] ∧ PredsBut s t [] ∧ GoesOnAt s t o ∧ OtherUnits s t)

/-- R188 to R203: the copies as they issue. -/
def Obligations.CopyInstructions : Prop := Claims.CopiesIssue ∧ Claims.StridedCastAndMappedCopies

/-- R190, R191, R194, R195: a chunk that can land writes its bytes, and no others but its barrier's; under FILL its granules that have a
full/empty bit become full, and the accesses that wait are tested again. The barrier loses their count; one that is not armed, or holds
less, is BARRIER_OVERFLOW: it fails with nothing pending, and an event goes to the berth. A chunk for a peer's page is sent first, and lands
when it has been performed there (the model's choice: log entry 12). A chunk that meets a replayable fault parks its copy; at another fault the
copy has failed, and its cause goes to the berth, once (the model's choice: log entry 26). -/
def Obligations.CopySteps : Prop :=
  ∀ (s : State) (id j : Nat) (k : Copy) (c : Chunk), openChunk s id j = some (k, c) →
    (∀ bs l, chunkRun s k c = .land bs l → Safety.CanonicalMemory s →
      let ws := ((l.zip (dealOut (l.map (·.2)) bs)).filter (fun p => decide (p.1.1 ≠ 3))).map (·.2)
      let bar := copyBar s k
      let old := rdNat s.mem bar 16
      (granules (ws.map (fun p => (p.1, p.2.length)))).all (fun g => !isBad s g) = true →
      ((bar, leBytes 16 0) :: ws).Pairwise (fun x y => x.1 + x.2.length ≤ y.1 ∨ y.1 + y.2.length ≤ x.1) →
      ∃ u : State, exec (.chunkLanding id j) s = .next (if k.fill then retestAll u else u)
        ∧ (∀ p ∈ ws, ∀ i (h : i < p.2.length), rdByte u.mem (p.1 + i) = p.2[i])
        ∧ (∀ a, (∀ p ∈ (bar, leBytes 16 0) :: ws, a < p.1 ∨ p.1 + p.2.length ≤ a) → rdByte u.mem a = rdByte s.mem a)
        ∧ (∀ g, feGet u g = ((k.fill && decide (g ∈ granules ((l.filter (fun p => decide (p.1 < 2))).map (·.2)))) || feGet s g))
        ∧ (∀ q ∈ u.copies, q.id = id → (q.chunks[j]?).all (·.landed) = true)
        ∧ ((∀ y ∈ k.chunks.eraseIdx j, y.landed = true) → ∀ q ∈ u.copies, q.id ≠ id)
        ∧ u.graphs = s.graphs ∧ u.posted = s.posted ∧ u.stations = s.stations
        ∧ (barArmed old = true → c.len ≤ barPend old → rdBytes u.mem bar 16 = leBytes 16 (old - c.len) ∧ u.asyncs = s.asyncs)
        ∧ (barArmed old = false ∨ barPend old < c.len →
            let x := rdNat u.mem bar 16
            barFail x = true ∧ barPend x = 0 ∧ barGen x = barGen old ∧ barArmed x = barArmed old
              ∧ ∃ e : AsyncEv, u.asyncs = s.asyncs ++ [e] ∧ e.ev.code = 0x0403 ∧ e.ev.addr = BitVec.ofNat 64 k.bar
                ∧ e.gid = (berthAt (coreOf s k.core) k.berth).gid))
    ∧ (∀ kind p v a, k.st = .running → chunkRun s k c = .stall kind p v a →
      ∃ t : State, exec (.copyFaultParked id j) s = .next t ∧ (∀ q ∈ t.copies, q.id = id → q.st = .parked j)
        ∧ t.copies.map (·.id) = s.copies.map (·.id) ∧ t.cores = s.cores)
    ∧ (∀ bs l, chunkRun s k c = .send bs l →
      ∃ t : State, exec (.chunkLanding id j) s = .next t ∧ t.mem = s.mem ∧ t.fe = s.fe ∧ t.copies.map (·.id) = s.copies.map (·.id)
        ∧ (∀ q ∈ t.copies, q.id = id → (q.chunks[j]?).all (fun y => decide (y.data = bs)) = true))
    ∧ (∀ code a, chunkRun s k c = .fail code a none →
      ∃ t : State, exec (.copyFailed id j) s = .next t ∧ (∀ q ∈ t.copies, q.id = id → q.st = .failed) ∧ t.cores = s.cores
        ∧ (k.st = .failed → t.asyncs = s.asyncs)
        ∧ (k.st ≠ .failed → ∃ x : AsyncEv, t.asyncs = s.asyncs ++ [x] ∧ x.ev.code = code ∧ x.ev.addr = BitVec.ofNat 64 a
            ∧ x.gid = (berthAt (coreOf s k.core) k.berth).gid))

/-- R142, R203, R204, R284: SEND and SENDS outside a region whose destination has a slot send their message with the next sequence number
of its flow; LAUNCH of a packet in SP, or in the buffer of a record, enqueues it and writes 0, or 15 where the context is not enabled or its
queue is full. -/
def Obligations.MessagesLeave : Prop :=
  ∀ (s : State) (o : Ops), regionOpen s = false →
    let a := readSrc o.a s
    let b := readSrc o.b a.2
    let d := readSrc o.d b.2
    (∀ (i : Instr) (m : Trio) (payload : List Byte),
      ((i = .send o m ∧ payload = leBytes 8 a.1.toNat ++ leBytes 8 b.1.toNat)
        ∨ (i = .sends o m ∧ heldData s = none ∧ b.1.toNat ≤ 256 ∧ a.1.toNat % 16 = 0 ∧ inAlloc s a.1.toNat b.1.toNat = true ∧ spBad s a.1.toNat b.1.toNat = none
            ∧ payload = spSeen s a.1.toNat b.1.toNat)) →
      ready i s = true → ownPosted s s.cur.1 s.cur.2 = [] →
      hasSlot s (formMsg (curBerth s) (d.1.setWidth 32) payload) = true →
      (curCore s).handoff.any (sameFlow (formMsg (curBerth s) (d.1.setWidth 32) payload)) = false →
      ∃ (t : State) (x : Msg), exec i s = .next t ∧ t.transit = s.transit ++ [x] ∧ x.payload = payload ∧ x.len = payload.length ∧ x.route = d.1.setWidth 32
        ∧ x.gid = (curBerth s).gid ∧ x.sender = (if (curBerth s).ordered then 0xFFFF else (curBerth s).lcore)
        ∧ x.seq = (nextSeq s (curBerth s) (d.1.setWidth 32)).1 ∧ t.mem = s.mem
        ∧ ScalarsBut s t [] ∧ TrioPred s t m ∧ GoesOnAt s t o ∧ CoreFrame s t)
    ∧ (∀ g ps, heldRop s = none → ready (.launch o) s = true →
      (match o.a with
        | .b n => recTarget s n.toNat 0 1 64 .ld .plain (loadEng s false)
        | _ => .ok { x := curAcc s .sp a.1 64 .ld }) = .ok g →
      accChecks s g 16 = none → locate s g.x 0 = .ok (.here ps) → ownTouches s s.cur.1 s.cur.2 true ps = false →
      (granules ps).all (fun x => !isBad s x) = true →
      let ctx := (curGraph s).ctx
      ((ctxOf s ctx).enable = true → (ctxOf s ctx).queue.length < 256 →
        ∃ (t : State) (x : LaunchPkt), exec (.launch o) s = .next t ∧ (ctxOf t ctx).queue = (ctxOf s ctx).queue ++ [x] ∧ x.bytes = ps.flatMap (seenBytes s s.cur.1 s.cur.2)
          ∧ x.pasid = (if supNow s then none else some (curGraph s).pasid) ∧ Result s t o.d 0 ∧ t.mem = s.mem ∧ GoesOnAt s t o ∧ CoreFrame s t)
      ∧ ((ctxOf s ctx).enable = false ∨ 256 ≤ (ctxOf s ctx).queue.length →
        ∃ t : State, exec (.launch o) s = .next t ∧ Result s t o.d 15 ∧ (ctxOf t ctx).queue = (ctxOf s ctx).queue ∧ (ctxOf t ctx).fullseen = true
          ∧ GoesOnAt s t o))

/-- R365 to R369: NETPOST gives its requests consecutive numbers and writes the first; NETPOLL goes on at a counter that has reached its
count, and writes it; a request ends by its result, and a peer's access of a window moves bytes only where the window admits it. -/
def Obligations.NetworkEngine : Prop :=
  ∀ (s : State), Safety.CanonicalMemory s →
    (∀ (o : Ops), regionOpen s = false → ready (.netpost o) s = true → (curCore s).act.isSome = true →
      let p := (readSrc o.a s).1
      let n := (readSrc o.b (readSrc o.a s).2).1.toNat
      let rs := reqBlocks (spSeen s p.toNat (64 * n)) n
      1 ≤ n → n ≤ 16 → p.toNat % 64 = 0 → inAlloc s p.toNat (64 * n) = true → spBad s p.toNat (64 * n) = none →
      postChecks s 0 rs (windowsOf s s.cur.1 (actBerthNo (curCore s))) = none →
      postedReqs s s.cur.1 (actBerthNo (curCore s)) + n ≤ 64 → ownPosted s s.cur.1 s.cur.2 = [] →
      ∃ (t : State) (l : List NetReq), exec (.netpost o) s = .next t ∧ t.net.reqs = s.net.reqs ++ l ∧ l.map (·.bytes) = rs
        ∧ l.map (·.id) = (List.range n).map (fun j => (curBerth s).posted.toNat + j) ∧ (curBerth t).posted = (curBerth s).posted + BitVec.ofNat 64 n
        ∧ Result s t o.d (curBerth s).posted ∧ PredsBut s t [] ∧ t.mem = s.mem ∧ GoesOnAt s t o)
    ∧ (∀ (o : Ops) (m : Trio), ready (.netpoll o m) s = true → locTrap s (readSrc o.a s).1 = none →
      let h := locHome s s.cur.1 (actBerthNo (curCore s)) (readSrc o.a s).1.toNat
      let x := leNat (seenBytes s s.cur.1 s.cur.2 (h, 8))
      isBad s (h / 16) = false → ownTouches s s.cur.1 s.cur.2 true [(h, 8)] = false →
      (readSrc o.b (readSrc o.a s).2).1.toNat % 2 ^ 48 ≤ cntDone x + cntFailed x →
      ∃ t : State, exec (.netpoll o m) s = .next t ∧ Result s t o.d (BitVec.ofNat 64 x) ∧ TrioPred s t m ∧ GoesOnAt s t o ∧ Frame s t)
    ∧ (∀ k q d, s.net.reqs[k]? = some q → epValid (epEntry s (leAt q.bytes 2 2)) = true → 1 ≤ d → d ≤ 7 → d ≠ 5 →
      let h := locHome s q.core q.berth (leAt q.bytes 0x28 8)
      isBad s (h / 16) = false → h % 16 ≤ 8 →
      ∃ (t : State) (x : AsyncEv), exec (.workRequestComplete k (.failed d)) s = .next t ∧ t.net.reqs = s.net.reqs.eraseIdx k ∧ t.asyncs = s.asyncs ++ [x]
        ∧ x.ev.code = 0x0507 ∧ t.mem = wrBytes s.mem h (leBytes 8 (cntStep (rdNat s.mem h 8) true)))
    ∧ (∀ k q l bytes, s.net.reqs[k]? = some q → epValid (epEntry s (leAt q.bytes 2 2)) = true → reqReads q.bytes = false → reqPlaces s q = some l → q.ops = [] →
      let h := locHome s q.core q.berth (leAt q.bytes 0x28 8)
      isBad s (h / 16) = false → h % 16 ≤ 8 → l.all (fun p => decide (p.1 ≠ 3)) = true →
      ∃ t : State, exec (.workRequestComplete k (.done bytes)) s = .next t ∧ t.net.reqs = s.net.reqs.eraseIdx k
        ∧ t.net.sent = l.flatMap (fun p => rdBytes s.mem p.2.1 p.2.2) :: s.net.sent
        ∧ t.mem = wrBytes s.mem h (leBytes 8 (cntStep (rdNat s.mem h 8) false)))
    ∧ (∀ win key ofs bytes len, win < 1024 →
      (winAdmits (winEntry s win) key ofs bytes.length true = false →
        ∃ t : State, exec (.windowPlacement win key ofs bytes) s = .next t ∧ t.mem = s.mem ∧ t.net.sent = s.net.sent)
      ∧ (winAdmits (winEntry s win) key ofs len false = false →
        ∃ t : State, exec (.peerRead win key ofs len) s = .next t ∧ t.mem = s.mem ∧ t.net.sent = s.net.sent)
      ∧ (∀ a, winAdmits (winEntry s win) key ofs bytes.length true = true → winPlaces s (winEntry s win) ofs bytes.length true = some [(a, bytes.length)] →
        bitAt (leAt (winEntry s win) 0x10 8) 63 = false → (granules [(a, bytes.length)]).all (fun x => !isBad s x) = true →
        ∃ t : State, exec (.windowPlacement win key ofs bytes) s = .next t ∧ t.mem = wrBytes s.mem a bytes)
      ∧ (∀ l, winAdmits (winEntry s win) key ofs len false = true → winPlaces s (winEntry s win) ofs len false = some l → (granules l).any (isBad s) = false →
        ∃ t : State, exec (.peerRead win key ofs len) s = .next t ∧ t.mem = s.mem
          ∧ t.net.sent = l.flatMap (fun p => rdBytes s.mem p.1 p.2) :: s.net.sent))
    ∧ (s.net.iall = false → s.net.iwin = false → ∃ t : State, exec .tableRefreshEntry s = .next t ∧ t.net.ibusy = true ∧ amFind t.net.eps s.net.iidx.toNat = none
        ∧ t.net.wins = s.net.wins ∧ t.mem = s.mem)
    ∧ (s.net.iall = false → s.net.iwin = true → s.net.iidx.toNat < 1024 → ∃ t : State, exec .tableRefreshEntry s = .next t ∧ t.net.ibusy = true
        ∧ amFind t.net.wins s.net.iidx.toNat = none ∧ (∀ n, n ≠ s.net.iidx.toNat → amFind t.net.wins n = amFind s.net.wins n) ∧ t.net.eps = s.net.eps ∧ t.mem = s.mem)
    ∧ (s.net.iall = true → ∃ t : State, exec .tableRefreshAll s = .next t ∧ t.net.ibusy = true ∧ t.net.eps = [] ∧ t.net.wins = [] ∧ t.mem = s.mem)
    ∧ (∃ t : State, exec .tableRefreshDone s = .next t ∧ t.net.ibusy = false ∧ { t with net := s.net } = s)

/-- R352 to R363: RLD and RST send their packet and wait, or go on with the answer; a plain RST goes on at once; TABWAIT and TABTEST of this
device's own tablets read the rack, and of others go on with the answer. -/
def Obligations.RemoteInstructions : Prop :=
  ∀ (s : State) (o : Ops),
    let a := (readSrc o.a s).1 + (readSrc o.b (readSrc o.a s).2).1
    (∀ m : MemMod, ready (.rld o m) s = true → heldRop s = none → remoteChecks s a (sizeBytes m.size) = none → fabDev a ≠ selfId s →
      (isRelease m.sync = true → ownPosted s s.cur.1 s.cur.2 = []) →
      ∃ (t : State) (r : ROp), exec (.rld o m) s = .next t ∧ t.fabric.rops = s.fabric.rops ++ [r] ∧ r.kind = .load ∧ r.dev = fabDev a ∧ r.va = a ∧ r.held = true ∧ r.core = s.cur.1
        ∧ pcNow t = pcNow s ∧ (∃ w : Wait, waitNow t = some w ∧ w.instr = .rld o m) ∧ t.mem = s.mem)
    ∧ (∀ (m : MemMod) r bs, ready (.rld o m) s = true → heldRops s = [r] → r.rep = some (.data bs) →
      ∃ t : State, exec (.rld o m) s = .next t ∧ Result s t o.d (if m.sx then sextTo64 (8 * bs.length) (leNat bs) else leW64 bs)
        ∧ TrioPred s t m.trio ∧ heldRop t = none ∧ t.mem = s.mem ∧ GoesOnAt s t o ∧ CoreFrame s t)
    ∧ (∀ m : RstMod, ready (.rst o m) s = true → s.fabric.rops.find? (fun r => r.held && r.core == s.cur.1 && r.pilot == s.cur.2) = none →
      remoteChecks s a (sizeBytes m.size) = none → m.sync = .plain → m.tab = false → carried (curStream s) m.carry = [] → fabDev a ≠ selfId s →
      ∃ (t : State) (r : ROp), exec (.rst o m) s = .next t ∧ t.fabric.rops.getLast? = some r ∧ t.fabric.rops.length = s.fabric.rops.length + 1 ∧ r.kind = .store
        ∧ r.dev = fabDev a ∧ r.va = a ∧ r.held = false ∧ r.tab = none
        ∧ t.mem = s.mem ∧ ScalarsBut s t [] ∧ PredsBut s t [] ∧ GoesOnAt s t o ∧ CoreFrame s t)
    ∧ (∀ (m : RstMod) n idx, ready (.rst o m) s = true → o.d = .s n →
      s.fabric.rops.find? (fun r => r.held && r.core == s.cur.1 && r.pilot == s.cur.2) = none →
      remoteChecks s a (sizeBytes m.size) = none → m.sync = .plain → m.tab = true → carried (curStream s) m.carry = [] → freeRack s = some idx → idx < 4096 →
      ∃ t : State, exec (.rst o m) s = .next t ∧ (rackOf t idx).st = .pending ∧ (rackOf t idx).gen = (rackOf s idx).gen + 1 ∧ (rackOf t idx).dst = fabDev a
        ∧ readS t n = (tabletOf t idx).setWidth 64 ∧ (curStream t).tlast = some (tabletOf t idx) ∧ ScalarsBut s t [n] ∧ PredsBut s t []
        ∧ t.mem = s.mem ∧ GoesOnAt s t o)
    ∧ (∀ m : Trio, ready (.tabwait o m) s = true → regionOpen s = false → tabDev ((readSrc o.a s).1.setWidth 32) = selfId s →
      rackStatus s ((readSrc o.a s).1.setWidth 32) = 1 →
      ∃ t : State, exec (.tabwait o m) s = .next t ∧ TrioPred s t m ∧ ScalarsBut s t [] ∧ GoesOnAt s t o ∧ Frame s t)
    ∧ (∀ (m : Trio) r, ready (.tabwait o m) s = true → regionOpen s = false → tabDev ((readSrc o.a s).1.setWidth 32) ≠ selfId s →
      heldRops s = [r] → r.rep = some (.tablet 1) →
      ∃ t : State, exec (.tabwait o m) s = .next t ∧ TrioPred s t m ∧ ScalarsBut s t [] ∧ heldRop t = none ∧ t.mem = s.mem ∧ GoesOnAt s t o ∧ CoreFrame s t)
    ∧ (∀ m : PredMod, ready (.tabtest o m) s = true → tabDev ((readSrc o.a s).1.setWidth 32) = selfId s →
      let n := rackStatus s ((readSrc o.a s).1.setWidth 32)
      ∃ t : State, exec (.tabtest o m) s = .next t ∧ Result s t o.d (BitVec.ofNat 64 n) ∧ PredResult s t (.k m.pred) (decide (n = 1)) ∧ GoesOnAt s t o ∧ Frame s t)
    ∧ (∀ (m : PredMod) r n, ready (.tabtest o m) s = true → tabDev ((readSrc o.a s).1.setWidth 32) ≠ selfId s → heldRops s = [r] →
      r.rep = some (.tablet n) → n < 3 →
      ∃ t : State, exec (.tabtest o m) s = .next t ∧ Result s t o.d (BitVec.ofNat 64 n) ∧ PredResult s t (.k m.pred) (decide (n = 1)) ∧ GoesOnAt s t o
        ∧ CoreFrame s t ∧ t.mem = s.mem)

/- The vector engine. -/

/-- R91, R230 to R234, R254, R256: a vector instruction that passes its checks, with fewer than two commands queued, joins the queue as the
last command with its operands consumed, and the stream goes on: an entry that a vector source names is the command's data and has left its
queue. One that may raise a flag for which a trap is enabled holds its stream in its trap window, and consumes nothing yet. Nothing is written
yet. -/
def Sys2Proof.Claims.VectorInstructionsIssue : Prop :=
  ∀ (i : Instr) (s : State) (o : Ops) (m : VecMod), vectorOf i = some (o, m) → ready i s = true → VectorOk i s o m → (curCore s).vq.length < 2 →
    let v := (vecCmd i o m (vecOps i).2.1 (vecOps i).2.2 (isVrand i) s).1
    v.instr = i ∧ v.pc = pcNow s ∧ v.m.ty = (effMod s m).ty ∧ v.win = false
    ∧ (mayRaise v.m (neverRaises i) = false ∨ v.en = 0 →
      ∃ t : State, exec i s = .next t ∧ (curCore t).vq = (curCore s).vq ++ [v] ∧ ScalarsBut s t [] ∧ PredsBut s t [] ∧ GoesOnAt s t o ∧ OtherUnits s t
        ∧ (curCore t).q = (curCore (vecCmd i o m (vecOps i).2.1 (vecOps i).2.2 (isVrand i) s).2).q
        ∧ (∀ n bs l, o.a = .q n → (vecOps i).2.1 = false → qGet (curCore s) n = .block bs :: l → v.a = .data bs ∧ (o.b ≠ .q n → qGet (curCore t) n = l))
        ∧ (∀ n bs l, o.b = .q n → (vecOps i).2.2 = false → o.a ≠ .q n → qGet (curCore s) n = .block bs :: l → v.b = .data bs ∧ qGet (curCore t) n = l)
        ∧ (∀ n x l, o.b = .q n → (vecOps i).2.2 = true → o.a ≠ .q n → qGet (curCore s) n = .word x :: l → v.b = .scalar x ∧ qGet (curCore t) n = l))
    ∧ (mayRaise v.m (neverRaises i) = true → v.en ≠ 0 →
      ∃ t : State, exec i s = .next t ∧ (curCore t).vq = (curCore s).vq ++ [{ v with win := true }] ∧ ScalarsBut s t [] ∧ PredsBut s t []
        ∧ pcNow t = pcNow s ∧ (∃ w : Wait, waitNow t = some w ∧ w.instr = i ∧ w.why = .window) ∧ (curCore t).q = (curCore s).q ∧ OtherUnits s (samePlace s t))

/-- R232, R233, R252 to R255: VECTOR_COMPLETE writes the oldest command's result where its OPD says, joins its flags to FPFLAGS, and takes it
from the queue. In a trap window the stream goes on, or traps FP_TRAP when an enabled flag was raised. -/
def Sys2Proof.Claims.VectorCommandsComplete : Prop :=
  ∀ (s : State) (c : Nat) (v : VCmd) (rest : List VCmd), c < 1024 → (coreOf s c).vq = v :: rest → geared s c = false → vecBlocked (coreOf s c) v = false →
    let r := vecResult s v
    (v.win = false →
      ∃ t : State, exec (.vectorComplete c) s = .next t ∧ (coreOf t c).vq = rest
        ∧ (coreOf t c).ex.fpflags = (coreOf s c).ex.fpflags ||| BitVec.ofNat 5 (vecRaised v r)
        ∧ (∀ d, d ≠ c → coreOf t d = coreOf s d) ∧ t.fe = s.fe
        ∧ (match v.d with
          | .none => t.mem = s.mem
          | .reg a => t.mem = wrBytes s.mem a r.bytes
          | .queue q => t.mem = s.mem ∧ qGet (coreOf t c) q = qGet (coreOf s c) q ++ [match r.scalar with | some x => .word x | none => .block r.bytes]
          | .scalar n => t.mem = s.mem ∧ (if v.sup then sGet (coreOf t c).supS n else sGet (coreOf t c).ex.s n) = r.scalar.getD 0))
    ∧ (v.win = true → v.en.toNat &&& vecRaised v r ≠ 0 → (coreOf s c).sup = false → (coreOf s c).region = none → (∀ x ∈ rest, x.win = false) →
      ∃ t : State, exec (.vectorComplete c) s = .next t ∧ (coreOf t c).vq = rest ∧ (coreOf t c).sup = true ∧ (coreOf t c).tcause = 0x0120
        ∧ (coreOf t c).tpc = (coreOf s c).ex.pc ∧ t.mem = s.mem)
    ∧ (v.win = true → v.en.toNat &&& vecRaised v r = 0 → (coreOf s c).sup = false → (coreOf s c).stepping = 0 →
      ∃ t : State, exec (.vectorComplete c) s = .next t ∧ (coreOf t c).vq = rest ∧ (coreOf t c).ex.wait = none
        ∧ (coreOf t c).ex.pc = (coreOf s c).ex.pc + BitVec.ofNat 64 (instrLen (vecOps v.instr).1)
        ∧ t.mem = (match v.d with | .reg a => wrBytes s.mem a r.bytes | _ => s.mem))

/-- R91, R231 to R256: vector instructions enter the engine and complete there. -/
def Obligations.VectorInstructions : Prop := Claims.VectorInstructionsIssue ∧ Claims.VectorCommandsComplete

/-- R206, R236: lane by lane, what the integer instructions of the vector group compute on 32-bit elements, wrapping. -/
def Sys2Proof.Claims.WrappingLanes : Prop :=
  ∀ (o : Ops) (x : VIn) (a b d : List Byte) (k : Nat), x.m.ty = .s32 → x.m.sat = false → x.a = .bytes a → x.b = .bytes b → x.d = .bytes d →
    a.length = 256 → b.length = 256 → d.length = 256 → k < 64 →
    let out := fun (i : Instr) => lane (vecCompute i x).bytes k
    out (.vadd o x.m) = lane a k + lane b k ∧ out (.vsub o x.m) = lane a k - lane b k ∧ out (.vmul o x.m) = lane a k * lane b k
      ∧ out (.vfma o x.m) = lane a k * lane b k + lane d k
      ∧ out (.vand o x.m) = lane a k &&& lane b k ∧ out (.vor o x.m) = lane a k ||| lane b k ∧ out (.vxor o x.m) = lane a k ^^^ lane b k
      ∧ out (.vneg o x.m) = -(lane a k) ∧ out (.vabs o x.m) = (if (lane a k).msb then -(lane a k) else lane a k)
      ∧ out (.vmin o x.m) = (if (lane b k).slt (lane a k) then lane b k else lane a k)
      ∧ out (.vmax o x.m) = (if (lane a k).slt (lane b k) then lane b k else lane a k)

/-- R205, R206, R222, R223, R236, R237, R243: element by element, what the vector instructions compute on the integer types, exactly and then
wrapped or clamped to the type; the selection and the bitwise instructions take raw bits of every type. -/
def Sys2Proof.Claims.IntegerElements : Prop :=
  ∀ (o : Ops) (x : VIn) (k : Nat), k < 256 / vbytes x.m.ty →
    let t := x.m.ty
    let n := 8 * vbytes t
    let a := elemOf (vbytes t) x.a k
    let b := elemOf (vbytes t) x.b k
    let d := elemOf (vbytes t) x.d k
    let out := fun (i : Instr) => elemOf (vbytes t) (.bytes (vecCompute i x).bytes) k
    (isFloat t = false →
      let fit := narrowTo (signedType t) x.m.sat n
      let v := valueIn t
      let s := b.toNat % n
      out (.vadd o x.m) = fit (v a + v b) ∧ out (.vsub o x.m) = fit (v a - v b) ∧ out (.vmul o x.m) = fit (v a * v b)
        ∧ out (.vfma o x.m) = fit (v a * v b + v d) ∧ out (.vabs o x.m) = fit (v a).natAbs ∧ out (.vneg o x.m) = fit (-v a)
        ∧ out (.vshl o x.m) = fit (v a * (2 ^ s : Nat)) ∧ out (.vshr o x.m) = fit (v a / (2 ^ s : Nat))
        ∧ out (.vmin o x.m) = (if v b < v a then b else a) ∧ out (.vmax o x.m) = (if v a < v b then b else a)
        ∧ v (out (.vclamp o x.m)) = min (max (v d) (v a)) (v b)
        ∧ (∀ r, relOf x.m.func.toNat = some r → out (.vcmp o x.m) = if related r (v a) (v b) then BitVec.allOnes n else 0))
    ∧ out (.vsel o x.m) = (if d ≠ 0 then a else b) ∧ out (.vand o x.m) = a &&& b ∧ out (.vor o x.m) = a ||| b ∧ out (.vxor o x.m) = a ^^^ b
    ∧ (∀ j, j < 64 → t ∈ [.s8, .n8] → x.m.ty2 ∈ [.s8, .n8] →
        lane (vecCompute (.vdot4 o x.m) x).bytes j
          = narrowTo true x.m.sat 32 ((elemOf 4 x.d j).toInt
              + ((List.range 4).map (fun i => reading (signedType t) 8 (elemOf 1 x.a (4 * j + i)) * reading (signedType x.m.ty2) 8 (elemOf 1 x.b (4 * j + i)))).sum))

/-- R213, R214, R219, R222, R223, R225, R236: on floats: a NaN operand gives the canonical NaN, but for MIN and MAX, which return the other; VABS and
VNEG change the sign bit alone; MIN, MAX and VCMP follow the order of the values; the difference of two infinities and their product with
zero are NaNs that raise NV; and the product with 1.0 and the sum with +0 leave a value as it is. -/
def Sys2Proof.Claims.FloatElements : Prop :=
  ∀ (o : Ops) (x : VIn) (k can top one : Nat), floatFacts x.m.ty = some (can, top, one) → k < 256 / vbytes x.m.ty →
    let n := 8 * vbytes x.m.ty
    let a := elemOf (vbytes x.m.ty) x.a k
    let b := elemOf (vbytes x.m.ty) x.b k
    let d := elemOf (vbytes x.m.ty) x.d k
    let out := fun (i : Instr) => elemOf (vbytes x.m.ty) (.bytes (vecCompute i x).bytes) k
    let raised := fun (i : Instr) => (vecCompute i x).fl.getD k 0
    let isN := fun (y : BitVec n) => top < magnitude n y
    let nan := BitVec.ofNat n can
    (out (.vabs o x.m) = if isN a then nan else BitVec.ofNat n (magnitude n a))
    ∧ (out (.vneg o x.m) = if isN a then nan else a ^^^ BitVec.ofNat n (2 ^ (n - 1)))
    ∧ (isN a ∨ isN b → out (.vadd o x.m) = nan ∧ out (.vsub o x.m) = nan ∧ out (.vmul o x.m) = nan ∧ out (.vfma o x.m) = nan)
    ∧ (isN d → out (.vfma o x.m) = nan)
    ∧ (out (.vmin o x.m) = if isN a ∧ isN b then nan else if isN a then b else if isN b then a else if floatPlace n b < floatPlace n a then b else a)
    ∧ (out (.vmax o x.m) = if isN a ∧ isN b then nan else if isN a then b else if isN b then a else if floatPlace n a < floatPlace n b then b else a)
    ∧ (∀ r, relOf x.m.func.toNat = some r →
        out (.vcmp o x.m) = if (if isN a ∨ isN b then decide (r = .ne) else related r (floatKey n a) (floatKey n b)) then BitVec.allOnes n else 0)
    ∧ (∀ i, infinityOf x.m.ty = some i → magnitude n a = i →
        (magnitude n b = i → a.msb ≠ b.msb → out (.vadd o x.m) = nan ∧ raised (.vadd o x.m) = 1)
        ∧ (magnitude n b = 0 → out (.vmul o x.m) = nan ∧ raised (.vmul o x.m) = 1))
    ∧ (¬isN a → x.m.sat = false →
        (b.toNat = one → out (.vmul o x.m) = a ∧ raised (.vmul o x.m) = 0)
        ∧ (b = 0 → magnitude n a ≠ 0 → out (.vadd o x.m) = a ∧ raised (.vadd o x.m) = 0))

/-- R239: the special operands of VRCP, VRSQ, VEXP2 and VLOG2 on F32, with the flags that they raise. -/
def Sys2Proof.Claims.SpecialOperands : Prop :=
  ∀ (o : Ops) (x : VIn) (k : Nat), x.m.ty = .f32 → x.m.sat = false → k < 64 →
    let a := elemOf 4 x.a k
    let Gives := fun (i : Instr) (r : BitVec 32) (f : Nat) => lane (vecCompute i x).bytes k = r ∧ (vecCompute i x).fl.getD k 0 = f
    (a = 0x00000000 → Gives (.vrcp o x.m) 0x7F800000 2 ∧ Gives (.vrsq o x.m) 0x7F800000 2 ∧ Gives (.vexp2 o x.m) 0x3F800000 0 ∧ Gives (.vlog2 o x.m) 0xFF800000 2)
    ∧ (a = 0x80000000 → Gives (.vrcp o x.m) 0xFF800000 2 ∧ Gives (.vrsq o x.m) 0xFF800000 2 ∧ Gives (.vexp2 o x.m) 0x3F800000 0 ∧ Gives (.vlog2 o x.m) 0xFF800000 2)
    ∧ (a = 0x7F800000 → Gives (.vrcp o x.m) 0 0 ∧ Gives (.vrsq o x.m) 0 0 ∧ Gives (.vexp2 o x.m) 0x7F800000 0 ∧ Gives (.vlog2 o x.m) 0x7F800000 0)
    ∧ (a = 0xFF800000 → Gives (.vrcp o x.m) 0x80000000 0 ∧ Gives (.vrsq o x.m) 0x7FC00000 1 ∧ Gives (.vexp2 o x.m) 0 0 ∧ Gives (.vlog2 o x.m) 0x7FC00000 1)
    ∧ (a.msb = true → 0 < magnitude 32 a → magnitude 32 a < 0x7F800000 → Gives (.vrsq o x.m) 0x7FC00000 1 ∧ Gives (.vlog2 o x.m) 0x7FC00000 1)
    ∧ (a = 0x3F800000 → Gives (.vrcp o x.m) 0x3F800000 0 ∧ Gives (.vrsq o x.m) 0x3F800000 0 ∧ Gives (.vexp2 o x.m) 0x40000000 0 ∧ Gives (.vlog2 o x.m) 0 0)

/-- R223, R224, R227, R232, R241, R242: the reductions to a scalar: the exact sum of integers, the extremum, and the place and bits of the extremum,
the lowest of equals. Of floats NaNs are passed over, and where every element is one the result is the canonical NaN, in lane 0. -/
def Sys2Proof.Claims.Reductions : Prop :=
  ∀ (o : Ops) (x : VIn),
    let t := x.m.ty
    let n := 8 * vbytes t
    let a := fun (k : Nat) => elemOf (vbytes t) x.a k
    let lanes := 256 / vbytes t
    let result := fun (i : Instr) => (vecCompute i x).scalar
    (isFloat t = false →
      (x.m.ty2 ∈ [.s32, .n32] → result (.vredadd o x.m)
        = some (widened (signedType x.m.ty2) 32 (narrowTo (signedType x.m.ty2) x.m.sat 32 ((List.range lanes).map (fun k => valueIn t (a k))).sum)))
      ∧ (∃ k < lanes, result (.vredmax o x.m) = some (widened (signedType t) n (a k)) ∧ ∀ j < lanes, valueIn t (a j) ≤ valueIn t (a k))
      ∧ (∃ k < lanes, result (.vredmin o x.m) = some (widened (signedType t) n (a k)) ∧ ∀ j < lanes, valueIn t (a k) ≤ valueIn t (a j))
      ∧ (∃ k < lanes, result (.vargmax o x.m) = some (BitVec.ofNat 64 (k + (a k).toNat * 2 ^ 32)) ∧ (∀ j < lanes, valueIn t (a j) ≤ valueIn t (a k))
          ∧ ∀ j < k, valueIn t (a j) < valueIn t (a k))
      ∧ (∃ k < lanes, result (.vargmin o x.m) = some (BitVec.ofNat 64 (k + (a k).toNat * 2 ^ 32)) ∧ (∀ j < lanes, valueIn t (a k) ≤ valueIn t (a j))
          ∧ ∀ j < k, valueIn t (a k) < valueIn t (a j)))
    ∧ (∀ can top one, floatFacts t = some (can, top, one) →
      let real := fun (j : Nat) => magnitude n (a j) ≤ top
      ((∀ j < lanes, ¬real j) →
        result (.vredmax o x.m) = some (BitVec.ofNat 64 can) ∧ result (.vredmin o x.m) = some (BitVec.ofNat 64 can)
          ∧ result (.vargmax o x.m) = some (BitVec.ofNat 64 (can * 2 ^ 32)) ∧ result (.vargmin o x.m) = some (BitVec.ofNat 64 (can * 2 ^ 32)))
      ∧ ((∃ j < lanes, real j) →
        (∃ k < lanes, real k ∧ result (.vredmax o x.m) = some ((a k).setWidth 64) ∧ ∀ j < lanes, real j → floatPlace n (a j) ≤ floatPlace n (a k))
        ∧ (∃ k < lanes, real k ∧ result (.vredmin o x.m) = some ((a k).setWidth 64) ∧ ∀ j < lanes, real j → floatPlace n (a k) ≤ floatPlace n (a j))
        ∧ (∃ k < lanes, real k ∧ result (.vargmax o x.m) = some (BitVec.ofNat 64 (k + (a k).toNat * 2 ^ 32))
            ∧ (∀ j < lanes, real j → floatPlace n (a j) ≤ floatPlace n (a k)) ∧ ∀ j < k, real j → floatPlace n (a j) < floatPlace n (a k))
        ∧ (∃ k < lanes, real k ∧ result (.vargmin o x.m) = some (BitVec.ofNat 64 (k + (a k).toNat * 2 ^ 32))
            ∧ (∀ j < lanes, real j → floatPlace n (a k) ≤ floatPlace n (a j)) ∧ ∀ j < k, real j → floatPlace n (a k) < floatPlace n (a j))))

/-- R232, R243: the element moves: by the indices of B, by one index, by a rotation, an arithmetic row, and to and from a scalar. -/
def Sys2Proof.Claims.ElementMoves : Prop :=
  ∀ (o : Ops) (x : VIn) (k : Nat), k < 256 / vbytes x.m.ty →
    let t := x.m.ty
    let n := 8 * vbytes t
    let lanes := 256 / vbytes t
    let a := fun (j : Nat) => elemOf (vbytes t) x.a j
    let out := fun (i : Instr) => elemOf (vbytes t) (.bytes (vecCompute i x).bytes) k
    out (.vperm o x.m) = a ((elemOf (vbytes t) x.b k).toNat % lanes)
    ∧ (∀ y, x.b = .scalar y → out (.vbcast o x.m) = a (y.toNat % lanes) ∧ out (.vrot o x.m) = a ((k + y.toNat) % lanes)
        ∧ (vecCompute (.vmovsGet o x.m) x).scalar = some (widened (signedType t) n (a (y.toNat % lanes))))
    ∧ (∀ p q, x.a = .scalar p → x.b = .scalar q →
        (isFloat t = false → out (.viota o x.m) = narrowTo (signedType t) x.m.sat n (p.toInt + k * q.toInt))
        ∧ out (.vmovsPut o x.m) = if k = q.toNat % lanes then p.setWidth n else elemOf (vbytes t) x.d k)

/-- R214, R220, R245 to R247: the conversions, by parts: between integers exactly, then wrapped or clamped; of a NaN 0 or the canonical NaN, of an
infinity the end of the range; of a float to its own type the same bits, of BF16 to F32 its bits with 16 zeros below, of F32 to BF16 toward zero
its upper 16 bits. A scale that is a NaN gives 0 and the canonical NaN. -/
def Sys2Proof.Claims.Conversions : Prop :=
  ∀ (o : Ops) (x : VIn) (k : Nat), partOk x.m = true → k < 256 / vbytes x.m.ty2 →
    let t := x.m.ty
    let u := x.m.ty2
    let n := 8 * vbytes u
    let a := fun (j : Nat) => elemOf (vbytes t) x.a j
    let out := fun (i : Instr) => elemOf (vbytes u) (.bytes (vecCompute i x).bytes) k
    let nanIn := fun (j : Nat) => (floatFacts t).any (fun y => decide (y.2.1 < magnitude (8 * vbytes t) (a j)))
    let nanScale := fun (y : W64) => decide (0x7F800000 < y.toNat % 2 ^ 31)
    (sourceOf x.m k = none → out (.vcvt o x.m) = elemOf (vbytes u) x.d k ∧ out (.vquant o x.m) = elemOf (vbytes u) x.d k ∧ out (.vdeq o x.m) = elemOf (vbytes u) x.d k)
    ∧ (∀ j, sourceOf x.m k = some j →
      (isFloat t = false → isFloat u = false → out (.vcvt o x.m) = narrowTo (signedType u) x.m.sat n (valueIn t (a j)))
      ∧ (isFloat t = true → isFloat u = false →
          (nanIn j = true → out (.vcvt o x.m) = 0)
          ∧ (infinityOf t = some (magnitude (8 * vbytes t) (a j)) →
              out (.vcvt o x.m) = if (a j).msb then narrowTo (signedType u) true n (-(2 ^ 40)) else narrowTo (signedType u) true n (2 ^ 40))
          ∧ (∀ y, x.b = .scalar y → nanIn j = true ∨ nanScale y = true → out (.vquant o x.m) = 0))
      ∧ (∀ can top one, isFloat t = true → floatFacts u = some (can, top, one) → nanIn j = true → out (.vcvt o x.m) = BitVec.ofNat n can)
      ∧ (∀ can top one y, isFloat t = false → floatFacts u = some (can, top, one) → x.b = .scalar y → nanScale y = true → out (.vdeq o x.m) = BitVec.ofNat n can)
      ∧ (isFloat t = true → nanIn j = false →
          (u = t → x.m.sat = false → (out (.vcvt o x.m)).toNat = (a j).toNat)
          ∧ (t = .bf16 → u = .f32 → x.m.sat = false → (out (.vcvt o x.m)).toNat = (a j).toNat * 2 ^ 16)
          ∧ (t = .f32 → u = .bf16 → x.m.sat = false → x.m.rnd = .rtz → (out (.vcvt o x.m)).toNat = (a j).toNat / 2 ^ 16)))

/-- R205, R206, R208, R250, R251: the bit-plane instructions on the types S8, N8, S16 and N16: elements to a stack and back, sums, differences and
products of two stacks, and their relation as a stack of width 1. The bytes past a stack are 0. -/
def Sys2Proof.Claims.PlaneInstructions : Prop :=
  ∀ (o : Ops) (x : VIn) (j : Nat), x.m.ty ∈ [.s8, .n8, .s16, .n16] → 1 ≤ x.w → x.w ≤ 8 * vbytes x.m.ty → j < 256 / vbytes x.m.ty →
    let t := x.m.ty
    let lanes := 256 / vbytes t
    let a := stackOf lanes x.w x.a j
    let b := stackOf lanes x.w x.b j
    let v := reading (signedType t) x.w
    let fit := narrowTo (signedType t) x.m.sat x.w
    let out := fun (i : Instr) => stackOf lanes x.w (.bytes (vecCompute i x).bytes) j
    out (.vpln o x.m) = fit (valueIn t (elemOf (vbytes t) x.a j))
    ∧ elemOf (vbytes t) (.bytes (vecCompute (.vunpln o x.m) x).bytes) j = (if signedType t then a.signExtend (8 * vbytes t) else a.setWidth (8 * vbytes t))
    ∧ out (.padd o x.m) = fit (v a + v b) ∧ out (.psub o x.m) = fit (v a - v b) ∧ out (.pmul o x.m) = fit (v a * v b)
    ∧ (∀ r, relOf x.m.func.toNat = some r →
        stackOf lanes 1 (.bytes (vecCompute (.pcmp o x.m) x).bytes) j = BitVec.ofBool (related r (v a) (v b))
          ∧ ∀ i, lanes / 8 ≤ i → (vecCompute (.pcmp o x.m) x).bytes.getD i 0 = 0)
    ∧ (∀ i ∈ [Instr.vpln o x.m, .padd o x.m, .psub o x.m, .pmul o x.m], (vecCompute i x).bytes.length = 256
        ∧ ∀ q, x.w * (lanes / 8) ≤ q → (vecCompute i x).bytes.getD q 0 = 0)

/-- R205 to R251: what the instructions of the vector engine compute. -/
def Obligations.VectorValues : Prop :=
  Claims.WrappingLanes ∧ Claims.IntegerElements ∧ Claims.FloatElements ∧ Claims.SpecialOperands ∧ Claims.Reductions ∧ Claims.ElementMoves
    ∧ Claims.Conversions ∧ Claims.PlaneInstructions

/- The matrix slice. -/

/-- R260, R264, R265, R270 to R272, R275, R277: the matrix instructions join the queue of the slice with their operands; MWAIT goes on once the
queue is empty, and GANG of width 1 leaves a gang. -/
def Obligations.MatrixInstructions : Prop :=
  ∀ (s : State) (o : Ops), MatrixReady s →
    (∀ i m kind tile acc, productOf i = some (o, m, kind) → ready i s = true →
      let d := (readSrc o.a s).1
      tileHome s o.b = some tile → descOk d m (kind == .mmas) = true → accHome s o.d (accRegs (descN d)) = some acc →
      (decide ((curCore s).mat.width ≤ 1) || decide (memberNo s (curCore s) = 0) = true →
        matSp s (BitVec.ofNat 64 (d.toNat % 2 ^ 17)) (512 * (m.apl.toNat + 1)) false = none) →
      ∃ (t : State) (x : MOp), exec i s = .next t ∧ MatrixQueued s t o x ∧ x.kind = kind ∧ x.desc = d ∧ x.m = m ∧ x.acc = acc ∧ x.tile = tile ∧ t.mem = s.mem)
    ∧ (∀ acc, ready (.mzero o) s = true → 1 ≤ (readSrc o.a s).1.toNat → (readSrc o.a s).1.toNat ≤ 8 →
      accHome s o.d (readSrc o.a s).1.toNat = some acc →
      ∃ (t : State) (x : MOp), exec (.mzero o) s = .next t ∧ MatrixQueued s t o x ∧ x.kind = .mzero ∧ x.acc = acc ∧ x.count = (readSrc o.a s).1.toNat ∧ t.mem = s.mem)
    ∧ (∀ acc, ready (.mdrain o) s = true → accHome s o.a 1 = some acc →
      let x := (readSrc o.b s).1.toNat
      let a := (readSrc o.d (readSrc o.b s).2).1
      x < 2 ^ 14 → x / 64 % 128 ≠ 0 → x % 64 + x / 64 % 128 ≤ 64 → matSp s a (128 * (x / 64 % 128)) true = none →
      ∃ (t : State) (y : MOp), exec (.mdrain o) s = .next t ∧ MatrixQueued s t o y ∧ y.kind = .mdrain ∧ y.acc = acc ∧ y.sp = a.toNat ∧ y.count = x / 64 % 128
        ∧ y.desc = (readSrc o.b s).1 ∧ t.mem = s.mem)
    ∧ (ready (.sclsend o) s = true → vBad s o.a = false →
      let x := (readSrc o.b (readVS o.a s).2).1.toNat
      x < 2 ^ 9 → x % 4 ≠ 3 → x / 4 % 4 = 0 → (x / 256 = 1 → x / 16 % 16 = 0) → x / 16 % 16 < (curCore s).mat.width →
      ∃ (t : State) (y : MOp), exec (.sclsend o) s = .next t ∧ MatrixQueued s t o y ∧ y.kind = .sclsend ∧ y.src = (readVS o.a s).1 ∧ t.mem = s.mem)
    ∧ (issues (.mwait o) s = true → (curCore s).mat.queue = [] → sendsDone s s.cur.1 = true →
      ∃ t : State, exec (.mwait o) s = .next t ∧ ScalarsBut s t [] ∧ PredsBut s t [] ∧ GoesOnAt s t o ∧ Frame s t)
    ∧ (ready (.gang o) s = true → (readSrc o.a s).1 = 1 → (curCore s).mat.formed = false →
      ∃ t : State, exec (.gang o) s = .next t ∧ Result s t o.d 1 ∧ (curCore t).mat.formed = false ∧ (curCore t).mat.width = 1 ∧ PredsBut s t []
        ∧ GoesOnAt s t o ∧ OtherUnits s t)
    ∧ (∀ g, ready (.gang o) s = true → (readSrc o.a s).1 = BitVec.ofNat 64 g → g ∈ [2, 4, 8, 16] →
      ∃ t : State, exec (.gang o) s = .next t ∧ (curCore t).mat.arrive = some g ∧ (curCore t).mat.arriveWall = s.wall ∧ pcNow t = pcNow s
        ∧ (∃ w : Wait, waitNow t = some w ∧ w.instr = .gang o ∧ w.why = .gang) ∧ ScalarsBut s t [] ∧ t.mem = s.mem)

/-- R211, R257, R266, R270, R271, R273 to R276: a product at width 1 starts by reading its tile, planes and scales; at completion it writes its
accumulators; MZERO clears them, MDRAIN writes rows to SP, SCLSEND delivers; a delivery fills an empty slot; a product whose scales never come
fails its slice. -/
def Sys2Proof.Claims.MatrixSteps : Prop :=
  ∀ (s : State) (c : Nat), c < 1024 → geared s c = false → Safety.CanonicalMemory s →
    (∀ x, readyHead s c = some x → isProduct x = true → x.gang ≤ 1 → slotsMissing (coreOf s c).mat x = false →
      ∃ (t : State) (y : MOp) (rest : List MOp), exec (.matrixProductStart c) s = .next t ∧ (coreOf t c).mat.queue = y :: rest ∧ rest = (coreOf s c).mat.queue.tail ∧ y.started = true
        ∧ y.kind = x.kind ∧ y.desc = x.desc ∧ y.tileB = rdBytes s.mem x.tile 2048 ∧ y.planes = leaderPlanes s c x
        ∧ (x.kind ≠ .mmas → (coreOf t c).mat.ascl = (coreOf s c).mat.ascl) ∧ t.mem = s.mem)
    ∧ (∀ x rest, (coreOf s c).mat.queue = x :: rest → matBlocked (coreOf s c) x = false →
      (isProduct x = true → x.started = true → leaderWaits s c x = false →
        ∃ t : State, exec (.matrixComplete c) s = .next t ∧ t.mem = (writeProduct s c x).mem ∧ (coreOf t c).mat.queue.length = rest.length)
      ∧ (x.kind = .mzero →
        ∃ t : State, exec (.matrixComplete c) s = .next t ∧ (∀ j, j < 8192 * x.count → rdByte t.mem (x.acc + j) = 0)
          ∧ (∀ a, a < x.acc ∨ x.acc + 8192 * x.count ≤ a → rdByte t.mem a = rdByte s.mem a) ∧ (coreOf t c).mat.queue.length = rest.length)
      ∧ (x.kind = .mdrain → x.desc.getLsbD 13 = false →
        let h := spAddr c (x.spB * 2048 + x.sp)
        (granules [(h, 128 * x.count)]).all (fun g => !isBad s g) = true →
        ∃ t : State, exec (.matrixComplete c) s = .next t
          ∧ t.mem = wrBytes s.mem h (rdBytes s.mem (x.acc + 128 * (x.desc.toNat % 64)) (128 * x.count)) ∧ (coreOf t c).mat.queue.length = rest.length)
      ∧ (x.kind = .sclsend → x.peers = [c] →
        ∃ (t : State) (d : ScaleDel), exec (.matrixComplete c) s = .next t ∧ (coreOf t c).mat.deliver = (coreOf s c).mat.deliver ++ [d] ∧ d.slot = x.desc.toNat % 4 ∧ d.src = c
          ∧ (coreOf t c).mat.queue.length = rest.length ∧ t.mem = s.mem))
    ∧ (∀ k d, (coreOf s c).mat.deliver[k]? = some d → slotEmpty (coreOf s c).mat d.slot = true →
      ((coreOf s c).mat.deliver.take k).any (fun x => x.slot == d.slot) = false →
      ∃ t : State, exec (.scaleDelivery c k) s = .next t ∧ (coreOf t c).mat.deliver = (coreOf s c).mat.deliver.eraseIdx k
        ∧ (d.slot = 0 → (coreOf t c).mat.ascl = some d.bytes) ∧ (d.slot = 1 → (coreOf t c).mat.blo = some d.bytes)
        ∧ (2 ≤ d.slot → (coreOf t c).mat.bhi = some d.bytes) ∧ t.mem = s.mem)
    ∧ (∀ x rest w, (coreOf s c).mat.queue = x :: rest → x.started = false → slotsMissing (coreOf s c).mat x = true → x.headWall = some w →
      x.lim ≤ s.wall - w → (coreOf s c).mat.formed = false → (coreOf s c).mat.failed = none →
      ∃ t : State, exec (.scaleMissing c) s = .next t ∧ (coreOf t c).mat.failed = some (0x0406, 1) ∧ (∀ y ∈ (coreOf t c).mat.queue, y.started = true) ∧ t.mem = s.mem)

/-- R207 to R211, R257, R266, R270: a started MMA or MMAZ with an S32 accumulator writes, in each of its N columns and 64 rows, the old element, or 0
for MMAZ, plus the sum of the 64 products of the row of A, of APL + 1 planes, and the column of B, clamped; ACCSAT is set where a clamp changes a
value. The columns past N and all other memory are as before. -/
def Sys2Proof.Claims.IntegerProducts : Prop :=
  ∀ (s : State) (c : Nat) (x : MOp) (rest : List MOp), c < 1024 → geared s c = false → Safety.CanonicalMemory s →
    (coreOf s c).mat.queue = x :: rest → matBlocked (coreOf s c) x = false → isProduct x = true → x.started = true → leaderWaits s c x = false →
    x.kind ≠ .mmas → x.m.accf = false →
    let cols := descN x.desc
    let q := x.m.apl.toNat + 1
    let w := 8 / laneV x.m.bpk
    let av := fun (m k : Nat) => reading x.m.asg q (stackOf 4096 q (.bytes x.planes) (64 * m + k))
    let bv := fun (k n : Nat) => reading x.m.bsg w (BitVec.ofNat w ((x.tileB.getD (32 * k + n / laneV x.m.bpk) 0).toNat / 2 ^ (w * (n % laneV x.m.bpk))))
    let el := fun (m n : Nat) => x.acc + 8192 * (n / 32) + 128 * m + 4 * (n % 32)
    let v := fun (m n : Nat) => (if x.kind = .mmaz then 0 else (BitVec.ofNat 32 (rdNat s.mem (el m n) 4)).toInt) + ((List.range 64).map (fun k => av m k * bv k n)).sum
    ∃ t : State, exec (.matrixComplete c) s = .next t
      ∧ (∀ m n, m < 64 → n < cols → rdNat t.mem (el m n) 4 = (narrowTo true true 32 (v m n)).toNat)
      ∧ (∀ m n, m < 64 → cols ≤ n → n < 32 * accRegs cols → rdNat t.mem (el m n) 4 = rdNat s.mem (el m n) 4)
      ∧ (∀ a, a < x.acc ∨ x.acc + 8192 * accRegs cols ≤ a → rdByte t.mem a = rdByte s.mem a)
      ∧ ((berthAt (coreOf t c) x.berth).accsat = true
          ↔ ((berthAt (coreOf s c) x.berth).accsat = true ∨ ∃ m n, m < 64 ∧ n < cols ∧ (narrowTo true true 32 (v m n)).toInt ≠ v m n))

/-- R260, R262, R263: a gang forms when every member has arrived, and each writes the width, or 0 where the cores are not of one row; a join that
waits too long writes 0; a gang product starts at all members with the leader's planes; a gang that waits too long breaks. -/
def Sys2Proof.Claims.GangSteps : Prop :=
  ∀ (s : State) (c : Nat), c < 1024 →
    (∀ g l, joining (coreOf s c) = some g → allArrived s c g = some l → l.any (geared s) = false →
      exec (.gangFormed c) s = .next (l.foldl (fun t d => endJoin t d (if coResident l then g else 0)) s))
    ∧ (∀ g o n w, joining (coreOf s c) = some g → allArrived s c g = none → geared s c = false → (coreOf s c).mat.glim ≤ s.wall - (coreOf s c).mat.arriveWall →
      (coreOf s c).sup = false → (coreOf s c).stepping = 0 → (coreOf s c).ex.wait = some w → w.instr = .gang o → w.why = .gang → o.d = .s n →
      ∃ t : State, exec (.gangJoinTimeout c) s = .next t ∧ sGet (coreOf t c).ex.s n = 0 ∧ (coreOf t c).ex.wait = none ∧ (coreOf t c).mat.arrive = none
        ∧ (coreOf t c).mat.formed = false ∧ (coreOf t c).mat.width = 1 ∧ t.mem = s.mem)
    ∧ (∀ l ms o heads, gangMembers s c = l :: ms → (l :: ms).filterMap (readyHead s) = o :: heads → 2 ≤ (l :: ms).length →
      (l :: ms).length = (coreOf s c).mat.width → (o :: heads).length = (l :: ms).length → (o :: heads).any (fun x => decide (x.gang ≤ 1)) = false →
      (l :: ms).any (geared s) = false → (o :: heads).any (fun p => decide (p.m.apl ≠ o.m.apl ∨ p.m.asg ≠ o.m.asg)) = false →
      (l :: ms).any (fun d => match readyHead s d with | some p => slotsMissing (coreOf s d).mat p | none => true) = false →
      ∃ t : State, exec (.gangProductStart c) s = .next t ∧ t = (l :: ms).foldl (fun u d => startProduct u d (leaderPlanes s l o) (l :: ms)) s ∧ t.mem = s.mem)
    ∧ (∀ x rest w, (coreOf s c).mat.queue = x :: rest → x.headWall = some w → x.started = false → 1 < x.gang → geared s c = false →
      (coreOf s c).mat.formed = true → x.lim ≤ s.wall - w → slotsMissing (coreOf s c).mat x = false → c ∈ gangMembers s c →
      (coreOf s c).mat.failed = none →
      ∃ t : State, exec (.gangTimeout c) s = .next t ∧ (coreOf t c).mat.failed = some (0x0405, 1) ∧ (coreOf t c).mat.formed = false ∧ t.mem = s.mem)

/-- R258 to R283: the steps of the matrix engine and of gangs. -/
def Obligations.MatrixEngineSteps : Prop := Claims.MatrixSteps ∧ Claims.IntegerProducts ∧ Claims.GangSteps

/- The system group. -/

/-- R390: CTXLD of an item and a CTXSV of it: CTXSV writes the item, CTXLD leaves it with the bits that it holds of the value. -/
def Sys2Proof.Claims.ContextItems : Prop :=
  ∀ (s : State) (o : Ops),
    (ready (.ctxsv o) s = true → ctxOk (readSrc o.a s).1.toNat = true →
      ∃ t : State, exec (.ctxsv o) s = .next t ∧ Result s t o.d (ctxGet (curCore s) (readSrc o.a s).1.toNat) ∧ PredsBut s t [] ∧ GoesOnAt s t o ∧ Frame s t)
    ∧ (let x := (readSrc o.a s).1.toNat
       let v := (readSrc o.b (readSrc o.a s).2).1
       ready (.ctxld o) s = true → ctxOk x = true → (ctxClass x = 2 → v.toNat % 4 = 0) →
       ∃ t : State, exec (.ctxld o) s = .next t
         ∧ ctxGet (curCore t) x = (match ctxClass x with | 0 | 2 => v | 1 => (v &&& 0xFE) ||| 1 | _ => v &&& 0xFFFF0001)
         ∧ (∀ y, ctxOk y = true → (ctxClass y ≠ ctxClass x ∨ ctxStream y ≠ ctxStream x ∨ (ctxClass x = 0 ∧ ctxN y ≠ ctxN x)) →
             ctxGet (curCore t) y = ctxGet (curCore s) y)
         ∧ ScalarsBut s t [] ∧ PredsBut s t [] ∧ GoesOnAt s t o ∧ OtherUnits s t)

/-- R391 to R396, R402, R418: GAUGE arms a gauge of the core, or of the device in supervisor mode, and GREAD reads its items; TMARK writes a trace
record only where its graph is traced and the ring has room; IDLE waits, and tells what has ended its wait; FAULTRPT writes the record of its
image, and applies its action: a failed task, a failing graph or a reset; SUPSTEP sets what the next TRET steps. -/
def Sys2Proof.Claims.SystemInstructions : Prop :=
  ∀ (s : State) (o : Ops),
    (let x := (readSrc o.a s).1.toNat
     let v := (readSrc o.b (readSrc o.a s).2).1
     ready (.gauge o) s = true → x < 4 → gaugeCfgOk false v.toNat = true →
     ∃ t : State, exec (.gauge o) s = .next t ∧ (gaugeGet (curCore t) (BitVec.ofNat 2 x)).cfg = v
       ∧ (v.getLsbD 7 = true → (gaugeGet (curCore t) (BitVec.ofNat 2 x)).count = 0 ∧ (gaugeGet (curCore t) (BitVec.ofNat 2 x)).sum = 0
           ∧ (gaugeGet (curCore t) (BitVec.ofNat 2 x)).max = 0 ∧ (gaugeGet (curCore t) (BitVec.ofNat 2 x)).min = BitVec.allOnes 64)
       ∧ (v.getLsbD 7 = false → (gaugeGet (curCore t) (BitVec.ofNat 2 x)).count = (gaugeGet (curCore s) (BitVec.ofNat 2 x)).count)
       ∧ (∀ j, j ≠ BitVec.ofNat 2 x → gaugeGet (curCore t) j = gaugeGet (curCore s) j) ∧ t.dgauges = s.dgauges
       ∧ ScalarsBut s t [] ∧ PredsBut s t [] ∧ GoesOnAt s t o ∧ OtherUnits s t)
    ∧ (∀ j, j < 64 → ready (.gauge o) s = true → (readSrc o.a s).1.toNat = 64 + j →
       let v := (readSrc o.b (readSrc o.a s).2).1
       let g := fun (u : State) => amGet {} u.dgauges j
       (supNow s = true → gaugeCfgOk true v.toNat = true →
         ∃ t : State, exec (.gauge o) s = .next t ∧ (g t).cfg = v
           ∧ (v.getLsbD 7 = true → (g t).count = 0 ∧ (g t).sum = 0 ∧ (g t).max = 0 ∧ (g t).min = BitVec.allOnes 64)
           ∧ (v.getLsbD 7 = false → (g t).count = (g s).count ∧ (g t).sum = (g s).sum ∧ (g t).max = (g s).max ∧ (g t).min = (g s).min)
           ∧ (∀ i, i ≠ j → amGet {} t.dgauges i = amGet {} s.dgauges i) ∧ ScalarsBut s t [] ∧ PredsBut s t [] ∧ GoesOnAt s t o ∧ CoreFrame s t ∧ t.mem = s.mem)
       ∧ (supNow s = false → (curCore s).region = none →
         ∃ t : State, exec (.gauge o) s = .next t ∧ (curCore t).sup = true ∧ (curCore t).tcause = 0x0105 ∧ (curCore t).tpc = pcNow s ∧ t.dgauges = s.dgauges))
    ∧ (let x := (readSrc o.a s).1.toNat
       let n := (readSrc o.b (readSrc o.a s).2).1.toNat
       ready (.gread o) s = true → gaugeOk x = true → n ≤ 20 →
       ∃ t : State, exec (.gread o) s = .next t
         ∧ Result s t o.d (gaugeItem (if bitAt x 6 then amGet {} s.dgauges (x % 64) else gaugeGet (curCore s) (BitVec.ofNat 2 x)) n)
         ∧ PredsBut s t [] ∧ GoesOnAt s t o ∧ Frame s t)
    ∧ (ready (.tmark o) s = true →
       ∃ t : State, exec (.tmark o) s = .next t ∧ ScalarsBut s t [] ∧ PredsBut s t [] ∧ GoesOnAt s t o ∧ CoreFrame s t
         ∧ (traced s (curBerth s).gid = false → t.mem = s.mem ∧ t.rTrace = s.rTrace)
         ∧ (traced s (curBerth s).gid = true → s.rTrace.en = false ∨ 2 ^ s.rTrace.log.toNat ≤ (s.rTrace.head - s.rTrace.tail).toNat →
             t.mem = s.mem ∧ t.rTrace.head = s.rTrace.head)
         ∧ (traced s (curBerth s).gid = true → s.rTrace.en = true → (s.rTrace.head - s.rTrace.tail).toNat < 2 ^ s.rTrace.log.toNat → Safety.CanonicalMemory s →
             let a := gddrBase + s.rTrace.base.toNat / 4096 * 4096 + s.rTrace.head.toNat % 2 ^ s.rTrace.log.toNat * 32
             let lc := (curBerth s).lcore
             let w := (curGraph s).gridw
             t.rTrace.head = s.rTrace.head + 1 ∧ (∀ y, y < a ∨ a + 32 ≤ y → rdByte t.mem y = rdByte s.mem y)
               ∧ rdBytes t.mem a 32 = leBytes 1 2 ++ leBytes 1 (actBerthNo (curCore s)).toNat ++ leBytes 2 (if lc = 0xFFFF then 0xFFFF else lc.toNat % w)
                   ++ leBytes 2 (if lc = 0xFFFF then 0xFFFF else lc.toNat / w) ++ leBytes 2 s.cur.1 ++ leBytes 4 (curBerth s).gid ++ leBytes 4 0
                   ++ leBytes 8 (readSrc o.a s).1.toNat ++ leBytes 8 s.wall))
    ∧ (ready (.idle o) s = true →
       ∃ t : State, exec (.idle o) s = .next t ∧ (∃ w : Wait, waitNow t = some w ∧ w.instr = .idle o ∧ w.why = .idle) ∧ pcNow t = pcNow s ∧ ScalarsBut s t [] ∧ OtherUnits s t)
    ∧ (∀ w, s.cur.2 = false → (curCore s).sup = true → s.cur.1 < 1024 → (curCore s).act.isSome = true → geared s s.cur.1 = false → waitNow s = some w →
       w.instr = .idle o → w.why = .idle → ready (.idle o) s = true → (readSrc o.a s).1 = 0 → 0 < w.aux →
       ∃ t : State, exec (.idleWake s.cur.1) s = .next t ∧ Result s t o.d (BitVec.ofNat 64 w.aux) ∧ GoesOnAt s t o ∧ OtherUnits s t)
    ∧ (let p := (readSrc o.a s).1.toNat
       ready (.faultrpt o) s = true → p % 16 = 0 → inAlloc s p 64 = true → spBad s p 64 = none → ownTouches s s.cur.1 s.cur.2 true [(spHome s p, 64)] = false →
       reportOk (spSeen s p 64) = true →
       let act := leAt (spSeen s p 64) 1 1 % 16
       let code := leAt (spSeen s p 64) 2 2
       let b := actBerth (curCore s)
       (act ≤ 1 → ∃ t : State, exec (.faultrpt o) s = .next t ∧ t.lastFaults.head? = some (recBytes (reportRec s (spSeen s p 64)))
         ∧ Result s t o.d (if (writeRec s (reportRec s (spSeen s p 64))).2 then 1 else 0) ∧ PredsBut s t [] ∧ GoesOnAt s t o ∧ CoreFrame s t)
       ∧ (∀ g tk, act = 2 → (curCore s).act.isSome = true → b.ordered = false → findGraph s b.gid = some g → g.tasks[b.task]? = some tk →
         ∃ (t : State) (x : Graph), exec (.faultrpt o) s = .next t ∧ (curCore t).act = none ∧ findGraph t b.gid = some x
           ∧ (x.tasks[b.task]?).map (·.st) = some .failed ∧ x.failCode = (if g.failCode = 0 then code else g.failCode))
       ∧ (act = 3 → (curCore s).act.isSome = true → (findGraph s b.gid).isSome = true →
         ∃ t : State, exec (.faultrpt o) s = .next t ∧ (curCore t).act = none ∧ (graphOf t b.gid).failing = true)
       ∧ (act = 4 → s.fw.phase = 5 → s.fw.waiting = none → imageRoom s = false ∨ s.fw.pmvalid = true →
         ∃ t : State, exec (.faultrpt o) s = .next t ∧ t.fw.first = 6 ∧ t.fw.rcode = BitVec.ofNat 16 code ∧ t.cores = [] ∧ t.graphs = []))
    ∧ (ready (.supstep o) s = true → (readSrc o.a s).1.toNat ≤ 3 →
       ∃ t : State, exec (.supstep o) s = .next t ∧ (curCore t).step = (readSrc o.a s).1.setWidth 2 ∧ ScalarsBut s t [] ∧ PredsBut s t []
         ∧ GoesOnAt s t o ∧ OtherUnits s t)

/-- R390 to R396: the instructions of the system group. -/
def Obligations.ContextAndSystem : Prop := Claims.ContextItems ∧ Claims.SystemInstructions

/- Launch and placement. -/

/-- R41 to R45: a doorbell enqueues the staged packet, a rack packet is enqueued or counted as discarded, the dispatcher takes the oldest
packet of the next context and rejects a malformed one, and a waiting graph becomes active once its prerequisites have ended. That a
rejected packet counts as a remembered completion of code 0x0604 is the model's choice (log entry 34). -/
def Sys2Proof.Claims.LaunchSteps : Prop :=
  ∀ (s : State),
    (∀ ctx, ctx < 16 → s.fw.phase = 5 → (ctxOf s ctx).enable = true → (ctxOf s ctx).queue.length < 256 →
      ∃ (t : State) (x : LaunchPkt), exec (.doorbell ctx) s = .next t ∧ (ctxOf t ctx).queue = (ctxOf s ctx).queue ++ [x] ∧ x.bytes = (ctxOf s ctx).stage ∧ x.host = true
        ∧ (∀ d, d ≠ ctx → ctxOf t d = ctxOf s d) ∧ t.mem = s.mem ∧ t.graphs = s.graphs ∧ t.cores = s.cores)
    ∧ (∀ e p, s.fw.allow.any (fun x => x.2 == e) = true → (ctxOf s s.fw.rackctx).enable = true → (ctxOf s s.fw.rackctx).queue.length < 256 →
      ∃ (t : State) (x : LaunchPkt), exec (.rackLaunchPacket e p) s = .next t ∧ (ctxOf t s.fw.rackctx).queue = (ctxOf s s.fw.rackctx).queue ++ [x] ∧ x.bytes = sliceZ p 0 64
        ∧ x.rack = some e ∧ t.mem = s.mem)
    ∧ (∀ e p, s.fw.allow.any (fun x => x.2 == e) = false →
      exec (.rackLaunchPacket e p) s = .next { s with fw := { s.fw with rackDrops := s.fw.rackDrops + 1 } })
    ∧ (∀ c k l, ((List.range 16).map (fun i => (s.lastCtx + 1 + i) % 16)).find? (fun c => !(ctxOf s c).queue.isEmpty) = some c →
      (ctxOf s c).queue = k :: l → packetBad s c k = true → pkCaddr k.bytes = 0 →
      ∃ t : State, exec .dispatcherTakePacket s = .next t ∧ (ctxOf t c).queue = l ∧ t.lastCtx = c ∧ t.graphs.map (·.gid) = s.graphs.map (·.gid)
        ∧ (ctxOf t c).drop = true ∧ t.fw.done.head? = some (pkGid k.bytes, 0x0604))
    ∧ (∀ c k l gd g, ((List.range 16).map (fun i => (s.lastCtx + 1 + i) % 16)).find? (fun c => !(ctxOf s c).queue.isEmpty) = some c →
      (ctxOf s c).queue = k :: l →
      let u := { setCtx s c { ctxOf s c with queue := l } with lastCtx := c }
      packetBad u c k = false → gidBad u k = false → dispBytes u (pkPasid k.bytes) (leAt k.bytes 0 8) 128 = some gd →
      readGraph u (pkPasid k.bytes) gd = some g → graphReason g (bitAt (pkFlags k.bytes) 0) = none → placementBad u g = false → pkPre k.bytes = [] →
      ∃ (t : State) (x : Graph), exec .dispatcherTakePacket s = .next t ∧ t.graphs.map (·.gid) = s.graphs.map (·.gid) ++ [pkGid k.bytes] ∧ findGraph t (pkGid k.bytes) = some x
        ∧ x.active = true ∧ x.activeWall = s.wall ∧ x.pasid = pkPasid k.bytes ∧ x.tasks.length = g.tasks.length
        ∧ (∀ y ∈ x.tasks, y.st = .waiting ∨ (y.st = .eligible ∧ y.counter = 0)) ∧ t.mem = s.mem ∧ t.cores = s.cores)
    ∧ (∀ gid g, findGraph s gid = some g → g.active = false → g.prereq.any (preFailed s) = false → (∀ x ∈ g.prereq, prePending s x = false) →
      ∃ (t : State) (x : Graph), exec (.prereqRecheck gid) s = .next t ∧ findGraph t gid = some x ∧ x.active = true ∧ x.activeWall = s.wall ∧ x.prereq = [] ∧ t.mem = s.mem)
    ∧ (∀ gid g, findGraph s gid = some g → g.active = false → g.prereq.any (preFailed s) = false → (∃ x ∈ g.prereq, prePending s x = true) →
      ∃ (t : State) (x : Graph), exec (.prereqRecheck gid) s = .next t ∧ findGraph t gid = some x ∧ x.active = false
        ∧ x.prereq = g.prereq.filter (prePending s) ∧ t.mem = s.mem)

/-- R21, R49 to R53, R400, R401, R409: a bind gives a berth to the first task in the order of R46; LOADING ends with the tables loaded and
START in channel 0, in that very step (the model's choice: log entry 45); a berth that is to stop leaves LIVE and the remap table; one that a failing graph stopped is freed. -/
def Obligations.BerthLifecycle : Prop :=
  ∀ (s : State),
    (∀ (i : Instr) gid task key q spot g t, (i = .bindTask gid task ∧ t.st = .eligible) ∨ (i = .restore gid task ∧ t.st = .saved) →
      firstBind s = some (key, q, spot) → key.gid = gid → key.task = task → taskAtKey s key = some (g, t) →
      ∃ u : State, exec i s = .next u ∧ (berthAt (coreOf u spot.core) spot.berth).state = .loading ∧ (berthAt (coreOf u spot.core) spot.berth).gid = g.gid
        ∧ (berthAt (coreOf u spot.core) spot.berth).task = task ∧ (berthAt (coreOf u spot.core) spot.berth).regB = spot.regB
        ∧ (berthAt (coreOf u spot.core) spot.berth).spB = spot.spB ∧ (berthAt (coreOf u spot.core) spot.berth).restore = t.slot
        ∧ (∀ c, c ≠ spot.core → coreOf u c = coreOf s c) ∧ u.mem = s.mem)
    ∧ (∀ c b g t d, c < 1024 → (berthAt (coreOf s c) b).state = .loading → (coreOf s c).mat.queue = [] →
      findGraph s (berthAt (coreOf s c) b).gid = some g → g.tasks[(berthAt (coreOf s c) b).task]? = some t →
      readTask s g.pasid (berthAt (coreOf s c) b).tdesc.toNat = some d → (berthAt (coreOf s c) b).restore = none → leAt d.td 0x1E 2 = 0 →
      storesLeft s c b = false → chanGet (berthAt (coreOf s c) b) 0 = [] → (berthAt (coreOf s c) b).winStore = [] →
      ∃ u m, exec (.loadingDone c b) s = .next u ∧ (berthAt (coreOf u c) b).state = .live ∧ (berthAt (coreOf u c) b).handlers = tdHandlers d.td
        ∧ (berthAt (coreOf u c) b).regions = d.regs ∧ chanGet (berthAt (coreOf u c) b) 0 = [m] ∧ m.sender = 0xFFFF ∧ m.len = 0
        ∧ amFind (graphOf u g.gid).remap (berthAt (coreOf s c) b).lcore.toNat = some (b.toNat, c))
    ∧ (∀ c b, c < 1024 → (berthAt (coreOf s c) b).state = .live → (berthAt (coreOf s c) b).stopFor ≠ none → (berthAt (coreOf s c) b).stopFor ≠ some .debug →
      ∃ t : State, exec (.stopBerth c b) s = .next t ∧ (berthAt (coreOf t c) b).state = .stopping
        ∧ (∀ e ∈ (graphOf t (berthAt (coreOf s c) b).gid).remap, ¬(e.2.2 = c ∧ e.2.1 = b.toNat)) ∧ t.mem = s.mem)
    ∧ (∀ c b, c < 1024 → (berthAt (coreOf s c) b).state = .stopping → (berthAt (coreOf s c) b).stopFor = some .failGraph → berthRuns s c b = false →
      (berthAt (coreOf s c) b).pend = [] →
      ∃ t : State, exec (.berthFree c b) s = .next t ∧ (berthAt (coreOf t c) b).state = .free ∧ (berthAt (coreOf t c) b).stopFor = none
        ∧ (berthAt (coreOf t c) b).park = [] ∧ (berthAt (coreOf t c) b).chans = Vector.replicate 8 [])

/-- R46 to R48, R55, R60, R397 to R400: priorities rise by one step a millisecond; an eligible task that has no room marks a berth
of lower priority to stop; a hot cluster's berth is marked to move; a stopped berth with a free slot is saved and freed; held messages go
on. That a LIVE berth is only marked, and stops later, is the model's choice (log entry 38), and so are the target of a move (log entry 39) and
that a message held for a graph that has ended is discarded (log entry 42). -/
def Obligations.PrioritiesAndMoves : Prop :=
  ∀ (s : State),
    (∀ gid task g t, findGraph s gid = some g → g.tasks[task]? = some t → (t.st = .eligible ∨ t.st = .saved) → t.prio ≠ 0 →
      (t.aged + 1) * 1000000 ≤ s.wall - t.since →
      ∃ (u : State) (x : Task), exec (.priorityAging gid task) s = .next u ∧ (graphOf u gid).tasks[task]? = some x ∧ x.prio = t.prio - 1 ∧ x.aged = t.aged + 1 ∧ x.st = t.st
        ∧ { u with graphs := s.graphs } = s)
    ∧ (∀ c b m, c < 1024 → oldestMsg (berthAt (coreOf s c) b) = some m → (berthAt (coreOf s c) b).state ≠ .free → (berthAt (coreOf s c) b).prio ≠ 0 →
      ((berthAt (coreOf s c) b).raised + 1) * 1000000 ≤ s.wall - max ((berthAt (coreOf s c) b).actWall.getD (berthAt (coreOf s c) b).bindWall) m →
      ∃ u : State, exec (.berthPriorityRaise c b) s = .next u ∧ (berthAt (coreOf u c) b).prio = (berthAt (coreOf s c) b).prio - 1
        ∧ (berthAt (coreOf u c) b).raised = (berthAt (coreOf s c) b).raised + 1 ∧ { u with cores := s.cores } = s)
    ∧ (∀ gid task g t, findGraph s gid = some g → g.tasks[task]? = some t → taskWaits g task t = true → placeTask s g t = none →
      victims s t.prio.toNat ≠ [] →
      ∃ u v, exec (.preempt gid task) s = .next u ∧ v ∈ victims s t.prio.toNat ∧ (berthAt (coreOf u v.1) v.2).stopFor = some .preempt
        ∧ { u with cores := s.cores } = s)
    ∧ (∀ c b d, c < 1024 → migrates s c b = true → migrateTo s c (berthAt (coreOf s c) b) = some d → amFind s.quadMove (quadNo c) = none →
      ((s.cores.flatMap (fun e => allBerthNos.map (fun x => (e.1, x)))).filter (fun x => quadNo x.1 == quadNo c && migrates s x.1 x.2)) = [(c, b)] →
      ∃ u : State, exec (.migrate c b) s = .next u ∧ (berthAt (coreOf u c) b).stopFor = some (.migrate d) ∧ amFind u.quadMove (quadNo c) = some s.wall
        ∧ u.mem = s.mem)
    ∧ (∀ c b u, c < 1024 → (berthAt (coreOf s c) b).state = .stopping → berthRuns s c b = false → engineBusy s c b = false → storesLeft s c b = false →
      (coreOf s c).mat.queue = [] → (berthAt (coreOf s c) b).stopFor = some .preempt → saveBerth s c b = some u →
      exec (.contextSave c b) s = .next u ∧ (berthAt (coreOf u c) b).state = .free)
    ∧ (∀ c b, c < 1024 → (berthAt (coreOf s c) b).state = .stopping → berthRuns s c b = false → engineBusy s c b = false → storesLeft s c b = false →
      (coreOf s c).mat.queue = [] → (berthAt (coreOf s c) b).stopFor = some .preempt → saveBerth s c b = none → (berthAt (coreOf s c) b).winStore = [] →
      ∃ t : State, exec (.contextSave c b) s = .next t ∧ (berthAt (coreOf t c) b).state = .live ∧ (berthAt (coreOf t c) b).stopFor = none ∧ t.mem = s.mem)
    ∧ (∀ k m, s.heldMsgs[k]? = some m → (s.heldMsgs.take k).any (fun x => sameFlow x m) = false →
      liveAt s m.gid (tagDest m.route) = none → movingAt s m.gid (tagDest m.route) = false → findGraph s m.gid = none →
      ∃ t : State, exec (.messageForward k) s = .next t ∧ t.heldMsgs = s.heldMsgs.eraseIdx k ∧ t.cores = s.cores ∧ t.mem = s.mem)
    ∧ (∀ k m c b, s.heldMsgs[k]? = some m → (s.heldMsgs.take k).any (fun x => sameFlow x m) = false → liveAt s m.gid (tagDest m.route) = some (c, b) →
      (roomFor { s with heldMsgs := s.heldMsgs.eraseIdx k } c b m = true →
        exec (.messageForward k) s = .next (deliverBerth { s with heldMsgs := s.heldMsgs.eraseIdx k } c b m))
      ∧ (roomFor { s with heldMsgs := s.heldMsgs.eraseIdx k } c b m = false → exec (.messageForward k) s = .next s))

/-- R45, R63 to R65, R411: a graph with no berth and no task left completes, with its code; once everything it started has ended its completion
is recorded, and it is admitted no longer. Where the record goes to a page of a peer, its GID stays pending until the record stands there
(the model's choice: log entry 34). -/
def Sys2Proof.Claims.GraphsEnd : Prop :=
  ∀ (s : State) (gid : Nat) (g : Graph), findGraph s gid = some g →
    (isComplete s g = true → leftOver s gid = [] →
      ∃ (t : State) (x : Graph), exec (.graphComplete gid) s = .next t ∧ findGraph t gid = some x ∧ x.complete = true ∧ x.completeWall = s.wall ∧ x.failCode = finalCode g false
        ∧ (g.failCode = 0 → (∀ p ∈ tilesOf g, p.2.st = .finished) → x.failCode = 0) ∧ t.mem = s.mem ∧ t.cores = s.cores)
    ∧ (g.complete = true → graphQuiet s gid = true →
      ∃ t : State, exec (.completionRecord gid) s = .next t ∧ findGraph t gid = none
        ∧ ((∀ l, dispPieces s g.pasid (g.caddr.toNat + 0x20) 32 { wr := true } = some l → ∀ p ∈ l, p.1 ≠ 3) → t.fw.done.head? = some (gid, g.failCode))
        ∧ (∀ l, dispPieces s g.pasid (g.caddr.toNat + 0x20) 32 { wr := true } = some l → (granules (herePieces l)).all (fun x => !isBad s x) = true →
            (∃ p ∈ l, p.1 = 3) → onItsWay t gid = true ∧ t.fw.done = s.fw.done)
        ∧ t.cores = s.cores.map (fun p => (p.1, dropMaps gid p.2)))

/-- R40 to R45, R63 to R65: a graph from its packet to its completion record. -/
def Obligations.GraphLifecycle : Prop := Claims.LaunchSteps ∧ Claims.GraphsEnd

/- Activations and messages. -/

/-- R66 to R69, R109 to R115, R118, R122: lines reach the streams that asked for them; the berth that R110 chooses starts its message with the
registers of R112; an activation whose streams have stopped ends; a handler entry is rewritten in two steps; streams stuck on queues trap. -/
def Obligations.ActivationSteps : Prop :=
  ∀ (s : State),
    (∀ n r bs, n < 128 → oldestReq (clusterOf s n).reqs = some r → (pairOf s (n / 2)).stopped = false → fetchLine s n r.pasid r.line = .line bs →
      ∃ t : State, exec (.fetchLineServed n) s = .next t ∧ (∀ q ∈ (clusterOf t n).reqs, ¬(q.pasid = r.pasid ∧ q.line = r.line))
        ∧ (bufLine (streamOf (coreOf t (8 * n + r.fs / 2)) (decide (r.fs % 2 = 1))) r.pasid r.line).isSome = true ∧ t.mem = s.mem)
    ∧ (∀ c x, c < 1024 → (coreOf s c).act = none → geared s c = false → chooseNext (resetUsed s c) c = some x →
      (berthAt (coreOf s c) x.b).winStore = [] →
      let k := berthAt (coreOf s c) x.b
      let h := handlerOf k x.msg
      ∃ (t : State) (a : Act), exec (.activationStart c) s = .next t ∧ (coreOf t c).act = some a ∧ a.berth = x.b ∧ a.chan = x.chan ∧ a.msg = x.msg ∧ a.cursor = 0
        ∧ (coreOf t c).ex.pc = (graphOf s k.gid).code + BitVec.ofNat 64 (4 * (h.toNat % 2 ^ 26))
        ∧ (coreOf t c).pi.stopped = !h.getLsbD 62 ∧ (coreOf t c).ex.stopped = false ∧ (coreOf t c).sup = false
        ∧ sGet (coreOf t c).ex.s 0 = BitVec.ofNat 64 (tagUtag x.msg.route) ∧ sGet (coreOf t c).ex.s 1 = BitVec.ofNat 64 x.msg.len
        ∧ sGet (coreOf t c).ex.s 2 = x.msg.sender.setWidth 64 ∧ sGet (coreOf t c).ex.s 3 = BitVec.ofNat 64 k.acts
        ∧ sGet (coreOf t c).ex.s 4 = k.lcore.setWidth 64 ∧ (∀ n : BitVec 6, 5 ≤ n.toNat → sGet (coreOf t c).ex.s n = 0)
        ∧ (coreOf t c).ex.k = (Vector.replicate 8 false) ∧ (coreOf t c).q = Vector.replicate 16 [] ∧ (coreOf t c).tabexp = 50000)
    ∧ (∀ c a, c < 1024 → (coreOf s c).act = some a → (coreOf s c).ex.stopped = true → (coreOf s c).pi.stopped = true → (coreOf s c).sup = false →
      geared s c = false → storesLeft s c a.berth = false → a.finish = false → (berthAt (coreOf s c) a.berth).pend = [] →
      ∃ t : State, exec (.activationEnd c) s = .next t ∧ (coreOf t c).act = none ∧ (berthAt (coreOf t c) a.berth).acts = (berthAt (coreOf s c) a.berth).acts + 1)
    ∧ (∀ c b idx e, c < 1024 → (berthAt (coreOf s c) b).state ≠ .free → idx.toNat < (berthAt (coreOf s c) b).handlers.length →
      let old := (berthAt (coreOf s c) b).handlers.getD idx.toNat 0
      let new := e &&& ~~~(BitVec.ofNat 64 (3 * 2 ^ 52))
      old ≠ new →
      ∃ t : State, exec (.handlerRewrite c b idx e) s = .next t ∧ { t with cores := s.cores } = s
        ∧ (berthAt (coreOf t c) b).handlers.getD idx.toNat 0 = (if old.getLsbD 63 then old &&& ~~~(BitVec.ofNat 64 (2 ^ 63)) else new)
        ∧ (∀ j, j ≠ idx.toNat → (berthAt (coreOf t c) b).handlers.getD j 0 = (berthAt (coreOf s c) b).handlers.getD j 0))
    ∧ (∀ c a, c < 1024 → (coreOf s c).act = some a → (coreOf s c).sup = false → (coreOf s c).region = none → geared s c = false →
      stuck (coreOf s c) false = true → stuck (coreOf s c) true = true → (waitsOnQueue (coreOf s c).ex).isSome = true → (coreOf s c).ex.stopped = false →
      (coreOf s c).vq = [] → (coreOf s c).mat.queue = [] → s.copies.any (fun k => decide (k.core = c ∧ k.berth = a.berth)) = false →
      ∃ t : State, exec (.queueDeadlock c) s = .next t ∧ (coreOf t c).sup = true ∧ (coreOf t c).tcause = 0x0110 ∧ (coreOf t c).tpc = (coreOf s c).ex.pc
        ∧ (coreOf t c).tinfo = BitVec.ofNat 64 (queueByte (coreOf s c).ex + 2 ^ 8 * queueByte (coreOf s c).pi))

/-- R116, R117, R204, R304: a message in its turn arrives in its channel; a parked message enters its channel
when there is room, or is discarded after UBTOW, which fails the graph; a window mark is counted for its sender; an asynchronous event pends at its berth, and is
taken as a trap; that TRAPADDR then holds the event's address is the model's choice (log entry 52). -/
def Obligations.MessageSteps : Prop :=
  ∀ (s : State),
    (∀ k m c b, s.transit[k]? = some m → mayArrive s k = true → m.arr ≠ 0 → s.devPark.any (fun p => sameFlow p.msg m) = false →
      s.heldMsgs.any (fun x => sameFlow x m) = false → liveAt s m.gid (tagDest m.route) = some (c, b) → (coreOf s c).supWait = none →
      (berthAt (coreOf s c) b).park.any (fun p => sameFlow p.msg m) = false → inWindow s (berthAt (coreOf s c) b) (tagChan m.route) m = false →
      findsHandler (berthAt (coreOf s c) b) m = true → m.slot = true →
      ∃ t : State, exec (.messageArrival k) s = .next t ∧ t.transit = s.transit.eraseIdx k
        ∧ chanGet (berthAt (coreOf t c) b) (tagChan m.route) = chanGet (berthAt (coreOf s c) b) (tagChan m.route) ++ [{ m with slot := false }]
        ∧ (∀ ch, ch ≠ tagChan m.route → chanGet (berthAt (coreOf t c) b) ch = chanGet (berthAt (coreOf s c) b) ch)
        ∧ (∀ d, d ≠ c → coreOf t d = coreOf s d) ∧ t.mem = s.mem)
    ∧ (∀ c b k p, c < 1024 → (berthAt (coreOf s c) b).park[k]? = some p → ((berthAt (coreOf s c) b).park.take k).any (fun x => sameFlow x.msg p.msg) = false →
      findsHandler (berthAt (coreOf s c) b) p.msg = true → chanFree s (berthAt (coreOf s c) b) (tagChan p.msg.route) = true →
      ∃ t : State, exec (.parkDelivery (.berth c b) k) s = .next t ∧ (berthAt (coreOf t c) b).park = (berthAt (coreOf s c) b).park.eraseIdx k
        ∧ chanGet (berthAt (coreOf t c) b) (tagChan p.msg.route) = chanGet (berthAt (coreOf s c) b) (tagChan p.msg.route) ++ [p.msg]
        ∧ { t with cores := s.cores } = s)
    ∧ (∀ k p, s.devPark[k]? = some p → s.fw.ubtow ≤ s.wall - p.since → (findGraph s p.msg.gid).isSome = true →
      ∃ t : State, exec (.parkDiscard .device k) s = .next t ∧ t.devPark = s.devPark.eraseIdx k ∧ (graphOf t p.msg.gid).failing = true)
    ∧ (∀ k m i, s.marksT[k]? = some m → s.transit.any (fun x => markFlow m x) = false → s.devPark.any (fun p => markFlow m p.msg) = false →
      s.heldMsgs.any (fun x => markFlow m x) = false →
      (∀ x ∈ s.marksT, x.gid = m.gid → x.sender = m.sender → x.dest = m.dest → x.chan = m.chan → x.seq = m.seq) →
      markTask s m = some i → liveAt s m.gid m.dest = none →
      ∃ t : State, exec (.windowMarkArrival k) s = .next t ∧ t.marksT = s.marksT.eraseIdx k
        ∧ amGet 0 (winOf (graphOf t m.gid) i m.chan).marks m.sender.toNat = amGet 0 (winOf (graphOf s m.gid) i m.chan).marks m.sender.toNat + 1
        ∧ t.cores = s.cores ∧ t.mem = s.mem)
    ∧ (∀ k m c b, s.asyncs[k]? = some m → eventBehind (s.asyncs.take k) m = false →
      (berthsOf s m.gid).find? (fun p => let x := berthAt (coreOf s p.1) p.2; decide (x.task = m.task ∧ x.ordered = m.ord)) = some (c, b) →
      berthRuns s c b = true → (berthAt (coreOf s c) b).pend.length < 8 →
      ∃ t : State, exec (.asyncEventArrival k) s = .next t ∧ t.asyncs = s.asyncs.eraseIdx k
        ∧ (berthAt (coreOf t c) b).pend = insertEvent (berthAt (coreOf s c) b).pend { m.ev with cyc := cycOf s c }
        ∧ ((∀ x ∈ (berthAt (coreOf s c) b).pend, x.cyc < cycOf s c) → ∃ e, (berthAt (coreOf t c) b).pend = (berthAt (coreOf s c) b).pend ++ [e] ∧ e.code = m.ev.code)
        ∧ t.mem = s.mem)
    ∧ (∀ c a e rest, c < 1024 → (coreOf s c).act = some a → (berthAt (coreOf s c) a.berth).pend = e :: rest → (coreOf s c).sup = false → geared s c = false →
      (coreOf s c).region = none → (coreOf s c).ex.stopped = false → (coreOf s c).ex.wait = none → (coreOf s c).pi.wait = none → trapsNow s c false = none →
      ∃ t : State, exec (.asyncEventTaken c) s = .next t ∧ (coreOf t c).sup = true ∧ (coreOf t c).tcause = BitVec.ofNat 64 (e.code + 2 ^ 16)
        ∧ (coreOf t c).tpc = (coreOf s c).ex.pc ∧ (coreOf t c).taddr = e.addr ∧ (coreOf t c).tstream = false
        ∧ (berthAt (coreOf t c) a.berth).pend = rest ∧ t.mem = s.mem)

/- Waits, time and measurement. -/

/-- A stream that is held can go on: no event is taken first, no abort of its region waits for room, its view is the one it issued with, and
where it has not issued yet the execute stream has not gone before it in this cyc; and the pilot does not come second to an instruction at
which the execute stream stands (R81, R83, R131, R165, R320, R384). -/
def Sys2Proof.Claims.MayGoOn (s : State) (c : Nat) (pilot : Bool) (w : Wait) : Prop :=
  (eventDue s c = none ∨ pilot ≠ eventStream s c)
    ∧ (pilot = false → (coreOf s c).sup = false → ∀ r, (coreOf s c).region = some r → r.aborting = none)
    ∧ (hasIssued w = true → updCore s c (fun k => { k with viewV := w.viewV }) = s)
    ∧ (hasIssued w = false → pilot = true → (coreOf s c).issued.getLsbD 0 = false)
    ∧ (pilot = true → leavesTurn s c w.instr = false)

/-- R129, R137, R144, R186: the streams that are held go on: a count that has passed, a wait whose condition is met and a load that has its
data complete as if they issued now; a load whose limit is due ends with its predicate false; REALIGN releases the stream whose count
has passed, and together the streams that are all held at it. -/
def Obligations.HeldStreams : Prop :=
  ∀ (s : State) (c : Nat) (pilot : Bool) (w : Wait), c < 1024 → waitAt s c pilot = some w →
    let u := asStream s c pilot
    w.instr.wf = true → ready w.instr u = true → Claims.MayGoOn s c pilot w →
    (∀ o, ((w.instr = .waitc o ∧ (readSrc o.a u).1.toNat ≤ cycOf s c - w.c0) ∨ (w.instr = .waitw o ∧ (readSrc o.a u).1.toNat ≤ edgeOf s c - w.w0)) →
      w.why = .count →
      ∃ t : State, exec (.waitCountExpiry c pilot) s = .next { t with cur := s.cur } ∧ ScalarsBut u t [] ∧ PredsBut u t [] ∧ GoesOnAt u t o ∧ Frame u t)
    ∧ (∀ o zx wd f, twoSource w.instr = some (o, zx, wd, f) → byCondition w = true → hasIssued w = false →
      ∃ t : State, exec w.instr u = .next t ∧ exec (.waitConditionMet c pilot) s = .next (setIssued { t with cur := s.cur } c pilot)
        ∧ GoesOnAt u t o ∧ Frame u t)
    ∧ (∀ o m spc g ps, scalarLoad w.instr = some (o, m, spc) → byCondition w = true → Safety.CanonicalMemory s →
      Reaches u o m spc (sizeBytes m.size) (sizeBytes m.size) true false g ps → SyncMet u m ps → (granules ps).all (fun x => !isBad s x) = true →
      let bs := foundBytes u m ps
      ∃ t : State, exec (.loadDataWritten c pilot) s = .next { t with cur := s.cur }
        ∧ Result u t o.d (if m.sx then sextTo64 (8 * bs.length) (leNat bs) else leW64 bs) ∧ t.mem = s.mem ∧ GoesOnAt u t o)
    ∧ (∀ o m spc g ps, scalarLoad w.instr = some (o, m, spc) → w.why = .timed → m.sync ≠ .plain → m.trio.tres = true →
      Reaches u o m spc (sizeBytes m.size) (sizeBytes m.size) true false g ps → ¬SyncMet u m ps → limitDue u m.trio = true →
      ∃ t : State, exec (.timedWaitTimeout c pilot) s = .next { t with cur := s.cur } ∧ PredResult u t (.k m.trio.pred) false ∧ ScalarsBut u t []
        ∧ GoesOnAt u t o ∧ Frame u t)
    ∧ (∀ o, w.instr = .realign o → w.why = .count → realignDue u o = true →
      ∃ t : State, exec (.realignRelease c pilot) s = .next { t with cur := s.cur } ∧ ScalarsBut u t [] ∧ PredsBut u t [] ∧ GoesOnAt u t o ∧ Frame u t)
    ∧ (∀ o d x p, w.instr = .realign o → w.why = .count → realignDue u o = false → realignPeers s c pilot = [d] → waitAt s d pilot = some x →
      x.instr = .realign p → heldAtRealign s d pilot (pcNow u) = true → ready (.realign p) (asStream s d pilot) = true →
      ∃ t : State, exec (.realignRelease c pilot) s = .next t ∧ waitAt t c pilot = none ∧ waitAt t d pilot = none
        ∧ (∀ e, e ≠ c → e ≠ d → coreOf t e = coreOf s e) ∧ { t with cores := s.cores } = s)

/-- R125, R131, R416, R417, R423: a deadline slot fires when its base reaches its target; a window closes into RATIO; a gauge counts a sample;
an instruction is marked and its record written; telemetry takes one refresh. That GAUGE_SAMPLE of a core's gauge changes nothing,
since such a gauge takes its samples in the steps that make them, is the model's choice (log entry 17). -/
def Obligations.Measurements : Prop :=
  ∀ (s : State),
    (∀ c slot, c < 1024 → geared s c = false → (coreOf s c).dlNew.getLsbD (BitVec.toNat slot) = false →
      let edge := (clusterOf s (clusterNo c)).edgeWall
      let v := dlGet (coreOf s c) slot
      ∃ t : State, exec (.deadlineFire c slot) s = .next t ∧ { t with cores := s.cores } = s ∧ (∀ d, d ≠ c → coreOf t d = coreOf s d)
        ∧ (∀ j, j ≠ slot → dlGet (coreOf t c) j = dlGet (coreOf s c) j)
        ∧ (dlArmed v = true → dlFired v = false → dlReached (cycOf s c) edge v = true →
            dlFired (dlGet (coreOf t c) slot) = true ∧ dlArmed (dlGet (coreOf t c) slot) = true ∧ dlSeen (dlGet (coreOf t c) slot) = dlSeen v
              ∧ dlTarget (dlGet (coreOf t c) slot) = dlTarget v ∧ dlAtGet (coreOf t c) slot = cycOf s c)
        ∧ (dlReached (cycOf s c) edge v = false → coreOf t c = coreOf s c))
    ∧ (∀ n, n < 128 → windowOver s.wall (clusterOf s n) = true →
      ∃ t : State, exec (.ratioWindowComplete n) s = .next t ∧ fieldAt (clusterOf t n).ratio.toNat 0 12 = min (clusterOf s n).winCyc 4095
        ∧ (clusterOf t n).ratio.getLsbD 31 = (clusterOf s n).winGear ∧ fieldAt (clusterOf t n).ratio.toNat 32 32 = (clusterOf s n).win % 2 ^ 32
        ∧ (clusterOf t n).win = s.wall / 1024 ∧ (clusterOf t n).winCyc = 0 ∧ (clusterOf t n).winGear = (pairOf s (n / 2)).stopped ∧ (clusterOf t n).cyc = (clusterOf s n).cyc
        ∧ (∀ m, m ≠ n → clusterOf t m = clusterOf s m))
    ∧ (∀ c idx v, c < 1024 → idx < 4 → exec (.gaugeSample (some c) idx v) s = .next s)
    ∧ (∀ idx v, idx < 64 → sampleDue s (amGet {} s.dgauges idx) v = true →
      let g := amGet {} s.dgauges idx
      ∃ t : State, exec (.gaugeSample none idx v) s = .next t ∧ (amGet {} t.dgauges idx).count = g.count + 1
        ∧ (amGet {} t.dgauges idx).sum = min (g.sum + v) (2 ^ 64 - 1) ∧ (amGet {} t.dgauges idx).cfg = g.cfg ∧ (amGet {} t.dgauges idx).last = some s.wall
        ∧ (∀ j, j ≠ idx → amGet {} t.dgauges j = amGet {} s.dgauges j) ∧ t.cores = s.cores)
    ∧ (∀ c pilot, c < 1024 → s.rSample.param ≠ 0 → (coreOf s c).act.isSome = true → (coreOf s c).sup = false →
      let x := streamOf (coreOf s c) pilot
      x.stopped = false → x.wait = none →
      (x.sampleArmed = true → x.sampleLeft = 0 → (x.marked = true → x.markDone = true) →
        ∃ t : State, exec (.sampleMark c pilot) s = .next t ∧ (streamOf (coreOf t c) pilot).marked = true ∧ (streamOf (coreOf t c) pilot).markPc = x.pc
          ∧ (streamOf (coreOf t c) pilot).markDone = false
          ∧ 1 ≤ (streamOf (coreOf t c) pilot).sampleLeft ∧ (streamOf (coreOf t c) pilot).sampleLeft ≤ 2 * s.rSample.param.toNat
          ∧ streamOf (coreOf t c) (!pilot) = streamOf (coreOf s c) (!pilot) ∧ (x.marked = false → t.mem = s.mem))
      ∧ (x.sampleArmed = false →
        ∃ t : State, exec (.sampleMark c pilot) s = .next t ∧ (streamOf (coreOf t c) pilot).marked = x.marked ∧ (streamOf (coreOf t c) pilot).sampleArmed = true
          ∧ 1 ≤ (streamOf (coreOf t c) pilot).sampleLeft ∧ (streamOf (coreOf t c) pilot).sampleLeft ≤ 2 * s.rSample.param.toNat ∧ t.mem = s.mem))
    ∧ (∀ c pilot times flags, c < 1024 → Safety.CanonicalMemory s →
      let x := streamOf (coreOf s c) pilot
      x.marked = true → x.markDone = true → fieldAt (BitVec.toNat flags) 1 3 = x.markFlags.toNat / 2 →
      s.rSample.en = true → (s.rSample.head - s.rSample.tail).toNat < 2 ^ s.rSample.log.toNat →
      let a := gddrBase + s.rSample.base.toNat / 4096 * 4096 + s.rSample.head.toNat % 2 ^ s.rSample.log.toNat * 48
      ∃ t : State, exec (.sampleRecord c pilot times flags) s = .next t ∧ t.rSample.head = s.rSample.head + 1 ∧ (streamOf (coreOf t c) pilot).marked = false
        ∧ rdBytes t.mem a 15 = leBytes 8 x.markPc.toNat ++ leBytes 4 x.markGid ++ leBytes 2 x.markLc.toNat
            ++ [BitVec.ofNat 8 (bitNat pilot + x.markFlags.toNat / 2 * 2)]
        ∧ rdBytes t.mem (a + 40) 8 = leBytes 8 x.markWall ∧ (∀ b, b < a ∨ a + 48 ≤ b → rdByte t.mem b = rdByte s.mem b))
    ∧ (∀ temps, ∃ t : State, exec (.telemetryRefresh temps) s = .next t ∧ t.power.tRail = BitVec.ofNat 16 s.power.railMV
        ∧ (∀ n, n < 128 → amGet 0 t.power.tTemp n = BitVec.ofInt 16 (tempOf t n))
        ∧ (∀ i, i < 64 → (amGet 0 t.power.tPair i).setWidth 16 = BitVec.ofNat 16 (pairOf s i).upMA) ∧ t.cores = s.cores)
    ∧ (∀ n v, n < 128 → ∃ t : State, exec (.telemetryRefresh [(n, v)]) s = .next t ∧ tempOf t n = v)

/- Power. -/

/-- R126: a gear stop begins where none is in progress and the last began 1 ms ago; it ends; past 2 µs it is recorded, once. -/
def Sys2Proof.Claims.GearStops : Prop :=
  ∀ (s : State) (p : Nat), p < 64 →
    (mayStop s p = true →
      ∃ t : State, exec (.gearStopStart p) s = .next t ∧ (pairOf t p).stopped = true ∧ (pairOf t p).stopWall = s.wall ∧ (pairOf t p).lastStop = some s.wall
        ∧ (∀ q, q ≠ p → pairOf t q = pairOf s q) ∧ t.mem = s.mem ∧ t.graphs = s.graphs
        ∧ (∀ c, c / 16 = p → geared t c = true ∧ cycOf t c = cycOf s c)
        ∧ (∀ c, c / 16 = p → (coreOf s c).act.isSome = true → (coreOf t c).ex.gear = true ∧ (coreOf t c).pi.gear = true)
        ∧ (∀ c, c / 16 ≠ p → coreOf t c = coreOf s c))
    ∧ (mayStop s p = false → exec (.gearStopStart p) s = .next s)
    ∧ ((pairOf s p).stopped = true →
      ∃ t : State, exec (.gearStopEnd p) s = .next t ∧ (pairOf t p).stopped = false ∧ (∀ q, q ≠ p → pairOf t q = pairOf s q) ∧ t.cores = s.cores
        ∧ ((pairOf s p).stopLong = false → 2000 < s.wall - (pairOf s p).stopWall → Recorded s t 0x0704 12 p [] ∧ (pairOf t p).stopLong = true)
        ∧ ((pairOf s p).stopLong = true ∨ s.wall - (pairOf s p).stopWall ≤ 2000 → { t with pairs := s.pairs } = s))
    ∧ ((pairOf s p).stopped = true → (pairOf s p).stopLong = false → 2000 < s.wall - (pairOf s p).stopWall →
      ∃ t : State, exec (.gearStop p) s = .next t ∧ Recorded s t 0x0704 12 p [] ∧ (pairOf t p).stopLong = true ∧ (pairOf t p).stopped = true ∧ t.cores = s.cores)

/-- R57 to R59, R61, R62, R127, R405: a tick takes the reports of the pairs and balances an imbalance step by step; a lasting imbalance and
a supply out of its band are recorded; the thermal and slack requests move by their steps, and the rail follows the setpoint. That the thermal request stops
falling at 600 and the slack request has no floor of its own is the model's choice (log entry 16). -/
def Sys2Proof.Claims.PowerSteps : Prop :=
  ∀ (s : State),
    (∀ currents mv, passed s.power.tickWall s.wall 1000 = true → 1100 ≤ mv →
      ∃ t : State, exec (.substationTick currents mv) s = .next t ∧ t.power.tickWall = some s.wall ∧ t.power.budget ≤ s.power.fwmax ∧ t.cores = s.cores
        ∧ (∀ p r, p < 64 → amFind currents p = some r →
            (pairOf t p).upMA = r.1 ∧ (pairOf t p).loMA = r.2
              ∧ (pairOf t p).measure = (if 10 * (max r.1 r.2 - min r.1 r.2) > max r.1 r.2 then min 4 ((pairOf s p).measure + 1) else 0)
              ∧ ((pairOf t p).measure < 2 → (pairOf t p).shuntMA = 0)
              ∧ (2 ≤ (pairOf t p).measure → (pairOf t p).shuntMA = min 1200 (max r.1 r.2 - min r.1 r.2))))
    ∧ (∀ currents mv, passed s.power.tickWall s.wall 1000 = false → exec (.substationTick currents mv) s = .next s)
    ∧ (∀ p w, p < 64 → (pairOf s p).imbSince = some w → (pairOf s p).noBind = false → 100000 ≤ s.wall - w →
      ∃ t : State, exec (.layerImbalance p) s = .next t ∧ Recorded s t 0x0702 12 p [] ∧ (pairOf t p).noBind = true ∧ t.cores = s.cores)
    ∧ (∀ w, s.power.outSince = some w → s.power.outRaised = false → 1000 < s.wall - w →
      ∃ t : State, exec .supplyOutOfBand s = .next t ∧ Recorded s t 0x0701 12 0 [] ∧ t.power.outRaised = true ∧ t.cores = s.cores)
    ∧ (passed s.power.thermWall s.wall 100000 = true →
      let hot := hottestOf s
      let top : Int := (10 * s.fw.tmig : Nat)
      ∃ t : State, exec .thermalRequestStep s = .next t
        ∧ t.power.railMV = (if inBand s.power.railMV then railFor (setpoint t.power) else s.power.railMV) ∧ t.power.thermWall = some s.wall
        ∧ (top < hot → anyMigrates s = false → t.power.thermal = max 600 (s.power.thermal - clockPart s 1500))
        ∧ (hot ≤ top - 20 → s.power.thermal < s.power.fwmax → t.power.thermal = min s.power.fwmax (s.power.thermal + clockPart s 1500))
        ∧ (hot ≤ top - 20 → s.power.fwmax ≤ s.power.thermal → t.power.thermal = s.power.thermal)
        ∧ (top - 20 < hot → s.power.cooling = true → t.power.thermal = max 600 (s.power.thermal - clockPart s 1500)) ∧ t.cores = s.cores ∧ t.mem = s.mem)
    ∧ (∀ tenths : Int, passed s.power.slackWall s.wall 1000000 = true → tenths = slackTenths s →
      let e := tenths - ((10 * s.fw.s0 : Nat) : Int)
      ∃ t : State, exec (.slackReading tenths) s = .next t
        ∧ t.power.railMV = (if inBand s.power.railMV then railFor (setpoint t.power) else s.power.railMV) ∧ t.power.slackWall = some s.wall
        ∧ (collLive s = false → t.power.slack = s.power.fwmax)
        ∧ (collLive s = true → 50 < e → t.power.slack = s.power.slack - clockPart s 750)
        ∧ (collLive s = true → e < -50 → s.power.slack < s.power.fwmax → t.power.slack = min s.power.fwmax (s.power.slack + clockPart s 750))
        ∧ (collLive s = true → -50 ≤ e → e ≤ 50 → t.power.slack = s.power.slack) ∧ t.cores = s.cores ∧ t.mem = s.mem)

/-- R57 to R62, R126, R127: gear stops and the Substation. -/
def Obligations.PowerAndGears : Prop := Claims.GearStops ∧ Claims.PowerSteps

/- Translation stations. -/

/-- R177 to R179: GO empties the fault entries of its station and the access of a stalled stream is made again; ALL does so at every station; IGO
starts an invalidation, and INVALIDATION_DONE ends all that run and removes what they name from every station. That the
entries stay until then, and that a wait that is made again has its limit counted anew, is the model's choice (log entry 24). -/
def Obligations.StationCommands : Prop :=
  ∀ (s : State),
    (∀ st, st < 16 → (stationOf s st).parked = [] →
      ∃ t : State, exec (.go st) s = .next t ∧ (stationOf t st).faults = [] ∧ (stationOf t st).dropped = false ∧ (stationOf t st).tlb = (stationOf s st).tlb
        ∧ (∀ n, n ≠ st → stationOf t n = stationOf s n) ∧ { t with stations := s.stations } = s)
    ∧ (∀ st r c pilot w o m spc g ps, st < 16 → (stationOf s st).parked = [r] → r.who = .stream c pilot → waitAt s c pilot = some w → w.why = .replay →
      let v := setStation s st { stationOf s st with faults := [], dropped := false, parked := [] }
      let x := replayWait v c w
      let h := if (coreOf s c).sup then updCore v c (fun k => { k with supWait := some x }) else updStream v c pilot (fun y => { y with wait := some x })
      let u := asStream h c pilot
      (pilot = false → (coreOf s c).sup = false → ∀ q, (coreOf s c).region = some q → q.aborting = none) →
      updCore h c (fun k => { k with viewV := w.viewV }) = h →
      w.instr.wf = true → scalarLoad w.instr = some (o, m, spc) → m.sync = .plain → ready w.instr u = true → Safety.CanonicalMemory s →
      Reaches u o m spc (sizeBytes m.size) (sizeBytes m.size) true false g ps → SyncMet u m ps → (granules ps).all (fun y => !isBad s y) = true →
      let bs := foundBytes u m ps
      ∃ t : State, exec (.go st) s = .next { t with cur := s.cur } ∧ (stationOf t st).parked = []
        ∧ Result u t o.d (if m.sx then sextTo64 (8 * bs.length) (leNat bs) else leW64 bs) ∧ t.mem = s.mem ∧ GoesOnAt u t o)
    ∧ ((∀ st, (stationOf s st).parked = []) →
      ∃ t : State, exec .all s = .next t ∧ { t with stations := s.stations } = s
        ∧ ∀ st, st < 16 → (stationOf t st).faults = [] ∧ (stationOf t st).dropped = false ∧ (stationOf t st).tlb = (stationOf s st).tlb)
    ∧ (∀ st, st < 16 →
      ∃ t : State, exec (.igo st) s = .next t ∧ (stationOf t st).ibusy = true ∧ (stationOf t st).tlb = (stationOf s st).tlb
        ∧ (∀ n, n ≠ st → stationOf t n = stationOf s n) ∧ { t with stations := s.stations } = s)
    ∧ (∃ t : State, exec .invalidationDone s = .next t ∧ { t with stations := s.stations } = s
        ∧ ∀ n, (stationOf t n).ibusy = false ∧ (stationOf t n).parked = (stationOf s n).parked
          ∧ ∀ e, e ∈ (stationOf t n).tlb ↔ (e ∈ (stationOf s n).tlb ∧ ∀ p ∈ s.stations, p.2.ibusy = true → named p.2 e = false))

/- The fabric. -/

/-- R343 to R347: lanes that fail narrow the link or take it down; a retrained link goes on; a link that is lost sends its queue by another way;
a planned change waits for the packet part-way; packets leave, cross and are routed on. That a flit check that fails changes nothing a program can see is the model's
choice (log entry 20), and so is that LINK_DOWN sends the queue of its port by another (log entry 19). -/
def Obligations.LinkSteps : Prop :=
  ∀ (s : State) (p : Nat), p < 32 →
    let k := portOf s p
    (∀ lanes, k.up = true → 0 < lanes → lanes < k.lanes → usableLanes lanes k.maxw < k.width →
      ∃ t : State, exec (.laneFailure p lanes) s = .next t ∧ Recorded s t 0x0505 9 p (leBytes 1 1)
        ∧ portOf t p = { k with lanes := lanes, width := usableLanes lanes k.maxw, retrain := true, losses := min 65535 (k.losses + 1),
                                planned := k.planned.map (fun n => min n (usableLanes lanes k.maxw)) }
        ∧ (∀ q, q ≠ p → portOf t q = portOf s q) ∧ t.cores = s.cores)
    ∧ (k.up = true → 0 < k.lanes →
      ∃ t : State, exec (.laneFailure p 0) s = .next t ∧ Recorded s t 0x0505 9 p (leBytes 1 2) ∧ (portOf t p).up = false ∧ (portOf t p).width = 0
        ∧ (portOf t p).queue = k.queue ∧ (portOf t p).planned = none)
    ∧ (k.up = true → k.retrain = true →
      ∃ t : State, exec (.linkRetrained p) s = .next t ∧ portOf t p = { k with retrain := false } ∧ (∀ q, q ≠ p → portOf t q = portOf s q)
        ∧ { t with fabric := s.fabric } = s)
    ∧ (∀ q, k.retrain = true → k.up = true → k.queue = [q] → s.fabric.out = [] →
      let u := setPort s p { k with up := false, width := 0, retrain := false, partway := none, planned := none, queue := [] }
      let r := routePort u q.src q.dst q.hops
      ∃ t, exec (.linkDown p) s = .next t ∧ Recorded s t 0x0505 9 p (leBytes 1 2) ∧ (portOf t p).up = false ∧ (portOf t p).width = 0
        ∧ (portOf t p).retrain = false ∧ ((portOf u r).up = true → (portOf t r).queue = (portOf s r).queue ++ [q]))
    ∧ exec (.flitCheckFail p) s = .next s
    ∧ (∀ v, ∃ t : State, exec (.maxw p v) s = .next t ∧ (portOf t p).maxw = v.toNat ∧ (portOf t p).width = k.width ∧ (portOf t p).queue = k.queue
        ∧ (k.up = true → usableLanes k.lanes v.toNat < k.width → (portOf t p).planned = some (usableLanes k.lanes v.toNat))
        ∧ { t with fabric := s.fabric } = s)
    ∧ (k.up = true → k.retrain = false → k.partway = none →
      ∃ (t : State) (n : Nat), exec (.plannedWidthChange p) s = .next t ∧ portOf t p = { k with width := n, planned := none }
        ∧ n ≤ usableLanes k.lanes k.maxw ∧ (∀ w, k.planned = some w → n = min (usableLanes k.lanes k.maxw) w)
        ∧ { t with fabric := s.fabric, fresh := s.fresh } = s)
    ∧ (∀ q, k.up = true → k.partway = some q → exec (.plannedWidthChange p) s = .next s
        ∧ (k.retrain = true → exec (.packetForward p q) s = .next s)
        ∧ (k.retrain = false → ∃ t : State, exec (.packetForward p q) s = .next t ∧ portOf t p = { k with partway := none }
            ∧ t.fabric.sent = q :: s.fabric.sent))
    ∧ (∀ q rest, k.up = true → k.retrain = false → k.partway = none → k.queue = q :: rest → (q.src = selfId s ∨ stalePkt s q = false) →
      ∃ t : State, exec (.packetForward p q) s = .next t ∧ (portOf t p).queue = rest ∧ { t with fabric := s.fabric } = s
        ∧ (portOf t p).partway = some (if q.src = selfId s then { q with stamp := s.wall } else q))
    ∧ (∀ q, k.queue = [] → k.partway = none → q.dst ≠ selfId s → stalePkt s q = false → q.hops < 3 →
      let r := routePort s q.src q.dst (q.hops + 1)
      (portOf s r).up = true →
      ∃ t, exec (.packetForward p q) s = .next t ∧ (portOf t r).queue = (portOf s r).queue ++ [{ q with hops := q.hops + 1 }]
        ∧ (∀ m, m ≠ r → portOf t m = portOf s m) ∧ { t with fabric := s.fabric } = s)

/-- R349, R351, R355, R356: what ends delivery contexts and remote operations at their source: acknowledgements, retransmissions, closes, replies,
an outcome that stays unknown, and the probe. What a probe drops and keeps is the model's choice (log entry 20), and so are which context a packet
belongs to (log entry 71) and that an operation is performed with its acknowledgement unless that names it as open (log entry 72). -/
def Sys2Proof.Claims.ContextSteps : Prop :=
  ∀ (s : State) (dev : Nat),
    (∀ c seq, s.fw.phase = 5 → findOut s dev = some c → (∃ e ∈ c.unacked, (seq - e.pkt.seq).toNat < 2 ^ 23) → (∀ r ∈ s.fabric.rops, r.tab = none) →
      ∃ (t : State) (d : Ctx), exec (.ackReceive dev seq) s = .next t ∧ findOut t dev = some d
        ∧ d.unacked = c.unacked.filter (fun e => decide (2 ^ 23 ≤ (seq - e.pkt.seq).toNat)) ∧ d.ackWall = s.wall
        ∧ (∀ r ∈ t.fabric.rops, r.dev = dev → (seq - r.seq).toNat < 2 ^ 23 → (∃ e ∈ c.unacked, e.pkt.seq = r.seq) →
            r.acked = true ∧ (r.done = false → r.ctx ≤ c.born → r.perf = true))
        ∧ { t with fabric := s.fabric } = s)
    ∧ (∀ c seq e, findOut s dev = some c → c.unacked.find? (fun x => x.pkt.seq == seq) = some e →
      min 64000 (2000 * 2 ^ min e.tries 5) ≤ s.wall - e.wall → inQueues s e.pkt = false →
      let r := routePort s e.pkt.src e.pkt.dst e.pkt.hops
      ∃ t d, exec (.retransmitTimer dev seq) s = .next t ∧ findOut t dev = some d
        ∧ d.unacked.find? (fun x => x.pkt.seq == seq) = some { e with wall := s.wall, tries := e.tries + 1, port := none }
        ∧ ((portOf s r).up = true → (portOf t r).queue = (portOf s r).queue ++ [e.pkt]) ∧ { t with fabric := s.fabric } = s)
    ∧ (∀ c, dev ≠ selfId s → findOut s dev = some c → c.unacked = [] → c.closed = none → 4000 ≤ s.wall - c.traffic →
      ∃ (t : State) (d : Ctx), exec (.contextClose dev) s = .next t ∧ findOut t dev = some d ∧ d.closed = some s.wall ∧ Sent s t dev .close)
    ∧ (∀ c r, findOut s dev = some c → c.unacked ≠ [] → s.fabric.reachto.toNat ≤ s.wall - c.ackWall → s.fabric.rops = [r] → r.kind = .load →
      openRop dev r = true →
      ∃ (t : State) (d : Ctx), exec (.remoteOutcomeUnknown dev) s = .next t ∧ dev ∈ t.fabric.unreach ∧ findOut t dev = some d ∧ d.unacked = []
        ∧ findRop t r.id = some { r with done := true, rep := some (.trap 0x0504) })
    ∧ (dev ∈ s.fabric.unreach → (∀ p ∈ s.fabric.rack, p.2.st ≠ .landed) →
      ∃ t : State, exec (.reachabilityProbe dev) s = .next t ∧ dev ∉ t.fabric.unreach ∧ findOut t dev = none
        ∧ (∀ d, d ≠ dev → findOut t d = findOut s d) ∧ (∀ d, findIn t d = findIn s d) ∧ { t with fabric := s.fabric } = s)
    ∧ (∀ c w, findIn s dev = some c → c.closed = some w → 100000 ≤ s.wall - w →
      ∃ t : State, exec (.lastSequenceExpiry dev) s = .next t ∧ (c.behind = [] → findIn t dev = none)
        ∧ (c.behind ≠ [] → findIn t dev = some { src := dev, born := c.born, behind := c.behind }) ∧ (∀ d, d ≠ dev → findIn t d = findIn s d) ∧ { t with fabric := s.fabric } = s)
    ∧ (∀ op r rep, s.fw.phase = 5 → findRop s op = some r → r.done = false → r.kind ≠ .store →
      ∃ (t : State) (u : ROp), exec (.remoteReply op rep) s = .next t ∧ findRop t op = some u ∧ u = { r with done := true, rep := some rep, perf := u.perf }
        ∧ u.perf = (match rep with | .trap _ => r.perf | .canceled => r.perf | _ => true) ∧ { t with fabric := s.fabric } = s)

/-- R349, R355, R356: the destination's end: a reply in its turn is taken and acknowledged with what has not been performed, a duplicate is
acknowledged again; a waiting access ends by the limit of its list or by a cancel. -/
def Sys2Proof.Claims.ArrivalsAndEnds : Prop :=
  ∀ (s : State) (dev : Nat),
    (∀ st k e x, st < 16 → (amGet [] s.fabric.retry st)[k]? = some e → pktAcc e.pkt.body = some x → s.fw.rllim ≤ s.wall - e.arr → e.src ≠ selfId s →
      ∃ t : State, exec (.retryListTimeout st k) s = .next t ∧ amGet [] t.fabric.retry st = (amGet [] s.fabric.retry st).eraseIdx k
        ∧ Sent s t e.src (.reply x.op (.trap 0x0506)) ∧ t.mem = s.mem)
    ∧ (∀ op, s.fw.phase = 5 → dev ≠ selfId s → s.fabric.siding = [] → s.fabric.inn = [] →
      (∃ p ∈ s.fabric.retry, ∃ e ∈ p.2, e.src = dev ∧ (pktAcc e.pkt.body).map (·.op) = some op) →
      ∃ t : State, exec (.cancel dev op) s = .next t ∧ (∀ p ∈ t.fabric.retry, ∀ e ∈ p.2, ¬(e.src = dev ∧ (pktAcc e.pkt.body).map (·.op) = some op))
        ∧ Sent s t dev (.reply op .canceled) ∧ t.mem = s.mem ∧ t.cores = s.cores)
    ∧ (∀ q, s.fw.phase = 5 → q.src = dev → q.dst = selfId s → dev ≠ selfId s → stalePkt s q = false → inGrid s dev = true →
      (∀ seq, q.body = .ack seq [] → ((findOut s dev).map (·.born)).getD 0 ≤ q.ctx → exec (.packetReceive q) s = exec (.ackReceive dev seq) s)
      ∧ ((∀ seq l, q.body ≠ .ack seq l) → (joinCtx s q).born ≤ q.ctx → seqBefore q.seq (joinCtx s q).next = true →
        ∃ t : State, exec (.packetReceive q) s = .next t ∧ AckSent s t dev ((joinCtx s q).next - 1) ∧ inOf t dev = inOf s dev ∧ t.fabric.rops = s.fabric.rops
          ∧ { t with fabric := s.fabric } = s)
      ∧ (∀ op bs r, q.body = .reply op (.data bs) → q.ctx = (inOf s dev).born → q.seq = (inOf s dev).next → (inOf s dev).window = [] →
        findRop s op = some r → r.done = false → r.kind ≠ .store →
        ∃ t : State, exec (.packetReceive q) s = .next t ∧ (inOf t dev).next = q.seq + 1
          ∧ findRop t op = some { r with done := true, rep := some (.data bs), perf := true }
          ∧ AckSent s t dev q.seq ∧ { t with fabric := s.fabric } = s))

/-- R347, R349, R351, R355, R356: delivery contexts and remote operations, at both ends. -/
def Obligations.DeliveryContexts : Prop := Claims.ContextSteps ∧ Claims.ArrivalsAndEnds

/-- R359 to R363: a holder is recorded and answered; CLEAR and DROP are noted and settle a held store; an acknowledged CLEAR frees its entry with the
last one; a store held beyond its time is discarded; EXPIRED kills the tablet and tells the task; a store that is acknowledged and performed
lands its tablet; a dead entry is freed; a rack that stays full is recorded, with EID 0, the model's choice (log entry
79). That a tablet lands only when its store is performed, too, is the model's choice (log entry 72). -/
def Obligations.TabletSteps : Prop :=
  ∀ (s : State) (dev : Nat) (tab : BitVec 32), dev ≠ selfId s →
    (s.fw.phase = 5 →
      (∀ holder, dev < 256 → rackStatus s tab = 0 → holder ∉ (rackOf s (tabIdx tab)).holders → (rackOf s (tabIdx tab)).holders.length < 8 →
        ∃ t : State, exec (.hold (dev + 256 * holder) tab) s = .next t ∧ (rackOf t (tabIdx tab)).holders = (rackOf s (tabIdx tab)).holders ++ [holder]
          ∧ Sent s t dev (.holdAns tab holder 1) ∧ (∀ i, i ≠ tabIdx tab → rackOf t i = rackOf s i) ∧ { t with fabric := s.fabric } = s)
      ∧ (∀ holder, dev < 256 → rackStatus s tab ≠ 0 →
        ∃ t : State, exec (.hold (dev + 256 * holder) tab) s = .next t ∧ t.fabric.rack = s.fabric.rack
          ∧ Sent s t dev (.holdAns tab holder (if rackStatus s tab = 1 then 0 else 2)))
      ∧ (∃ t : State, exec (.query dev tab) s = .next t ∧ t.fabric.rack = s.fabric.rack ∧ Sent s t dev (.queryAns tab (rackStatus s tab))
          ∧ { t with fabric := s.fabric } = s)
      ∧ (s.fabric.siding = [] → s.fabric.inn = [] → tabDev tab ≠ selfId s →
        ∃ t : State, exec (.clear tab) s = .next t ∧ tabKnown t tab = 1 ∧ Sent s t (tabDev tab) (.clearAck tab) ∧ t.mem = s.mem ∧ t.cores = s.cores)
      ∧ (∀ h x, s.fabric.siding = [h] → s.fabric.inn = [] → tabDev tab ≠ selfId s → pktTabs h.pkt.body = [tab] → pktAcc h.pkt.body = some x → h.src = dev →
        ∃ t : State, exec (.drop tab) s = .next t ∧ tabKnown t tab = 2 ∧ t.fabric.siding = [] ∧ Sent s t dev (.expired x.op tab 2 (fabAddr s h.pkt)) ∧ t.mem = s.mem)
      ∧ (∀ i, i < 4096 → (rackOf s i).st = .landed →
        ∃ t : State, exec (.clearAck dev i) s = .next t ∧ (rackOf t i).acks = (rackOf s i).acks.filter (· != dev)
          ∧ (rackOf t i).st = (if (rackOf s i).acks.all (· == dev) then .free else .landed) ∧ (∀ j, j ≠ i → rackOf t j = rackOf s j)
          ∧ { t with fabric := s.fabric } = s)
      ∧ (∀ r i op holder reason addr, s.fabric.rops = [r] → r.id = op → r.done = false → r.tab = some i → (rackOf s i).st = .pending → (rackOf s i).holders = [] →
        ∃ t m, exec (.expired op tab holder reason addr) s = .next t ∧ (rackOf t i).st = .dead ∧ (rackOf t i).deadWall = s.wall
          ∧ findRop t op = some { r with done := true } ∧ t.asyncs = s.asyncs ++ [m] ∧ m.gid = r.gid ∧ m.task = r.task ∧ m.ev.code = 0x0501 ∧ m.ev.addr = r.va)
      ∧ (∀ c e r i, findOut s dev = some c → c.unacked = [e] → e.pkt.seq = r.seq → r.ctx ≤ c.born → s.fabric.rops = [r] → r.dev = dev → r.kind = .store →
        r.done = false → r.tab = some i → (rackOf s i).st = .pending → (rackOf s i).holders = [] →
        ∃ t : State, exec (.ackReceive dev r.seq) s = .next t ∧ t.fabric.rops = [{ r with acked := true, perf := true }] ∧ (rackOf t i).st = .free
          ∧ (∀ j, j ≠ i → rackOf t j = rackOf s j) ∧ { t with fabric := s.fabric } = s))
    ∧ (∀ h x, s.fabric.siding = [h] → s.fabric.inn = [] → pktTabs h.pkt.body = [tab] → pktAcc h.pkt.body = some x → h.src = dev →
      carryOf s h.pkt ≠ .perform → pktExp h.pkt.body < s.wall - h.arr →
      ∃ t : State, exec (.sidingExpiry 0) s = .next t ∧ t.fabric.siding = [] ∧ Sent s t dev (.expired x.op tab 1 (fabAddr s h.pkt)) ∧ t.mem = s.mem)
    ∧ (∀ i, i < 4096 → (rackOf s i).st = .dead → 10000000 ≤ s.wall - (rackOf s i).deadWall →
      ∃ t : State, exec (.deadEntryFree i) s = .next t ∧ rackOf t i = { rackOf s i with st := .free } ∧ { t with fabric := s.fabric } = s)
    ∧ (∀ c pilot w o m, c < 1024 → waitAt s c pilot = some w → w.instr = .rst o m → m.tab = true → w.why = .room → w.aux = 2 → freeRack s = none →
      100000 ≤ s.wall - w.w0 →
      ∃ t : State, exec (.tabletRackFull c pilot) s = .next t ∧ waitAt t c pilot = some { w with aux := 3 } ∧ t.fabric = s.fabric
        ∧ t.lastFaults.head? = some (recBytes { berthRec s c (actBerthNo (coreOf s c)) 0x0502 with
             engine := 9, eid := 0, pc := (streamOf (coreOf s c) pilot).pc }))

/- Firmware, host and resets. -/

/-- R6, R42, R178, R371: host writes and reads of the memory, and writes of registers: launch contexts and translation stations. -/
def Obligations.HostAccesses : Prop :=
  ∀ (s : State),
    (∀ lpddr addr bytes, Safety.CanonicalMemory s → hostRange s lpddr addr bytes.length = true →
      let a := tierFlat (bitNat lpddr) addr
      (granules [(a, bytes.length)]).all (fun g => !isBad s g) = true →
      ∃ t : State, exec (.cxlMemWrite lpddr addr bytes) s = .next t ∧ rdBytes t.mem a bytes.length = bytes
        ∧ (∀ x, x < a ∨ a + bytes.length ≤ x → rdByte t.mem x = rdByte s.mem x) ∧ { t with mem := s.mem, dirty := s.dirty } = s)
    ∧ (∀ lpddr addr len, hostRange s lpddr addr len = true →
      let a := tierFlat (bitNat lpddr) addr
      ((granules [(a, len)]).all (fun g => !isBad s g) = true →
        exec (.cxlMemRead lpddr addr len) s = .next { s with hostOut := some (rdBytes s.mem a len) :: s.hostOut })
      ∧ ((granules [(a, len)]).any (isBad s) = true →
        ∃ t : State, exec (.cxlMemRead lpddr addr len) s = .next t ∧ t.hostOut = none :: s.hostOut ∧ t.cores = s.cores))
    ∧ (∀ n v, n < 16 →
      ∃ t : State, exec (.registerWrite 2 (0x1000 * n + 0x44) 4 v) s = .next t ∧ (ctxOf t n).enable = v.getLsbD 31
        ∧ (ctxOf t n).drop = ((ctxOf s n).drop && !v.getLsbD 17) ∧ (ctxOf t n).fullseen = ((ctxOf s n).fullseen && !v.getLsbD 16)
        ∧ (ctxOf t n).queue = (ctxOf s n).queue ∧ (ctxOf t n).stage = (ctxOf s n).stage ∧ (∀ m, m ≠ n → ctxOf t m = ctxOf s m) ∧ { t with ctxs := s.ctxs } = s)
    ∧ (∀ n v, n < 16 →
      ∃ t : State, exec (.registerWrite 4 (0x1000 * n + 0x80) 8 v) s = .next t ∧ (stationOf t n).ptbase = v &&& pageBits
        ∧ (stationOf t n).tlb = (stationOf s n).tlb ∧ (∀ m, m ≠ n → stationOf t m = stationOf s m) ∧ { t with stations := s.stations } = s)

/-- R419, R420, R425, R426: the mailbox commands and their results, and the attestation requests. The model's choices are: that DSTOP marks a
LIVE berth, which stops later (log entry 38); that DSAVE writes an accounting record of KIND 2 (log entry 41); that an FWLOAD of an image that
does not verify is answered with RESULT 5 and does not reset the device (log entry 46); how the measurement and the responses depend on the
image, the key and the request (log entry 86). -/
def Obligations.MailboxCommands : Prop :=
  ∀ (s : State),
    (runs s 0x0001 = true → ∃ t : State, exec .getparam s = .next t ∧ { t with fw := s.fw, msix := s.msix } = s
      ∧ (∀ v, paramOf s (argOf s 0) = some v → Answered t 0 ∧ t.fw.resp.head? = some (BitVec.ofNat 64 v))
      ∧ (paramOf s (argOf s 0) = none → Answered t 4 ∧ t.fw.resp = s.fw.resp))
    ∧ (runs s 0x0002 = true → ∃ t : State, exec .setparam s = .next t ∧ t.cores = s.cores ∧ t.mem = s.mem
      ∧ ((paramOf s (argOf s 0)).isSome = true → paramOk s (argOf s 0) (argOf s 1) = true → Answered t 0 ∧ paramOf t (argOf s 0) = some (argOf s 1)
          ∧ ∀ n, n ≠ argOf s 0 → paramOf t n = paramOf s n)
      ∧ ((paramOf s (argOf s 0)).isSome = true → paramOk s (argOf s 0) (argOf s 1) = false → Answered t 2 ∧ ∀ n, paramOf t n = paramOf s n)
      ∧ (paramOf s (argOf s 0) = none → Answered t 4 ∧ ∀ n, paramOf t n = paramOf s n))
    ∧ (∀ c b, runs s 0x0010 = true → namedBerth s = some (c, b) → (berthAt (coreOf s c) b).state = .live → (berthAt (coreOf s c) b).stopFor = none →
      ∃ t : State, exec .dstop s = .next t ∧ Answered t 0 ∧ (berthAt (coreOf t c) b).stopFor = some .debug ∧ t.mem = s.mem)
    ∧ (∀ c b u, runs s 0x0011 = true → namedBerth s = some (c, b) → (berthAt (coreOf s c) b).state = .stopping → debugStop (berthAt (coreOf s c) b) = true →
      (graphOf s (berthAt (coreOf s c) b).gid).pre = true → argOf s 2 < 16384 → storesLeft s c b = false →
      writeSlot (writeAcct s c b 2) c (berthAt (coreOf s c) b) (graphOf s (berthAt (coreOf s c) b).gid) (argOf s 2) = some u →
      ∃ t : State, exec .dsave s = .next t ∧ Answered t 0 ∧ t.mem = u.mem ∧ t.cores = u.cores)
    ∧ (∀ c b, runs s 0x0012 = true → namedBerth s = some (c, b) → (berthAt (coreOf s c) b).state = .stopping → debugStop (berthAt (coreOf s c) b) = true →
      (berthAt (coreOf s c) b).winStore = [] →
      ∃ t : State, exec .dgo s = .next t ∧ Answered t 0 ∧ (berthAt (coreOf t c) b).state = .live ∧ (berthAt (coreOf t c) b).stopFor = none ∧ t.mem = s.mem)
    ∧ (runs s 0x0020 = true → argOf s 0 < 16 → ∃ t : State, exec .rackallow s = .next t ∧ Answered t 0
      ∧ amFind t.fw.allow (argOf s 0) = (if bitAt (argOf s 1) 12 then some (fieldAt (argOf s 1) 0 12) else none)
      ∧ (∀ n, n ≠ argOf s 0 → amFind t.fw.allow n = amFind s.fw.allow n))
    ∧ (runs s 0x0031 = true → argOf s 0 + argOf s 1 ≤ usable s.gddr →
      let i := imageOf s (argOf s 0) (argOf s 1)
      ∃ t : State, exec .fwload s = .next t ∧ t.fw.image = s.fw.image
        ∧ (Config.imageVerifies i = true → Answered t 0 ∧ t.fw.staged = some (i, argOf s 1))
        ∧ (Config.imageVerifies i = false → Answered t 5 ∧ t.fw.staged = s.fw.staged ∧ Recorded s t 0x0901 13 0 []))
    ∧ (runs s 0x0032 = true → ∃ t : State, exec .measure s = .next t ∧ Answered t 0
      ∧ t.fw.resp = s.fw.meas ++ s.fw.resp.drop s.fw.meas.length)
    ∧ (∀ i k req, (i, k) ∈ [(Instr.getVersion req, 0), (.getCapabilities req, 1), (.negotiateAlgorithms req, 2), (.getDigests req, 3),
        (.getCertificate req, 4), (.challenge req, 5), (.getMeasurements req, 6)] →
      ∃ t l, exec i s = .next t ∧ t.cores = s.cores ∧ t.graphs = s.graphs
        ∧ (t.fw.spdm = (k, l) :: s.fw.spdm ∨ (t.fw.spdm = s.fw.spdm ∧ Recorded s t 0x0902 13 0 []))
        ∧ (s.fw.key = none → k = 3 ∨ k = 4 ∨ k = 5 ∨ k = 6 → t.fw.spdm = s.fw.spdm ∧ Recorded s t 0x0902 13 0 [])
        ∧ (k = 6 → t.fw.spdm = (k, l) :: s.fw.spdm → ∃ x, l = s.fw.meas.flatMap (fun y => leBytes 8 y.toNat) ++ x))

/-- R61, R406, R407, R420, R421, R422, R424: the resets: their cause, the work they end, and the memory and time that they keep; a warm one keeps
the DRAM, WALL and the fault log and clears the stores, scratchpads and vaults with their full/empty bits, the racks and the sidings; a cold
one keeps nothing. A warm reset of a cause 5 to 8 waits for its post-mortem image where PMBASE names room for one and none is kept; a further
such cause then joins ALSO. Where an image is kept, LOST counts and the reset follows at once. -/
def Sys2Proof.Claims.Resets : Prop :=
  ∀ (s : State), s.fw.phase = 5 → s.fw.waiting = none →
    let warm := fun (t : State) (cause code : Nat) => t.fw.first = cause ∧ t.fw.also = 0 ∧ t.fw.rcode = BitVec.ofNat 16 code ∧ t.fw.phase = 1
      ∧ t.cores = [] ∧ t.graphs = [] ∧ t.ctxs = [] ∧ t.stations = [] ∧ t.posted = [] ∧ t.wall = s.wall
      ∧ t.fabric.rack = [] ∧ t.fabric.siding = []
      ∧ (∀ a, vaultBase ≤ a → a < hostBase → rdByte t.mem a = 0) ∧ (∀ g, vaultBase ≤ 16 * g → 16 * g < hostBase → feGet t g = false)
    let keeps := fun (t : State) => (∀ a, a < vaultBase → rdByte t.mem a = rdByte s.mem a) ∧ t.flog = s.flog
    let clear := imageRoom s = false ∨ s.fw.pmvalid = true
    let waits := fun (t : State) (cause code : Nat) => t.fw.waiting = some (cause, code) ∧ t.fw.first = cause ∧ t.fw.phase = 5 ∧ t.cores = s.cores ∧ t.graphs = s.graphs
    (∃ t : State, exec .cxlHotReset s = .next t ∧ warm t 3 0 ∧ keeps t)
    ∧ (∃ t : State, exec .cxlFlr s = .next t ∧ warm t 4 0 ∧ keeps t)
    ∧ (10 * reportNs ≤ s.wall - s.fw.reportWall →
      ∃ t : State, exec .watchdog s = .next t ∧ Recorded s t 0x0903 13 0 [] ∧ (clear → warm t 5 0) ∧ (¬clear → waits t 5 0))
    ∧ (∃ t : State, exec (.fatalErrorReset 0x0803) s = .next t ∧ Recorded s t 0x0803 8 0 [] ∧ (clear → warm t 6 0x0803) ∧ (¬clear → waits t 6 0x0803))
    ∧ (∀ n, n < 128 → 1150 ≤ amGet 0 s.power.temps n →
      ∃ t : State, exec (.thermalTrip n) s = .next t ∧ Recorded s t 0x0703 12 n [] ∧ (clear → warm t 7 0) ∧ (¬clear → waits t 7 0))
    ∧ (runs s 0x0030 = true →
      ∃ t : State, exec .reset s = .next t ∧ (clear → warm t 8 0) ∧ (¬clear → waits t 8 0)
        ∧ (imageRoom s = false → keeps t) ∧ (imageRoom s = true → s.fw.pmvalid = true → s.fw.pmlost < 255 → t.fw.pmlost = s.fw.pmlost + 1))
    ∧ (s.power.railMV < 1100 → ∃ t : State, exec .brownoutReset s = .next t ∧ t.fw.first = 2 ∧ t.fw.phase = 1 ∧ t.cores = [] ∧ t.graphs = [] ∧ t.wall = 0
        ∧ (∀ a, a < hostBase → rdByte t.mem a = 0) ∧ t.flog = {} ∧ t.lastFaults = [])

/-- R342, R343, R421, R422, R424, R425, R426: bring-up completes its phases, measures its stages and derives the identity key; an image that does
not verify stops it; the last phase trains the ports that lead inside the grid; the dispatcher's report is noted. That the advance of the boot
completes an image a reset waits for, which makes VALID 1 and lets the reset follow, is the model's schedule (log entry 74); a cause that is
raised meanwhile joins ALSO. -/
def Sys2Proof.Claims.BringUp : Prop :=
  ∀ (s : State),
    (s.fw.waiting = none →
      (s.fw.phase = 1 → exec .bootPhaseAdvance s = .next { s with fw := { measureStage 0 s.fw with phase := 2 } })
      ∧ (s.fw.phase = 2 → Config.imageVerifies s.fw.image = true →
        exec .bootPhaseAdvance s = .next { s with fw := { deriveKey (measureStage 1 s.fw) with phase := 3 } })
      ∧ (s.fw.phase = 2 → Config.imageVerifies s.fw.image = false → imageRoom s = false ∨ s.fw.pmvalid = true →
        ∃ t : State, exec .bootPhaseAdvance s = .next t ∧ t.fw.phase = 15 ∧ t.fw.also = s.fw.also ||| 0x20 ∧ Recorded s t 0x0901 13 0 [])
      ∧ (s.fw.phase = 3 → exec .bootPhaseAdvance s = .next { s with fw := { s.fw with phase := 4 } })
      ∧ (s.fw.phase = 4 →
        ∃ t v, exec .bootPhaseAdvance s = .next t ∧ t.fw.phase = 5 ∧ t.fw.locktab = some v ∧ v ≠ 0 ∧ v &&& 0xFFF = 0 ∧ (s.fw.setWall = false → t.wall = s.wall)
          ∧ t.fw.reportWall = t.wall ∧ t.fw.setWall = false ∧ t.fw.train = false
          ∧ (s.fw.train = false → ∀ p, portOf t p = portOf s p)
          ∧ (s.fw.train = true →
              (∀ p, p < 32 → usedPort s p = true → Config.farEnd p = peerOf s p → (portOf s p).lanes ≠ 0 →
                (portOf t p).up = true ∧ (portOf t p).width = usableLanes (portOf s p).lanes (portOf s p).maxw ∧ (portOf t p).peer = peerOf s p)
              ∧ (∀ p, p < 32 → usedPort s p = true → Config.farEnd p ≠ peerOf s p → (portOf t p).up = false)
              ∧ (∀ p, p < 32 → usedPort s p = false → portOf t p = portOf s p))))
    ∧ (∀ cause code, s.fw.waiting = some (cause, code) → 5 ≤ cause → cause ≤ 8 →
      (∃ t : State, exec .bootPhaseAdvance s = .next t ∧ t.fw.waiting = none ∧ t.fw.pmvalid = true ∧ t.fw.phase = (if cause = 6 ∧ code = 0x0901 then 15 else 1)
        ∧ t.fw.first = s.fw.first ∧ t.fw.also = s.fw.also ∧ t.fw.rcode = s.fw.rcode ∧ t.cores = [] ∧ t.graphs = [] ∧ t.wall = s.wall)
      ∧ (runs s 0x0030 = true → exec .reset s = .next { s with fw := { s.fw with also := s.fw.also ||| 0x80 } }))
    ∧ (s.fw.phase = 5 → exec .dispatcherReport s = .next { s with fw := { s.fw with reportWall := s.wall } })


/-- R61, R406, R407, R420, R424, R425: the resets and the phases of bring-up. -/
def Obligations.ResetsAndBringUp : Prop := Claims.Resets ∧ Claims.BringUp

end
end

