-- ==== Sys2Proof/Laws/Maps.lean ====
section
/-! SUPPORT. Keyed maps: what a read finds after a write. -/

namespace Sys2Proof.Machine

@[simp] theorem amGet_amSet_same {α : Type} (d : α) (m : AMap α) (n : Nat) (v : α) : amGet d (amSet m n v) n = v := by
  induction m with
  | nil => simp [amSet, amGet]
  | cons p t ih =>
    obtain ⟨k, w⟩ := p
    simp only [amSet]
    split
    · simp [amGet]
    · split
      · simp [amGet]
      · simp only [amGet]
        rw [if_neg (by omega)]
        exact ih

theorem amGet_amSet_other {α : Type} (d : α) (m : AMap α) {n j : Nat} (v : α) (h : j ≠ n) :
    amGet d (amSet m n v) j = amGet d m j := by
  induction m with
  | nil => simp [amSet, amGet, Ne.symm h]
  | cons p t ih =>
    obtain ⟨k, w⟩ := p
    simp only [amSet]
    split
    · simp [amGet, Ne.symm h]
    · split
      · rename_i h1 h2; subst h2; simp [amGet, Ne.symm h]
      · simp only [amGet, ih]

theorem amGet_amSet {α : Type} (d : α) (m : AMap α) (n j : Nat) (v : α) :
    amGet d (amSet m n v) j = if j = n then v else amGet d m j := by
  split
  · rename_i h; subst h; exact amGet_amSet_same d m j v
  · rename_i h; exact amGet_amSet_other d m v h

theorem amFind_amSet_same {α : Type} (m : AMap α) (n : Nat) (v : α) : amFind (amSet m n v) n = some v := by
  induction m with
  | nil => simp [amSet, amFind]
  | cons p t ih =>
    obtain ⟨k, w⟩ := p
    simp only [amSet]
    split
    · simp [amFind]
    · split
      · simp [amFind]
      · simp only [amFind]
        rw [if_neg (by omega)]
        exact ih

theorem amFind_amSet_other {α : Type} (m : AMap α) {n j : Nat} (v : α) (h : j ≠ n) : amFind (amSet m n v) j = amFind m j := by
  induction m with
  | nil => simp [amSet, amFind, Ne.symm h]
  | cons p t ih =>
    obtain ⟨k, w⟩ := p
    simp only [amSet]
    split
    · simp [amFind, Ne.symm h]
    · split
      · rename_i h1 h2; subst h2; simp [amFind, Ne.symm h]
      · simp only [amFind, ih]

end Sys2Proof.Machine
end

