-- ==== Sys2Proof/Laws/Memory.lean ====
section
/-! SUPPORT. Memory: every operation keeps the canonical form, a read after a write finds what was written, and a write
leaves every other byte alone. -/

namespace Sys2Proof.Machine

/- Spans. -/

theorem spanAt_isNone {l : List Span} {k : Nat} : (spanAt l k).isNone = true ↔ ∀ x ∈ l, ¬(x.lo ≤ k ∧ k < x.hi) := by
  induction l with
  | nil => simp [spanAt]
  | cons y t ih =>
    simp only [spanAt]
    split
    · rename_i h
      constructor
      · intro e; simp at e
      · intro e; exact absurd h (e y (by simp))
    · rename_i h
      rw [ih]
      constructor
      · intro e x hx
        rcases List.mem_cons.mp hx with rfl | hx
        · exact h
        · exact e x hx
      · intro e x hx
        exact e x (List.mem_cons_of_mem _ hx)

/-- What is covered after a cut was covered before, and lies outside the cut. -/
theorem mem_cutSpans {l : List Span} {lo hi k : Nat} {x : Span} (h : x ∈ cutSpans l lo hi) (hk : x.lo ≤ k ∧ k < x.hi) :
    (∃ y ∈ l, y.lo ≤ k ∧ k < y.hi) ∧ ¬(lo ≤ k ∧ k < hi) := by
  simp only [cutSpans, List.mem_flatMap] at h
  obtain ⟨y, hy, hx⟩ := h
  simp only [cutSpan, List.mem_append] at hx
  rcases hx with hx | hx
  · split at hx
    · simp only [List.mem_singleton] at hx
      subst hx
      simp only at hk
      exact ⟨⟨y, hy, by omega⟩, by omega⟩
    · simp at hx
  · split at hx
    · simp only [List.mem_singleton] at hx
      subst hx
      simp only at hk
      exact ⟨⟨y, hy, by omega⟩, by omega⟩
    · simp at hx

theorem spanAt_cut_none {l : List Span} {lo hi k : Nat} (h : (spanAt l k).isNone = true ∨ (lo ≤ k ∧ k < hi)) :
    (spanAt (cutSpans l lo hi) k).isNone = true := by
  rw [spanAt_isNone]
  intro x hx hk
  obtain ⟨⟨y, hy, h1⟩, h2⟩ := mem_cutSpans hx hk
  rcases h with h | h
  · exact (spanAt_isNone.mp h) y hy h1
  · exact h2 h

theorem spansWf_mono {l : List Span} {a b : Nat} (h : spansWf l b = true) (hab : a ≤ b) : spansWf l a = true := by
  cases l with
  | nil => rfl
  | cons x t =>
    simp only [spansWf, Bool.and_eq_true, decide_eq_true_eq] at *
    exact ⟨⟨by omega, h.1.2⟩, h.2⟩

/-- Rising spans with a cut taken out rise. -/
theorem spansWf_cut {l : List Span} {a : Nat} {lo hi : Nat} (hlh : lo ≤ hi) (h : spansWf l a = true) : spansWf (cutSpans l lo hi) a = true := by
  induction l generalizing a with
  | nil => rfl
  | cons x t ih =>
    simp only [spansWf, Bool.and_eq_true, decide_eq_true_eq] at h
    have h1 := ih h.2
    have e : cutSpans (x :: t) lo hi = cutSpan x lo hi ++ cutSpans t lo hi := by simp [cutSpans]
    rw [e]
    unfold cutSpan
    split <;> split <;>
      simp only [List.append_nil, List.nil_append, List.cons_append, spansWf, Bool.and_eq_true, decide_eq_true_eq]
    · refine ⟨⟨by omega, by omega⟩, ⟨⟨by omega, by omega⟩, h1⟩⟩
    · refine ⟨⟨by omega, by omega⟩, spansWf_mono h1 (by omega)⟩
    · refine ⟨⟨by omega, by omega⟩, h1⟩
    · exact spansWf_mono h1 (by omega)

/-- A span put where nothing is covered keeps the spans rising. -/
theorem spansWf_add {l : List Span} {a : Nat} {y : Span} (h : spansWf l a = true) (ha : a ≤ y.lo) (hy : y.lo < y.hi)
    (hfree : ∀ x ∈ l, x.hi ≤ y.lo ∨ y.hi ≤ x.lo) : spansWf (addSpan l y) a = true := by
  induction l generalizing a with
  | nil => simp [addSpan, spansWf, ha, hy]
  | cons x t ih =>
    simp only [spansWf, Bool.and_eq_true, decide_eq_true_eq] at h
    have hx := hfree x (by simp)
    simp only [addSpan]
    split
    · simp only [spansWf, Bool.and_eq_true, decide_eq_true_eq]
      refine ⟨⟨ha, hy⟩, ⟨⟨by omega, h.1.2⟩, h.2⟩⟩
    · simp only [spansWf, Bool.and_eq_true, decide_eq_true_eq]
      refine ⟨⟨h.1.1, h.1.2⟩, ih h.2 (by omega) (fun z hz => hfree z (List.mem_cons_of_mem _ hz))⟩

/-- Every span of a cut list lies on one side of the cut. -/
theorem cut_sides {l : List Span} {lo hi : Nat} {x : Span} (h : x ∈ cutSpans l lo hi) : x.hi ≤ lo ∨ hi ≤ x.lo := by
  simp only [cutSpans, List.mem_flatMap] at h
  obtain ⟨y, _, hx⟩ := h
  simp only [cutSpan, List.mem_append] at hx
  rcases hx with hx | hx <;> split at hx <;> simp at hx <;> subst hx <;> simp

/- Cells. -/

theorem cellsWf_mono {l : List Host.Cell} {a b : Nat} {sp : List Span} (h : cellsWf l b sp = true) (hab : a ≤ b) :
    cellsWf l a sp = true := by
  cases l with
  | nil => rfl
  | cons c t =>
    simp only [cellsWf, Bool.and_eq_true, decide_eq_true_eq] at *
    exact ⟨⟨⟨by omega, h.1.1.2⟩, h.1.2⟩, h.2⟩

theorem cellsWf_filter {l : List Host.Cell} {a : Nat} {sp sq : List Span} (p : Host.Cell → Bool)
    (hs : ∀ k, (spanAt sp k).isNone = true → (∃ v, p (k, v) = true) → (spanAt sq k).isNone = true) (h : cellsWf l a sp = true) :
    cellsWf (l.filter p) a sq = true := by
  induction l generalizing a with
  | nil => rfl
  | cons c t ih =>
    simp only [cellsWf, Bool.and_eq_true, decide_eq_true_eq] at h
    simp only [List.filter_cons]
    split
    · rename_i hp
      simp only [cellsWf, Bool.and_eq_true, decide_eq_true_eq]
      exact ⟨⟨⟨h.1.1.1, h.1.1.2⟩, hs _ h.1.2 ⟨c.2, hp⟩⟩, ih h.2⟩
    · exact cellsWf_mono (ih h.2) (by omega)

theorem cellsWf_append {l r : List Host.Cell} {a m : Nat} {sp : List Span} (hl : cellsWf l a sp = true)
    (hlt : ∀ c ∈ l, c.1 < m) (hr : cellsWf r m sp = true) (ham : a ≤ m) : cellsWf (l ++ r) a sp = true := by
  induction l generalizing a with
  | nil => exact cellsWf_mono hr ham
  | cons c t ih =>
    simp only [cellsWf, Bool.and_eq_true, decide_eq_true_eq] at hl
    simp only [List.cons_append, cellsWf, Bool.and_eq_true, decide_eq_true_eq]
    have := hlt c (by simp)
    exact ⟨hl.1, ih hl.2 (fun x hx => hlt x (List.mem_cons_of_mem _ hx)) (by omega)⟩

theorem blockCells_lt {bs : List Byte} {a : Nat} : ∀ c ∈ blockCells a bs, a ≤ c.1 ∧ c.1 < a + bs.length := by
  induction bs generalizing a with
  | nil => simp [blockCells]
  | cons b t ih =>
    intro c hc
    simp only [blockCells] at hc
    have : ∀ c ∈ blockCells (a + 1) t, a ≤ c.1 ∧ c.1 < a + (b :: t).length := by
      intro x hx
      have := ih x hx
      simp only [List.length_cons]
      omega
    split at hc
    · exact this c hc
    · rcases List.mem_cons.mp hc with rfl | hc
      · simp
      · exact this c hc

theorem cellsWf_block {bs : List Byte} {a : Nat} {sp : List Span}
    (h : ∀ k, a ≤ k → k < a + bs.length → (spanAt sp k).isNone = true) : cellsWf (blockCells a bs) a sp = true := by
  induction bs generalizing a with
  | nil => rfl
  | cons b t ih =>
    have h1 := ih (a := a + 1) (fun k h1 h2 => h k (by omega) (by simp only [List.length_cons]; omega))
    simp only [blockCells]
    split
    · exact cellsWf_mono h1 (by omega)
    · rename_i hb
      simp only [cellsWf, Bool.and_eq_true, decide_eq_true_eq]
      exact ⟨⟨⟨le_refl _, hb⟩, h a (le_refl _) (by simp)⟩, h1⟩

theorem cellsWf_from {l : List Host.Cell} {a m : Nat} {sp : List Span} (h : cellsWf l a sp = true) (hm : ∀ c ∈ l, m ≤ c.1) :
    cellsWf l m sp = true := by
  cases l with
  | nil => rfl
  | cons c t =>
    simp only [cellsWf, Bool.and_eq_true, decide_eq_true_eq] at *
    exact ⟨⟨⟨hm c (by simp), h.1.1.2⟩, h.1.2⟩, h.2⟩

/- The canonical form is kept. -/

theorem wf_iff (m : Memory) : m.wf = true ↔ cellsWf m.cells 0 m.spans = true ∧ spansWf m.spans 0 = true := by
  simp [Memory.wf]

theorem wrBytes_wf {m : Memory} (a : Nat) (bs : List Byte) (h : m.wf = true) : (wrBytes m a bs).wf = true := by
  unfold wrBytes
  split
  · exact h
  · rw [wf_iff] at *
    refine ⟨?_, spansWf_cut (Nat.le_add_right _ _) h.2⟩
    have hs : ∀ k, (spanAt m.spans k).isNone = true → (spanAt (cutSpans m.spans a (a + bs.length)) k).isNone = true :=
      fun k hk => spanAt_cut_none (.inl hk)
    rw [List.append_assoc]
    refine cellsWf_append (m := a) (cellsWf_filter _ (fun k hk _ => hs k hk) h.1) ?_ ?_ (Nat.zero_le _)
    · intro c hc; simpa using (List.mem_filter.mp hc).2
    · refine cellsWf_append (m := a + bs.length) (cellsWf_block (fun k h1 h2 => spanAt_cut_none (.inr ⟨h1, h2⟩))) ?_ ?_ (by omega)
      · exact fun c hc => (blockCells_lt c hc).2
      · refine cellsWf_from (cellsWf_filter _ (fun k hk _ => hs k hk) h.1) ?_
        intro c hc; simpa using (List.mem_filter.mp hc).2

theorem wrZeros_wf {m : Memory} (a n : Nat) (h : m.wf = true) : (wrZeros m a n).wf = true := by
  rw [wf_iff] at *
  refine ⟨?_, spansWf_cut (Nat.le_add_right _ _) h.2⟩
  have hs : ∀ k, (spanAt m.spans k).isNone = true → (spanAt (cutSpans m.spans a (a + n)) k).isNone = true :=
    fun k hk => spanAt_cut_none (.inl hk)
  refine cellsWf_append (m := a) (cellsWf_filter _ (fun k hk _ => hs k hk) h.1) ?_ ?_ (Nat.zero_le _)
  · intro c hc; simpa using (List.mem_filter.mp hc).2
  · refine cellsWf_from (cellsWf_filter _ (fun k hk _ => hs k hk) h.1) ?_
    intro c hc
    have : a + n ≤ c.1 := by simpa using (List.mem_filter.mp hc).2
    omega

theorem mem_addSpan {l : List Span} {x y : Span} (h : x ∈ addSpan l y) : x = y ∨ x ∈ l := by
  induction l with
  | nil => simpa [addSpan] using h
  | cons z t ih =>
    simp only [addSpan] at h
    split at h
    · simpa using h
    · rcases List.mem_cons.mp h with rfl | h
      · exact .inr (by simp)
      · rcases ih h with e | e
        · exact .inl e
        · exact .inr (List.mem_cons_of_mem _ e)

theorem forget_wf {m : Memory} (a n gen : Nat) (h : m.wf = true) : (forget m a n gen).wf = true := by
  unfold forget
  split
  · exact h
  · rename_i hn
    rw [wf_iff] at *
    refine ⟨?_, spansWf_add (spansWf_cut (Nat.le_add_right _ _) h.2) (Nat.zero_le _) (by simp only; omega) (fun x hx => cut_sides hx)⟩
    have hs : ∀ k, (spanAt m.spans k).isNone = true → ¬(a ≤ k ∧ k < a + n) →
        (spanAt (addSpan (cutSpans m.spans a (a + n)) { lo := a, hi := a + n, gen := gen }) k).isNone = true := by
      intro k hk hout
      rw [spanAt_isNone]
      intro x hx hin
      rcases mem_addSpan hx with rfl | hx
      · exact hout hin
      · exact (spanAt_isNone.mp (spanAt_cut_none (l := m.spans) (lo := a) (hi := a + n) (.inl hk))) x hx hin
    refine cellsWf_append (m := a) (cellsWf_filter _ (fun k hk hp => hs k hk ?_) h.1) ?_ ?_ (Nat.zero_le _)
    · obtain ⟨v, hv⟩ := hp
      have : k < a := by simpa using hv
      omega
    · intro c hc; simpa using (List.mem_filter.mp hc).2
    · refine cellsWf_from (cellsWf_filter _ (fun k hk hp => hs k hk ?_) h.1) ?_
      · obtain ⟨v, hv⟩ := hp
        have : a + n ≤ k := by simpa using hv
        omega
      · intro c hc
        have : a + n ≤ c.1 := by simpa using (List.mem_filter.mp hc).2
        omega


/- Reads. -/

theorem cellAt_append {l r : List Host.Cell} {k m : Nat} (hl : ∀ c ∈ l, c.1 < m) (hk : m ≤ k) : cellAt (l ++ r) k = cellAt r k := by
  induction l with
  | nil => rfl
  | cons c t ih =>
    have := hl c (by simp)
    simp only [List.cons_append, cellAt]
    rw [if_neg (by omega)]
    exact ih (fun x hx => hl x (List.mem_cons_of_mem _ hx))

theorem cellAt_none {l : List Host.Cell} {k : Nat} (h : ∀ c ∈ l, c.1 ≠ k) : cellAt l k = unlistedByte := by
  induction l with
  | nil => rfl
  | cons c t ih =>
    simp only [cellAt]
    rw [if_neg (h c (by simp))]
    exact ih (fun x hx => h x (List.mem_cons_of_mem _ hx))

theorem cellAt_append_left {l r : List Host.Cell} {k : Nat} (hr : ∀ c ∈ r, c.1 ≠ k) : cellAt (l ++ r) k = cellAt l k := by
  induction l with
  | nil => exact cellAt_none hr
  | cons c t ih =>
    simp only [List.cons_append, cellAt]
    split
    · rfl
    · exact ih

theorem cellAt_filter {l : List Host.Cell} {k : Nat} {p : Host.Cell → Bool} (h : ∀ v, p (k, v) = true) :
    cellAt (l.filter p) k = cellAt l k := by
  induction l with
  | nil => rfl
  | cons c t ih =>
    obtain ⟨j, v⟩ := c
    simp only [List.filter_cons]
    by_cases e : j = k
    · subst e; rw [if_pos (h v)]; simp [cellAt]
    · split
      · simp [cellAt, e, ih]
      · simp [cellAt, e, ih]

theorem cellAt_block {bs : List Byte} {a i : Nat} (h : i < bs.length) : cellAt (blockCells a bs) (a + i) = bs[i] := by
  induction bs generalizing a i with
  | nil => simp at h
  | cons b t ih =>
    simp only [blockCells]
    cases i with
    | zero =>
      split
      · rename_i hb
        rw [cellAt_none]
        · simp [hb]
        · intro c hc
          have := blockCells_lt c hc
          omega
      · simp [cellAt]
    | succ n =>
      have hn : n < t.length := by simpa using h
      have e : a + (n + 1) = a + 1 + n := by omega
      split
      · rw [e, ih hn]; simp
      · simp only [cellAt]
        rw [if_neg (by omega), e, ih hn]; simp

/-- A read after a write finds the byte that was written (R186). -/
theorem rdByte_wrBytes_in {m : Memory} {a i : Nat} {bs : List Byte} (h : i < bs.length) : rdByte (wrBytes m a bs) (a + i) = bs[i] := by
  unfold wrBytes
  rw [if_neg (by intro e; subst e; simp at h)]
  have hs : spanAt (cutSpans m.spans a (a + bs.length)) (a + i) = none := by
    have := spanAt_cut_none (l := m.spans) (lo := a) (hi := a + bs.length) (k := a + i) (.inr ⟨by omega, by omega⟩)
    simpa using this
  simp only [rdByte, hs]
  rw [List.append_assoc, cellAt_append (m := a), cellAt_append_left]
  · exact cellAt_block h
  · intro c hc
    have : a + bs.length ≤ c.1 := by simpa using (List.mem_filter.mp hc).2
    omega
  · intro c hc; simpa using (List.mem_filter.mp hc).2
  · omega

/-- What covers an address outside a cut is what covered it, with the same draw. -/
theorem spanAt_cut_out {l : List Span} {lo hi k : Nat} (h : k < lo ∨ hi ≤ k) (a : Nat) (hw : spansWf l a = true) :
    (spanAt (cutSpans l lo hi) k).map (·.gen) = (spanAt l k).map (·.gen) := by
  induction l generalizing a with
  | nil => rfl
  | cons x t ih =>
    simp only [spansWf, Bool.and_eq_true, decide_eq_true_eq] at hw
    have e : cutSpans (x :: t) lo hi = cutSpan x lo hi ++ cutSpans t lo hi := by simp [cutSpans]
    have it := ih x.hi hw.2
    rw [e]
    unfold cutSpan
    split <;> split <;> simp only [List.append_nil, List.nil_append, List.cons_append, spanAt] <;> (repeat' split) <;>
      first
      | rfl
      | exact it
      | (exfalso; omega)

/-- A write leaves every byte outside it alone. -/
theorem rdByte_wrBytes_out {m : Memory} {a k : Nat} {bs : List Byte} (hw : m.wf = true) (h : k < a ∨ a + bs.length ≤ k) :
    rdByte (wrBytes m a bs) k = rdByte m k := by
  unfold wrBytes
  split
  · rfl
  · have hg := spanAt_cut_out (l := m.spans) (lo := a) (hi := a + bs.length) h 0 ((wf_iff m).mp hw).2
    have hc : cellAt (m.cells.filter (fun c => decide (c.1 < a)) ++ blockCells a bs ++ m.cells.filter (fun c => decide (a + bs.length ≤ c.1))) k
        = cellAt m.cells k := by
      rcases h with h | h
      · rw [List.append_assoc, cellAt_append_left, cellAt_filter]
        · intro v; simpa using h
        · intro c hc
          rcases List.mem_append.mp hc with hc | hc
          · have := blockCells_lt c hc; omega
          · have : a + bs.length ≤ c.1 := by simpa using (List.mem_filter.mp hc).2
            omega
      · rw [cellAt_append (m := a + bs.length), cellAt_filter]
        · intro v; simpa using h
        · intro c hc
          rcases List.mem_append.mp hc with hc | hc
          · have : c.1 < a := by simpa using (List.mem_filter.mp hc).2
            omega
          · exact (blockCells_lt c hc).2
        · exact h
    rw [List.append_assoc] at hc
    simp only [rdByte, List.append_assoc]
    cases e1 : spanAt (cutSpans m.spans a (a + bs.length)) k <;> cases e2 : spanAt m.spans k <;> rw [e1, e2] at hg <;> simp at hg ⊢
    · exact hc
    · rw [hg]

end Sys2Proof.Machine
end

