-- ==== Sys2Proof/Laws/PerInstr.lean ====
section
/-! SUPPORT. The length of every instruction's encoding (R70, R71), constructor by constructor. -/

namespace Sys2Proof.Laws.Length

open Sys2Proof

/-- What an instruction encodes to, if anything, is three to five parcels of four bytes. -/
def Statement (i : Instr) : Prop := ∀ bs, encode i = some bs → bs.length = 12 ∨ bs.length = 16 ∨ bs.length = 20

theorem leBytes_length (n x : Nat) : (leBytes n x).length = n := by
  induction n generalizing x with
  | zero => rfl
  | succ n ih => simp [leBytes, ih]

theorem litParcels_le (x : Operand) : litParcels x = 0 ∨ litParcels x = 1 ∨ litParcels x = 2 := by
  cases x <;> simp [litParcels]

theorem word_length (c : Opc) (o : Ops) (v : ModVal) (bs : List Byte)
    (h : some (leBytes 12 (wordOf c o v) ++ leBytes (4 * litParcels (litOf o)) (litNat (litOf o))) = some bs) :
    bs.length = 12 ∨ bs.length = 16 ∨ bs.length = 20 := by
  cases h
  rw [List.length_append, leBytes_length, leBytes_length]
  have := litParcels_le (litOf o)
  omega

theorem udf : Statement .udf := by
  intro bs h
  cases h
  exact .inl (leBytes_length 12 0)
theorem nop (o : Ops) : Statement (.nop o) := fun bs h => word_length _ _ _ bs h
theorem br (o : Ops) : Statement (.br o) := fun bs h => word_length _ _ _ bs h
theorem brx (o : Ops) : Statement (.brx o) := fun bs h => word_length _ _ _ bs h
theorem call (o : Ops) : Statement (.call o) := fun bs h => word_length _ _ _ bs h
theorem ret (o : Ops) : Statement (.ret o) := fun bs h => word_length _ _ _ bs h
theorem brdec (o : Ops) : Statement (.brdec o) := fun bs h => word_length _ _ _ bs h
theorem steer (o : Ops) : Statement (.steer o) := fun bs h => word_length _ _ _ bs h
theorem follow (o : Ops) : Statement (.follow o) := fun bs h => word_length _ _ _ bs h
theorem retire (o : Ops) : Statement (.retire o) := fun bs h => word_length _ _ _ bs h
theorem finish (o : Ops) : Statement (.finish o) := fun bs h => word_length _ _ _ bs h
theorem realign (o : Ops) : Statement (.realign o) := fun bs h => word_length _ _ _ bs h
theorem trap (o : Ops) : Statement (.trap o) := fun bs h => word_length _ _ _ bs h
theorem pfx (o : Ops) (m : PfxMod) : Statement (.pfx o m) := fun bs h => word_length _ _ _ bs h
theorem launch (o : Ops) : Statement (.launch o) := fun bs h => word_length _ _ _ bs h
theorem waitc (o : Ops) : Statement (.waitc o) := fun bs h => word_length _ _ _ bs h
theorem waitw (o : Ops) : Statement (.waitw o) := fun bs h => word_length _ _ _ bs h
theorem rdts (o : Ops) : Statement (.rdts o) := fun bs h => word_length _ _ _ bs h
theorem dlset (o : Ops) (m : SlotMod) : Statement (.dlset o m) := fun bs h => word_length _ _ _ bs h
theorem dltest (o : Ops) (m : TestMod) : Statement (.dltest o m) := fun bs h => word_length _ _ _ bs h
theorem dlwait (o : Ops) (m : Trio) : Statement (.dlwait o m) := fun bs h => word_length _ _ _ bs h
theorem add (o : Ops) (m : AluMod) : Statement (.add o m) := fun bs h => word_length _ _ _ bs h
theorem sub (o : Ops) (m : AluMod) : Statement (.sub o m) := fun bs h => word_length _ _ _ bs h
theorem mul (o : Ops) (m : AluMod) : Statement (.mul o m) := fun bs h => word_length _ _ _ bs h
theorem mulh (o : Ops) (m : AluMod) : Statement (.mulh o m) := fun bs h => word_length _ _ _ bs h
theorem div (o : Ops) (m : AluMod) : Statement (.div o m) := fun bs h => word_length _ _ _ bs h
theorem rem (o : Ops) (m : AluMod) : Statement (.rem o m) := fun bs h => word_length _ _ _ bs h
theorem and (o : Ops) (m : AluMod) : Statement (.and o m) := fun bs h => word_length _ _ _ bs h
theorem or (o : Ops) (m : AluMod) : Statement (.or o m) := fun bs h => word_length _ _ _ bs h
theorem xor (o : Ops) (m : AluMod) : Statement (.xor o m) := fun bs h => word_length _ _ _ bs h
theorem andn (o : Ops) (m : AluMod) : Statement (.andn o m) := fun bs h => word_length _ _ _ bs h
theorem shl (o : Ops) (m : AluMod) : Statement (.shl o m) := fun bs h => word_length _ _ _ bs h
theorem shr (o : Ops) (m : AluMod) : Statement (.shr o m) := fun bs h => word_length _ _ _ bs h
theorem sar (o : Ops) (m : AluMod) : Statement (.sar o m) := fun bs h => word_length _ _ _ bs h
theorem rot (o : Ops) (m : AluMod) : Statement (.rot o m) := fun bs h => word_length _ _ _ bs h
theorem min (o : Ops) (m : AluMod) : Statement (.min o m) := fun bs h => word_length _ _ _ bs h
theorem max (o : Ops) (m : AluMod) : Statement (.max o m) := fun bs h => word_length _ _ _ bs h
theorem clz (o : Ops) (m : AluMod) : Statement (.clz o m) := fun bs h => word_length _ _ _ bs h
theorem ctz (o : Ops) (m : AluMod) : Statement (.ctz o m) := fun bs h => word_length _ _ _ bs h
theorem popc (o : Ops) (m : AluMod) : Statement (.popc o m) := fun bs h => word_length _ _ _ bs h
theorem bfx (o : Ops) (m : BitMod) : Statement (.bfx o m) := fun bs h => word_length _ _ _ bs h
theorem bfi (o : Ops) (m : BitMod) : Statement (.bfi o m) := fun bs h => word_length _ _ _ bs h
theorem sext (o : Ops) (m : SwidMod) : Statement (.sext o m) := fun bs h => word_length _ _ _ bs h
theorem zext (o : Ops) (m : SwidMod) : Statement (.zext o m) := fun bs h => word_length _ _ _ bs h
theorem mov (o : Ops) : Statement (.mov o) := fun bs h => word_length _ _ _ bs h
theorem sel (o : Ops) : Statement (.sel o) := fun bs h => word_length _ _ _ bs h
theorem abs (o : Ops) (m : AluMod) : Statement (.abs o m) := fun bs h => word_length _ _ _ bs h
theorem lea (o : Ops) (m : ScaleMod) : Statement (.lea o m) := fun bs h => word_length _ _ _ bs h
theorem brev (o : Ops) (m : AluMod) : Statement (.brev o m) := fun bs h => word_length _ _ _ bs h
theorem bswap (o : Ops) (m : AluMod) : Statement (.bswap o m) := fun bs h => word_length _ _ _ bs h
theorem mfx (o : Ops) : Statement (.mfx o) := fun bs h => word_length _ _ _ bs h
theorem mtx (o : Ops) : Statement (.mtx o) := fun bs h => word_length _ _ _ bs h
theorem cmp (o : Ops) (m : CmpMod) : Statement (.cmp o m) := fun bs h => word_length _ _ _ bs h
theorem tst (o : Ops) (m : CmpMod) : Statement (.tst o m) := fun bs h => word_length _ _ _ bs h
theorem pand (o : Ops) : Statement (.pand o) := fun bs h => word_length _ _ _ bs h
theorem por (o : Ops) : Statement (.por o) := fun bs h => word_length _ _ _ bs h
theorem pxor (o : Ops) : Statement (.pxor o) := fun bs h => word_length _ _ _ bs h
theorem pnot (o : Ops) : Statement (.pnot o) := fun bs h => word_length _ _ _ bs h
theorem pmov (o : Ops) : Statement (.pmov o) := fun bs h => word_length _ _ _ bs h
theorem ptos (o : Ops) : Statement (.ptos o) := fun bs h => word_length _ _ _ bs h
theorem lds (o : Ops) (m : MemMod) : Statement (.lds o m) := fun bs h => word_length _ _ _ bs h
theorem sts (o : Ops) (m : MemMod) : Statement (.sts o m) := fun bs h => word_length _ _ _ bs h
theorem ldv (o : Ops) (m : MemMod) : Statement (.ldv o m) := fun bs h => word_length _ _ _ bs h
theorem stv (o : Ops) (m : MemMod) : Statement (.stv o m) := fun bs h => word_length _ _ _ bs h
theorem vlds (o : Ops) (m : MemMod) : Statement (.vlds o m) := fun bs h => word_length _ _ _ bs h
theorem vsts (o : Ops) (m : MemMod) : Statement (.vsts o m) := fun bs h => word_length _ _ _ bs h
theorem vldv (o : Ops) (m : MemMod) : Statement (.vldv o m) := fun bs h => word_length _ _ _ bs h
theorem vstv (o : Ops) (m : MemMod) : Statement (.vstv o m) := fun bs h => word_length _ _ _ bs h
theorem ldx (o : Ops) (m : MemMod) : Statement (.ldx o m) := fun bs h => word_length _ _ _ bs h
theorem stx (o : Ops) (m : MemMod) : Statement (.stx o m) := fun bs h => word_length _ _ _ bs h
theorem feget (o : Ops) : Statement (.feget o) := fun bs h => word_length _ _ _ bs h
theorem feset (o : Ops) : Statement (.feset o) := fun bs h => word_length _ _ _ bs h
theorem vgath (o : Ops) (m : MemMod) : Statement (.vgath o m) := fun bs h => word_length _ _ _ bs h
theorem vscat (o : Ops) (m : MemMod) : Statement (.vscat o m) := fun bs h => word_length _ _ _ bs h
theorem ldg (o : Ops) (m : MemMod) : Statement (.ldg o m) := fun bs h => word_length _ _ _ bs h
theorem stg (o : Ops) (m : MemMod) : Statement (.stg o m) := fun bs h => word_length _ _ _ bs h
theorem vldg (o : Ops) (m : MemMod) : Statement (.vldg o m) := fun bs h => word_length _ _ _ bs h
theorem vstg (o : Ops) (m : MemMod) : Statement (.vstg o m) := fun bs h => word_length _ _ _ bs h
theorem rld (o : Ops) (m : MemMod) : Statement (.rld o m) := fun bs h => word_length _ _ _ bs h
theorem rst (o : Ops) (m : RstMod) : Statement (.rst o m) := fun bs h => word_length _ _ _ bs h
theorem tabwait (o : Ops) (m : Trio) : Statement (.tabwait o m) := fun bs h => word_length _ _ _ bs h
theorem tabtest (o : Ops) (m : PredMod) : Statement (.tabtest o m) := fun bs h => word_length _ _ _ bs h
theorem pref (o : Ops) : Statement (.pref o) := fun bs h => word_length _ _ _ bs h
theorem aadd (o : Ops) (m : AtomMod) : Statement (.aadd o m) := fun bs h => word_length _ _ _ bs h
theorem amin (o : Ops) (m : AtomMod) : Statement (.amin o m) := fun bs h => word_length _ _ _ bs h
theorem amax (o : Ops) (m : AtomMod) : Statement (.amax o m) := fun bs h => word_length _ _ _ bs h
theorem aand (o : Ops) (m : AtomMod) : Statement (.aand o m) := fun bs h => word_length _ _ _ bs h
theorem aor (o : Ops) (m : AtomMod) : Statement (.aor o m) := fun bs h => word_length _ _ _ bs h
theorem axor (o : Ops) (m : AtomMod) : Statement (.axor o m) := fun bs h => word_length _ _ _ bs h
theorem axchg (o : Ops) (m : AtomMod) : Statement (.axchg o m) := fun bs h => word_length _ _ _ bs h
theorem acas (o : Ops) (m : AtomMod) : Statement (.acas o m) := fun bs h => word_length _ _ _ bs h
theorem afadd (o : Ops) (m : AtomMod) : Statement (.afadd o m) := fun bs h => word_length _ _ _ bs h
theorem aredv (o : Ops) (m : AtomMod) : Statement (.aredv o m) := fun bs h => word_length _ _ _ bs h
theorem areg (o : Ops) : Statement (.areg o) := fun bs h => word_length _ _ _ bs h
theorem acommit (o : Ops) (m : PredMod) : Statement (.acommit o m) := fun bs h => word_length _ _ _ bs h
theorem aabort (o : Ops) : Statement (.aabort o) := fun bs h => word_length _ _ _ bs h
theorem tspawn (o : Ops) : Statement (.tspawn o) := fun bs h => word_length _ _ _ bs h
theorem fence (o : Ops) (m : FenceMod) : Statement (.fence o m) := fun bs h => word_length _ _ _ bs h
theorem hbar (o : Ops) (m : ShapeTrio) : Statement (.hbar o m) := fun bs h => word_length _ _ _ bs h
theorem hbara (o : Ops) (m : ShapeMod) : Statement (.hbara o m) := fun bs h => word_length _ _ _ bs h
theorem hbarw (o : Ops) (m : ShapeTrio) : Statement (.hbarw o m) := fun bs h => word_length _ _ _ bs h
theorem abarm (o : Ops) : Statement (.abarm o) := fun bs h => word_length _ _ _ bs h
theorem abwait (o : Ops) (m : Trio) : Statement (.abwait o m) := fun bs h => word_length _ _ _ bs h
theorem abtest (o : Ops) (m : PredMod) : Statement (.abtest o m) := fun bs h => word_length _ _ _ bs h
theorem fewait (o : Ops) (m : WantTrio) : Statement (.fewait o m) := fun bs h => word_length _ _ _ bs h
theorem wmark (o : Ops) : Statement (.wmark o) := fun bs h => word_length _ _ _ bs h
theorem cpy (o : Ops) (m : CopyMod) : Statement (.cpy o m) := fun bs h => word_length _ _ _ bs h
theorem cpy2 (o : Ops) (m : CopyMod) : Statement (.cpy2 o m) := fun bs h => word_length _ _ _ bs h
theorem tmaps (o : Ops) : Statement (.tmaps o) := fun bs h => word_length _ _ _ bs h
theorem cpyt (o : Ops) (m : CopyMod) : Statement (.cpyt o m) := fun bs h => word_length _ _ _ bs h
theorem send (o : Ops) (m : Trio) : Statement (.send o m) := fun bs h => word_length _ _ _ bs h
theorem sends (o : Ops) (m : Trio) : Statement (.sends o m) := fun bs h => word_length _ _ _ bs h
theorem mcast (o : Ops) (m : CopyMod) : Statement (.mcast o m) := fun bs h => word_length _ _ _ bs h
theorem netpost (o : Ops) : Statement (.netpost o) := fun bs h => word_length _ _ _ bs h
theorem netpoll (o : Ops) (m : Trio) : Statement (.netpoll o m) := fun bs h => word_length _ _ _ bs h
theorem pce (o : Ops) (m : CopyMod) : Statement (.pce o m) := fun bs h => word_length _ _ _ bs h
theorem vadd (o : Ops) (m : VecMod) : Statement (.vadd o m) := fun bs h => word_length _ _ _ bs h
theorem vsub (o : Ops) (m : VecMod) : Statement (.vsub o m) := fun bs h => word_length _ _ _ bs h
theorem vmul (o : Ops) (m : VecMod) : Statement (.vmul o m) := fun bs h => word_length _ _ _ bs h
theorem vfma (o : Ops) (m : VecMod) : Statement (.vfma o m) := fun bs h => word_length _ _ _ bs h
theorem vmin (o : Ops) (m : VecMod) : Statement (.vmin o m) := fun bs h => word_length _ _ _ bs h
theorem vmax (o : Ops) (m : VecMod) : Statement (.vmax o m) := fun bs h => word_length _ _ _ bs h
theorem vabs (o : Ops) (m : VecMod) : Statement (.vabs o m) := fun bs h => word_length _ _ _ bs h
theorem vneg (o : Ops) (m : VecMod) : Statement (.vneg o m) := fun bs h => word_length _ _ _ bs h
theorem vand (o : Ops) (m : VecMod) : Statement (.vand o m) := fun bs h => word_length _ _ _ bs h
theorem vor (o : Ops) (m : VecMod) : Statement (.vor o m) := fun bs h => word_length _ _ _ bs h
theorem vxor (o : Ops) (m : VecMod) : Statement (.vxor o m) := fun bs h => word_length _ _ _ bs h
theorem vshl (o : Ops) (m : VecMod) : Statement (.vshl o m) := fun bs h => word_length _ _ _ bs h
theorem vshr (o : Ops) (m : VecMod) : Statement (.vshr o m) := fun bs h => word_length _ _ _ bs h
theorem vcmp (o : Ops) (m : VecMod) : Statement (.vcmp o m) := fun bs h => word_length _ _ _ bs h
theorem vsel (o : Ops) (m : VecMod) : Statement (.vsel o m) := fun bs h => word_length _ _ _ bs h
theorem vdot4 (o : Ops) (m : VecMod) : Statement (.vdot4 o m) := fun bs h => word_length _ _ _ bs h
theorem vrcp (o : Ops) (m : VecMod) : Statement (.vrcp o m) := fun bs h => word_length _ _ _ bs h
theorem vrsq (o : Ops) (m : VecMod) : Statement (.vrsq o m) := fun bs h => word_length _ _ _ bs h
theorem vexp2 (o : Ops) (m : VecMod) : Statement (.vexp2 o m) := fun bs h => word_length _ _ _ bs h
theorem vlog2 (o : Ops) (m : VecMod) : Statement (.vlog2 o m) := fun bs h => word_length _ _ _ bs h
theorem vscale (o : Ops) (m : VecMod) : Statement (.vscale o m) := fun bs h => word_length _ _ _ bs h
theorem vredadd (o : Ops) (m : VecMod) : Statement (.vredadd o m) := fun bs h => word_length _ _ _ bs h
theorem vredmax (o : Ops) (m : VecMod) : Statement (.vredmax o m) := fun bs h => word_length _ _ _ bs h
theorem vredmin (o : Ops) (m : VecMod) : Statement (.vredmin o m) := fun bs h => word_length _ _ _ bs h
theorem vargmax (o : Ops) (m : VecMod) : Statement (.vargmax o m) := fun bs h => word_length _ _ _ bs h
theorem vargmin (o : Ops) (m : VecMod) : Statement (.vargmin o m) := fun bs h => word_length _ _ _ bs h
theorem vperm (o : Ops) (m : VecMod) : Statement (.vperm o m) := fun bs h => word_length _ _ _ bs h
theorem vbcast (o : Ops) (m : VecMod) : Statement (.vbcast o m) := fun bs h => word_length _ _ _ bs h
theorem vrot (o : Ops) (m : VecMod) : Statement (.vrot o m) := fun bs h => word_length _ _ _ bs h
theorem viota (o : Ops) (m : VecMod) : Statement (.viota o m) := fun bs h => word_length _ _ _ bs h
theorem vmovsGet (o : Ops) (m : VecMod) : Statement (.vmovsGet o m) := fun bs h => word_length _ _ _ bs h
theorem vmovsPut (o : Ops) (m : VecMod) : Statement (.vmovsPut o m) := fun bs h => word_length _ _ _ bs h
theorem vclamp (o : Ops) (m : VecMod) : Statement (.vclamp o m) := fun bs h => word_length _ _ _ bs h
theorem vcvt (o : Ops) (m : VecMod) : Statement (.vcvt o m) := fun bs h => word_length _ _ _ bs h
theorem vquant (o : Ops) (m : VecMod) : Statement (.vquant o m) := fun bs h => word_length _ _ _ bs h
theorem vdeq (o : Ops) (m : VecMod) : Statement (.vdeq o m) := fun bs h => word_length _ _ _ bs h
theorem vrand (o : Ops) : Statement (.vrand o) := fun bs h => word_length _ _ _ bs h
theorem vpln (o : Ops) (m : VecMod) : Statement (.vpln o m) := fun bs h => word_length _ _ _ bs h
theorem vunpln (o : Ops) (m : VecMod) : Statement (.vunpln o m) := fun bs h => word_length _ _ _ bs h
theorem padd (o : Ops) (m : VecMod) : Statement (.padd o m) := fun bs h => word_length _ _ _ bs h
theorem psub (o : Ops) (m : VecMod) : Statement (.psub o m) := fun bs h => word_length _ _ _ bs h
theorem pmul (o : Ops) (m : VecMod) : Statement (.pmul o m) := fun bs h => word_length _ _ _ bs h
theorem pcmp (o : Ops) (m : VecMod) : Statement (.pcmp o m) := fun bs h => word_length _ _ _ bs h
theorem gang (o : Ops) : Statement (.gang o) := fun bs h => word_length _ _ _ bs h
theorem mma (o : Ops) (m : MatMod) : Statement (.mma o m) := fun bs h => word_length _ _ _ bs h
theorem mmaz (o : Ops) (m : MatMod) : Statement (.mmaz o m) := fun bs h => word_length _ _ _ bs h
theorem mmas (o : Ops) (m : MatMod) : Statement (.mmas o m) := fun bs h => word_length _ _ _ bs h
theorem mzero (o : Ops) : Statement (.mzero o) := fun bs h => word_length _ _ _ bs h
theorem mdrain (o : Ops) : Statement (.mdrain o) := fun bs h => word_length _ _ _ bs h
theorem mwait (o : Ops) : Statement (.mwait o) := fun bs h => word_length _ _ _ bs h
theorem sclsend (o : Ops) : Statement (.sclsend o) := fun bs h => word_length _ _ _ bs h
theorem syscall (o : Ops) : Statement (.syscall o) := fun bs h => word_length _ _ _ bs h
theorem tret (o : Ops) : Statement (.tret o) := fun bs h => word_length _ _ _ bs h
theorem ctxsv (o : Ops) : Statement (.ctxsv o) := fun bs h => word_length _ _ _ bs h
theorem ctxld (o : Ops) : Statement (.ctxld o) := fun bs h => word_length _ _ _ bs h
theorem gauge (o : Ops) : Statement (.gauge o) := fun bs h => word_length _ _ _ bs h
theorem gread (o : Ops) : Statement (.gread o) := fun bs h => word_length _ _ _ bs h
theorem tmark (o : Ops) : Statement (.tmark o) := fun bs h => word_length _ _ _ bs h
theorem idle (o : Ops) : Statement (.idle o) := fun bs h => word_length _ _ _ bs h
theorem faultrpt (o : Ops) : Statement (.faultrpt o) := fun bs h => word_length _ _ _ bs h
theorem supstep (o : Ops) : Statement (.supstep o) := fun bs h => word_length _ _ _ bs h
theorem doorbell (ctx : Nat) : Statement (.doorbell ctx) := fun _ h => nomatch h
theorem rackLaunchPacket (endpoint : Nat) (packet : List Byte) : Statement (.rackLaunchPacket endpoint packet) := fun _ h => nomatch h
theorem dispatcherTakePacket : Statement .dispatcherTakePacket := fun _ h => nomatch h
theorem prereqRecheck (gid : Nat) : Statement (.prereqRecheck gid) := fun _ h => nomatch h
theorem bindTask (gid : Nat) (task : Nat) : Statement (.bindTask gid task) := fun _ h => nomatch h
theorem loadingDone (core : Nat) (berth : BitVec 2) : Statement (.loadingDone core berth) := fun _ h => nomatch h
theorem stopBerth (core : Nat) (berth : BitVec 2) : Statement (.stopBerth core berth) := fun _ h => nomatch h
theorem berthFree (core : Nat) (berth : BitVec 2) : Statement (.berthFree core berth) := fun _ h => nomatch h
theorem priorityAging (gid : Nat) (task : Nat) : Statement (.priorityAging gid task) := fun _ h => nomatch h
theorem berthPriorityRaise (core : Nat) (berth : BitVec 2) : Statement (.berthPriorityRaise core berth) := fun _ h => nomatch h
theorem preempt (gid : Nat) (task : Nat) : Statement (.preempt gid task) := fun _ h => nomatch h
theorem migrate (core : Nat) (berth : BitVec 2) : Statement (.migrate core berth) := fun _ h => nomatch h
theorem contextSave (core : Nat) (berth : BitVec 2) : Statement (.contextSave core berth) := fun _ h => nomatch h
theorem restore (gid : Nat) (task : Nat) : Statement (.restore gid task) := fun _ h => nomatch h
theorem messageForward (k : Nat) : Statement (.messageForward k) := fun _ h => nomatch h
theorem graphComplete (gid : Nat) : Statement (.graphComplete gid) := fun _ h => nomatch h
theorem completionRecord (gid : Nat) : Statement (.completionRecord gid) := fun _ h => nomatch h
theorem fetchLineServed (cluster : Nat) : Statement (.fetchLineServed cluster) := fun _ h => nomatch h
theorem activationStart (core : Nat) : Statement (.activationStart core) := fun _ h => nomatch h
theorem activationEnd (core : Nat) : Statement (.activationEnd core) := fun _ h => nomatch h
theorem messageArrival (k : Nat) : Statement (.messageArrival k) := fun _ h => nomatch h
theorem parkDelivery (place : ParkAt) (k : Nat) : Statement (.parkDelivery place k) := fun _ h => nomatch h
theorem parkDiscard (place : ParkAt) (k : Nat) : Statement (.parkDiscard place k) := fun _ h => nomatch h
theorem windowMarkArrival (k : Nat) : Statement (.windowMarkArrival k) := fun _ h => nomatch h
theorem handlerRewrite (core : Nat) (berth : BitVec 2) (idx : BitVec 4) (entry : W64) : Statement (.handlerRewrite core berth idx entry) := fun _ h => nomatch h
theorem queueDeadlock (core : Nat) : Statement (.queueDeadlock core) := fun _ h => nomatch h
theorem waitConditionMet (core : Nat) (pilot : Bool) : Statement (.waitConditionMet core pilot) := fun _ h => nomatch h
theorem timedWaitTimeout (core : Nat) (pilot : Bool) : Statement (.timedWaitTimeout core pilot) := fun _ h => nomatch h
theorem waitCountExpiry (core : Nat) (pilot : Bool) : Statement (.waitCountExpiry core pilot) := fun _ h => nomatch h
theorem realignRelease (core : Nat) (pilot : Bool) : Statement (.realignRelease core pilot) := fun _ h => nomatch h
theorem idleWake (core : Nat) : Statement (.idleWake core) := fun _ h => nomatch h
theorem deadlineFire (core : Nat) (slot : BitVec 2) : Statement (.deadlineFire core slot) := fun _ h => nomatch h
theorem ratioWindowComplete (cluster : Nat) : Statement (.ratioWindowComplete cluster) := fun _ h => nomatch h
theorem gearStopStart (pair : Nat) : Statement (.gearStopStart pair) := fun _ h => nomatch h
theorem gearStopEnd (pair : Nat) : Statement (.gearStopEnd pair) := fun _ h => nomatch h
theorem gearStop (pair : Nat) : Statement (.gearStop pair) := fun _ h => nomatch h
theorem substationTick (currents : List (Nat × Nat × Nat)) (railMV : Nat) : Statement (.substationTick currents railMV) := fun _ h => nomatch h
theorem layerImbalance (pair : Nat) : Statement (.layerImbalance pair) := fun _ h => nomatch h
theorem thermalRequestStep : Statement .thermalRequestStep := fun _ h => nomatch h
theorem thermalTrip (cluster : Nat) : Statement (.thermalTrip cluster) := fun _ h => nomatch h
theorem slackReading (tenths : Int) : Statement (.slackReading tenths) := fun _ h => nomatch h
theorem supplyOutOfBand : Statement .supplyOutOfBand := fun _ h => nomatch h
theorem brownoutReset : Statement .brownoutReset := fun _ h => nomatch h
theorem asyncEventArrival (k : Nat) : Statement (.asyncEventArrival k) := fun _ h => nomatch h
theorem asyncEventTaken (core : Nat) : Statement (.asyncEventTaken core) := fun _ h => nomatch h
theorem storeLanding (k : Nat) : Statement (.storeLanding k) := fun _ h => nomatch h
theorem go (station : Nat) : Statement (.go station) := fun _ h => nomatch h
theorem all : Statement .all := fun _ h => nomatch h
theorem igo (station : Nat) : Statement (.igo station) := fun _ h => nomatch h
theorem invalidationDone : Statement .invalidationDone := fun _ h => nomatch h
theorem chunkLanding (copy : Nat) (chunk : Nat) : Statement (.chunkLanding copy chunk) := fun _ h => nomatch h
theorem copyFaultParked (copy : Nat) (chunk : Nat) : Statement (.copyFaultParked copy chunk) := fun _ h => nomatch h
theorem copyFailed (copy : Nat) (chunk : Nat) : Statement (.copyFailed copy chunk) := fun _ h => nomatch h
theorem vectorComplete (core : Nat) : Statement (.vectorComplete core) := fun _ h => nomatch h
theorem matrixProductStart (core : Nat) : Statement (.matrixProductStart core) := fun _ h => nomatch h
theorem matrixComplete (core : Nat) : Statement (.matrixComplete core) := fun _ h => nomatch h
theorem gangFormed (core : Nat) : Statement (.gangFormed core) := fun _ h => nomatch h
theorem gangJoinTimeout (core : Nat) : Statement (.gangJoinTimeout core) := fun _ h => nomatch h
theorem gangProductStart (core : Nat) : Statement (.gangProductStart core) := fun _ h => nomatch h
theorem gangTimeout (core : Nat) : Statement (.gangTimeout core) := fun _ h => nomatch h
theorem scaleDelivery (core : Nat) (k : Nat) : Statement (.scaleDelivery core k) := fun _ h => nomatch h
theorem scaleMissing (core : Nat) : Statement (.scaleMissing core) := fun _ h => nomatch h
theorem hbarPhaseComplete (core : Nat) (berth : BitVec 2) (shape : Shape) : Statement (.hbarPhaseComplete core berth shape) := fun _ h => nomatch h
theorem atomicPerform (k : Nat) : Statement (.atomicPerform k) := fun _ h => nomatch h
theorem predictorQuiet (cluster : Nat) (line : Nat) : Statement (.predictorQuiet cluster line) := fun _ h => nomatch h
theorem commit (core : Nat) : Statement (.commit core) := fun _ h => nomatch h
theorem heldMessageSend (core : Nat) : Statement (.heldMessageSend core) := fun _ h => nomatch h
theorem regionTimeout (core : Nat) : Statement (.regionTimeout core) := fun _ h => nomatch h
theorem irrevocableRestart (core : Nat) : Statement (.irrevocableRestart core) := fun _ h => nomatch h
theorem orderedTaskStart (gid : Nat) (spawn : Nat) (core : Nat) (berth : BitVec 2) : Statement (.orderedTaskStart gid spawn core berth) := fun _ h => nomatch h
theorem orderedTaskCommit (gid : Nat) : Statement (.orderedTaskCommit gid) := fun _ h => nomatch h
theorem laneFailure (port : Nat) (lanes : Nat) : Statement (.laneFailure port lanes) := fun _ h => nomatch h
theorem linkRetrained (port : Nat) : Statement (.linkRetrained port) := fun _ h => nomatch h
theorem linkDown (port : Nat) : Statement (.linkDown port) := fun _ h => nomatch h
theorem flitCheckFail (port : Nat) : Statement (.flitCheckFail port) := fun _ h => nomatch h
theorem maxw (port : Nat) (value : BitVec 2) : Statement (.maxw port value) := fun _ h => nomatch h
theorem plannedWidthChange (port : Nat) : Statement (.plannedWidthChange port) := fun _ h => nomatch h
theorem packetForward (port : Nat) (p : Pkt) : Statement (.packetForward port p) := fun _ h => nomatch h
theorem packetReceive (p : Pkt) : Statement (.packetReceive p) := fun _ h => nomatch h
theorem ackReceive (dev : Nat) (seq : BitVec 24) : Statement (.ackReceive dev seq) := fun _ h => nomatch h
theorem retransmitTimer (dev : Nat) (seq : BitVec 24) : Statement (.retransmitTimer dev seq) := fun _ h => nomatch h
theorem contextClose (dev : Nat) : Statement (.contextClose dev) := fun _ h => nomatch h
theorem remoteOutcomeUnknown (dev : Nat) : Statement (.remoteOutcomeUnknown dev) := fun _ h => nomatch h
theorem reachabilityProbe (dev : Nat) : Statement (.reachabilityProbe dev) := fun _ h => nomatch h
theorem remoteReply (op : Nat) (r : Reply) : Statement (.remoteReply op r) := fun _ h => nomatch h
theorem retryListTimeout (station : Nat) (k : Nat) : Statement (.retryListTimeout station k) := fun _ h => nomatch h
theorem cancel (src : Nat) (op : Nat) : Statement (.cancel src op) := fun _ h => nomatch h
theorem hold (src : Nat) (tab : BitVec 32) : Statement (.hold src tab) := fun _ h => nomatch h
theorem clear (tab : BitVec 32) : Statement (.clear tab) := fun _ h => nomatch h
theorem clearAck (src : Nat) (idx : Nat) : Statement (.clearAck src idx) := fun _ h => nomatch h
theorem drop (tab : BitVec 32) : Statement (.drop tab) := fun _ h => nomatch h
theorem query (src : Nat) (tab : BitVec 32) : Statement (.query src tab) := fun _ h => nomatch h
theorem sidingExpiry (k : Nat) : Statement (.sidingExpiry k) := fun _ h => nomatch h
theorem expired (op : Nat) (tab : BitVec 32) (holder : Nat) (reason : Nat) (addr : W64) : Statement (.expired op tab holder reason addr) := fun _ h => nomatch h
theorem deadEntryFree (idx : Nat) : Statement (.deadEntryFree idx) := fun _ h => nomatch h
theorem tabletRackFull (core : Nat) (pilot : Bool) : Statement (.tabletRackFull core pilot) := fun _ h => nomatch h
theorem workRequestComplete (k : Nat) (r : NetResult) : Statement (.workRequestComplete k r) := fun _ h => nomatch h
theorem windowPlacement (win : Nat) (key : BitVec 32) (ofs : Nat) (bytes : List Byte) : Statement (.windowPlacement win key ofs bytes) := fun _ h => nomatch h
theorem tableRefreshEntry : Statement .tableRefreshEntry := fun _ h => nomatch h
theorem tableRefreshAll : Statement .tableRefreshAll := fun _ h => nomatch h
theorem tableRefreshDone : Statement .tableRefreshDone := fun _ h => nomatch h
theorem cxlMemWrite (lpddr : Bool) (addr : Nat) (bytes : List Byte) : Statement (.cxlMemWrite lpddr addr bytes) := fun _ h => nomatch h
theorem cxlMemRead (lpddr : Bool) (addr : Nat) (len : Nat) : Statement (.cxlMemRead lpddr addr len) := fun _ h => nomatch h
theorem getparam : Statement .getparam := fun _ h => nomatch h
theorem setparam : Statement .setparam := fun _ h => nomatch h
theorem dstop : Statement .dstop := fun _ h => nomatch h
theorem dsave : Statement .dsave := fun _ h => nomatch h
theorem dgo : Statement .dgo := fun _ h => nomatch h
theorem rackallow : Statement .rackallow := fun _ h => nomatch h
theorem reset : Statement .reset := fun _ h => nomatch h
theorem fwload : Statement .fwload := fun _ h => nomatch h
theorem measure : Statement .measure := fun _ h => nomatch h
theorem powerOnReset : Statement .powerOnReset := fun _ h => nomatch h
theorem cxlHotReset : Statement .cxlHotReset := fun _ h => nomatch h
theorem cxlFlr : Statement .cxlFlr := fun _ h => nomatch h
theorem watchdog : Statement .watchdog := fun _ h => nomatch h
theorem dispatcherReport : Statement .dispatcherReport := fun _ h => nomatch h
theorem fatalErrorReset (code : Nat) : Statement (.fatalErrorReset code) := fun _ h => nomatch h
theorem bootPhaseAdvance : Statement .bootPhaseAdvance := fun _ h => nomatch h
theorem getVersion (req : List Byte) : Statement (.getVersion req) := fun _ h => nomatch h
theorem getCapabilities (req : List Byte) : Statement (.getCapabilities req) := fun _ h => nomatch h
theorem negotiateAlgorithms (req : List Byte) : Statement (.negotiateAlgorithms req) := fun _ h => nomatch h
theorem getDigests (req : List Byte) : Statement (.getDigests req) := fun _ h => nomatch h
theorem getCertificate (req : List Byte) : Statement (.getCertificate req) := fun _ h => nomatch h
theorem challenge (req : List Byte) : Statement (.challenge req) := fun _ h => nomatch h
theorem getMeasurements (req : List Byte) : Statement (.getMeasurements req) := fun _ h => nomatch h
theorem telemetryRefresh (temps : List (Nat × Int)) : Statement (.telemetryRefresh temps) := fun _ h => nomatch h
theorem gaugeSample (core : Option Nat) (idx : Nat) (value : Nat) : Statement (.gaugeSample core idx value) := fun _ h => nomatch h
theorem sampleMark (core : Nat) (pilot : Bool) : Statement (.sampleMark core pilot) := fun _ h => nomatch h
theorem sampleRecord (core : Nat) (pilot : Bool) (times : List Nat) (flags : BitVec 8) : Statement (.sampleRecord core pilot times flags) := fun _ h => nomatch h
theorem registerWrite (bar : Nat) (offset : Nat) (size : Nat) (value : W64) : Statement (.registerWrite bar offset size value) := fun _ h => nomatch h
theorem loadDataWritten (core : Nat) (pilot : Bool) : Statement (.loadDataWritten core pilot) := fun _ h => nomatch h
theorem lastSequenceExpiry (dev : Nat) : Statement (.lastSequenceExpiry dev) := fun _ h => nomatch h
theorem peerRead (win : Nat) (key : BitVec 32) (ofs : Nat) (len : Nat) : Statement (.peerRead win key ofs len) := fun _ h => nomatch h

end Sys2Proof.Laws.Length
end

