-- ==== Sys2Proof/Laws/State.lean ====
section
/-! SUPPORT. What each update of the state leaves as it was, field by field, and what a read of a unit finds after it. -/

namespace Sys2Proof.Machine

variable (s : State)

@[simp] theorem setCore_mem (c : Nat) (x : Core) : (setCore s c x).mem = s.mem := rfl
@[simp] theorem setCore_fe (c : Nat) (x : Core) : (setCore s c x).fe = s.fe := rfl
@[simp] theorem setCore_bad (c : Nat) (x : Core) : (setCore s c x).bad = s.bad := rfl
@[simp] theorem setCore_wall (c : Nat) (x : Core) : (setCore s c x).wall = s.wall := rfl
@[simp] theorem setCore_absent (c : Nat) (x : Core) : (setCore s c x).absent = s.absent := rfl
@[simp] theorem setCore_clusters (c : Nat) (x : Core) : (setCore s c x).clusters = s.clusters := rfl
@[simp] theorem setCore_pairs (c : Nat) (x : Core) : (setCore s c x).pairs = s.pairs := rfl
@[simp] theorem setCore_stations (c : Nat) (x : Core) : (setCore s c x).stations = s.stations := rfl
@[simp] theorem setCore_ctxs (c : Nat) (x : Core) : (setCore s c x).ctxs = s.ctxs := rfl
@[simp] theorem setCore_quadMove (c : Nat) (x : Core) : (setCore s c x).quadMove = s.quadMove := rfl
@[simp] theorem setCore_lastCtx (c : Nat) (x : Core) : (setCore s c x).lastCtx = s.lastCtx := rfl
@[simp] theorem setCore_graphs (c : Nat) (x : Core) : (setCore s c x).graphs = s.graphs := rfl
@[simp] theorem setCore_posted (c : Nat) (x : Core) : (setCore s c x).posted = s.posted := rfl
@[simp] theorem setCore_copies (c : Nat) (x : Core) : (setCore s c x).copies = s.copies := rfl
@[simp] theorem setCore_copyNext (c : Nat) (x : Core) : (setCore s c x).copyNext = s.copyNext := rfl
@[simp] theorem setCore_transit (c : Nat) (x : Core) : (setCore s c x).transit = s.transit := rfl
@[simp] theorem setCore_marksT (c : Nat) (x : Core) : (setCore s c x).marksT = s.marksT := rfl
@[simp] theorem setCore_devPark (c : Nat) (x : Core) : (setCore s c x).devPark = s.devPark := rfl
@[simp] theorem setCore_heldMsgs (c : Nat) (x : Core) : (setCore s c x).heldMsgs = s.heldMsgs := rfl
@[simp] theorem setCore_asyncs (c : Nat) (x : Core) : (setCore s c x).asyncs = s.asyncs := rfl
@[simp] theorem setCore_fabric (c : Nat) (x : Core) : (setCore s c x).fabric = s.fabric := rfl
@[simp] theorem setCore_net (c : Nat) (x : Core) : (setCore s c x).net = s.net := rfl
@[simp] theorem setCore_flog (c : Nat) (x : Core) : (setCore s c x).flog = s.flog := rfl
@[simp] theorem setCore_rAcct (c : Nat) (x : Core) : (setCore s c x).rAcct = s.rAcct := rfl
@[simp] theorem setCore_rTrace (c : Nat) (x : Core) : (setCore s c x).rTrace = s.rTrace := rfl
@[simp] theorem setCore_rSample (c : Nat) (x : Core) : (setCore s c x).rSample = s.rSample := rfl
@[simp] theorem setCore_lastFaults (c : Nat) (x : Core) : (setCore s c x).lastFaults = s.lastFaults := rfl
@[simp] theorem setCore_power (c : Nat) (x : Core) : (setCore s c x).power = s.power := rfl
@[simp] theorem setCore_fw (c : Nat) (x : Core) : (setCore s c x).fw = s.fw := rfl
@[simp] theorem setCore_dgauges (c : Nat) (x : Core) : (setCore s c x).dgauges = s.dgauges := rfl
@[simp] theorem setCore_msix (c : Nat) (x : Core) : (setCore s c x).msix = s.msix := rfl
@[simp] theorem setCore_hostOut (c : Nat) (x : Core) : (setCore s c x).hostOut = s.hostOut := rfl
@[simp] theorem setCore_cur (c : Nat) (x : Core) : (setCore s c x).cur = s.cur := rfl
@[simp] theorem setCore_agenda (c : Nat) (x : Core) : (setCore s c x).agenda = s.agenda := rfl
@[simp] theorem setCore_turn (c : Nat) (x : Core) : (setCore s c x).turn = s.turn := rfl
@[simp] theorem setCore_fresh (c : Nat) (x : Core) : (setCore s c x).fresh = s.fresh := rfl
@[simp] theorem setCore_gddr (c : Nat) (x : Core) : (setCore s c x).gddr = s.gddr := rfl
@[simp] theorem setCore_lpddr (c : Nat) (x : Core) : (setCore s c x).lpddr = s.lpddr := rfl
@[simp] theorem setCore_arrNext (c : Nat) (x : Core) : (setCore s c x).arrNext = s.arrNext := rfl
@[simp] theorem setCore_dirty (c : Nat) (x : Core) : (setCore s c x).dirty = s.dirty := rfl
@[simp] theorem setCore_repPend (c : Nat) (x : Core) : (setCore s c x).repPend = s.repPend := rfl

@[simp] theorem updCore_mem (c : Nat) (f : Core → Core) : (updCore s c f).mem = s.mem := rfl
@[simp] theorem updCore_fe (c : Nat) (f : Core → Core) : (updCore s c f).fe = s.fe := rfl
@[simp] theorem updCore_bad (c : Nat) (f : Core → Core) : (updCore s c f).bad = s.bad := rfl
@[simp] theorem updCore_wall (c : Nat) (f : Core → Core) : (updCore s c f).wall = s.wall := rfl
@[simp] theorem updCore_absent (c : Nat) (f : Core → Core) : (updCore s c f).absent = s.absent := rfl
@[simp] theorem updCore_clusters (c : Nat) (f : Core → Core) : (updCore s c f).clusters = s.clusters := rfl
@[simp] theorem updCore_pairs (c : Nat) (f : Core → Core) : (updCore s c f).pairs = s.pairs := rfl
@[simp] theorem updCore_stations (c : Nat) (f : Core → Core) : (updCore s c f).stations = s.stations := rfl
@[simp] theorem updCore_ctxs (c : Nat) (f : Core → Core) : (updCore s c f).ctxs = s.ctxs := rfl
@[simp] theorem updCore_quadMove (c : Nat) (f : Core → Core) : (updCore s c f).quadMove = s.quadMove := rfl
@[simp] theorem updCore_lastCtx (c : Nat) (f : Core → Core) : (updCore s c f).lastCtx = s.lastCtx := rfl
@[simp] theorem updCore_graphs (c : Nat) (f : Core → Core) : (updCore s c f).graphs = s.graphs := rfl
@[simp] theorem updCore_posted (c : Nat) (f : Core → Core) : (updCore s c f).posted = s.posted := rfl
@[simp] theorem updCore_copies (c : Nat) (f : Core → Core) : (updCore s c f).copies = s.copies := rfl
@[simp] theorem updCore_copyNext (c : Nat) (f : Core → Core) : (updCore s c f).copyNext = s.copyNext := rfl
@[simp] theorem updCore_transit (c : Nat) (f : Core → Core) : (updCore s c f).transit = s.transit := rfl
@[simp] theorem updCore_marksT (c : Nat) (f : Core → Core) : (updCore s c f).marksT = s.marksT := rfl
@[simp] theorem updCore_devPark (c : Nat) (f : Core → Core) : (updCore s c f).devPark = s.devPark := rfl
@[simp] theorem updCore_heldMsgs (c : Nat) (f : Core → Core) : (updCore s c f).heldMsgs = s.heldMsgs := rfl
@[simp] theorem updCore_asyncs (c : Nat) (f : Core → Core) : (updCore s c f).asyncs = s.asyncs := rfl
@[simp] theorem updCore_fabric (c : Nat) (f : Core → Core) : (updCore s c f).fabric = s.fabric := rfl
@[simp] theorem updCore_net (c : Nat) (f : Core → Core) : (updCore s c f).net = s.net := rfl
@[simp] theorem updCore_flog (c : Nat) (f : Core → Core) : (updCore s c f).flog = s.flog := rfl
@[simp] theorem updCore_rAcct (c : Nat) (f : Core → Core) : (updCore s c f).rAcct = s.rAcct := rfl
@[simp] theorem updCore_rTrace (c : Nat) (f : Core → Core) : (updCore s c f).rTrace = s.rTrace := rfl
@[simp] theorem updCore_rSample (c : Nat) (f : Core → Core) : (updCore s c f).rSample = s.rSample := rfl
@[simp] theorem updCore_lastFaults (c : Nat) (f : Core → Core) : (updCore s c f).lastFaults = s.lastFaults := rfl
@[simp] theorem updCore_power (c : Nat) (f : Core → Core) : (updCore s c f).power = s.power := rfl
@[simp] theorem updCore_fw (c : Nat) (f : Core → Core) : (updCore s c f).fw = s.fw := rfl
@[simp] theorem updCore_dgauges (c : Nat) (f : Core → Core) : (updCore s c f).dgauges = s.dgauges := rfl
@[simp] theorem updCore_msix (c : Nat) (f : Core → Core) : (updCore s c f).msix = s.msix := rfl
@[simp] theorem updCore_hostOut (c : Nat) (f : Core → Core) : (updCore s c f).hostOut = s.hostOut := rfl
@[simp] theorem updCore_cur (c : Nat) (f : Core → Core) : (updCore s c f).cur = s.cur := rfl
@[simp] theorem updCore_agenda (c : Nat) (f : Core → Core) : (updCore s c f).agenda = s.agenda := rfl
@[simp] theorem updCore_turn (c : Nat) (f : Core → Core) : (updCore s c f).turn = s.turn := rfl
@[simp] theorem updCore_fresh (c : Nat) (f : Core → Core) : (updCore s c f).fresh = s.fresh := rfl
@[simp] theorem updCore_gddr (c : Nat) (f : Core → Core) : (updCore s c f).gddr = s.gddr := rfl
@[simp] theorem updCore_lpddr (c : Nat) (f : Core → Core) : (updCore s c f).lpddr = s.lpddr := rfl
@[simp] theorem updCore_arrNext (c : Nat) (f : Core → Core) : (updCore s c f).arrNext = s.arrNext := rfl
@[simp] theorem updCore_dirty (c : Nat) (f : Core → Core) : (updCore s c f).dirty = s.dirty := rfl
@[simp] theorem updCore_repPend (c : Nat) (f : Core → Core) : (updCore s c f).repPend = s.repPend := rfl

@[simp] theorem updBerth_mem (c : Nat) (b : BitVec 2) (f : Berth → Berth) : (updBerth s c b f).mem = s.mem := rfl
@[simp] theorem updBerth_fe (c : Nat) (b : BitVec 2) (f : Berth → Berth) : (updBerth s c b f).fe = s.fe := rfl
@[simp] theorem updBerth_bad (c : Nat) (b : BitVec 2) (f : Berth → Berth) : (updBerth s c b f).bad = s.bad := rfl
@[simp] theorem updBerth_wall (c : Nat) (b : BitVec 2) (f : Berth → Berth) : (updBerth s c b f).wall = s.wall := rfl
@[simp] theorem updBerth_absent (c : Nat) (b : BitVec 2) (f : Berth → Berth) : (updBerth s c b f).absent = s.absent := rfl
@[simp] theorem updBerth_clusters (c : Nat) (b : BitVec 2) (f : Berth → Berth) : (updBerth s c b f).clusters = s.clusters := rfl
@[simp] theorem updBerth_pairs (c : Nat) (b : BitVec 2) (f : Berth → Berth) : (updBerth s c b f).pairs = s.pairs := rfl
@[simp] theorem updBerth_stations (c : Nat) (b : BitVec 2) (f : Berth → Berth) : (updBerth s c b f).stations = s.stations := rfl
@[simp] theorem updBerth_ctxs (c : Nat) (b : BitVec 2) (f : Berth → Berth) : (updBerth s c b f).ctxs = s.ctxs := rfl
@[simp] theorem updBerth_quadMove (c : Nat) (b : BitVec 2) (f : Berth → Berth) : (updBerth s c b f).quadMove = s.quadMove := rfl
@[simp] theorem updBerth_lastCtx (c : Nat) (b : BitVec 2) (f : Berth → Berth) : (updBerth s c b f).lastCtx = s.lastCtx := rfl
@[simp] theorem updBerth_graphs (c : Nat) (b : BitVec 2) (f : Berth → Berth) : (updBerth s c b f).graphs = s.graphs := rfl
@[simp] theorem updBerth_posted (c : Nat) (b : BitVec 2) (f : Berth → Berth) : (updBerth s c b f).posted = s.posted := rfl
@[simp] theorem updBerth_copies (c : Nat) (b : BitVec 2) (f : Berth → Berth) : (updBerth s c b f).copies = s.copies := rfl
@[simp] theorem updBerth_copyNext (c : Nat) (b : BitVec 2) (f : Berth → Berth) : (updBerth s c b f).copyNext = s.copyNext := rfl
@[simp] theorem updBerth_transit (c : Nat) (b : BitVec 2) (f : Berth → Berth) : (updBerth s c b f).transit = s.transit := rfl
@[simp] theorem updBerth_marksT (c : Nat) (b : BitVec 2) (f : Berth → Berth) : (updBerth s c b f).marksT = s.marksT := rfl
@[simp] theorem updBerth_devPark (c : Nat) (b : BitVec 2) (f : Berth → Berth) : (updBerth s c b f).devPark = s.devPark := rfl
@[simp] theorem updBerth_heldMsgs (c : Nat) (b : BitVec 2) (f : Berth → Berth) : (updBerth s c b f).heldMsgs = s.heldMsgs := rfl
@[simp] theorem updBerth_asyncs (c : Nat) (b : BitVec 2) (f : Berth → Berth) : (updBerth s c b f).asyncs = s.asyncs := rfl
@[simp] theorem updBerth_fabric (c : Nat) (b : BitVec 2) (f : Berth → Berth) : (updBerth s c b f).fabric = s.fabric := rfl
@[simp] theorem updBerth_net (c : Nat) (b : BitVec 2) (f : Berth → Berth) : (updBerth s c b f).net = s.net := rfl
@[simp] theorem updBerth_flog (c : Nat) (b : BitVec 2) (f : Berth → Berth) : (updBerth s c b f).flog = s.flog := rfl
@[simp] theorem updBerth_rAcct (c : Nat) (b : BitVec 2) (f : Berth → Berth) : (updBerth s c b f).rAcct = s.rAcct := rfl
@[simp] theorem updBerth_rTrace (c : Nat) (b : BitVec 2) (f : Berth → Berth) : (updBerth s c b f).rTrace = s.rTrace := rfl
@[simp] theorem updBerth_rSample (c : Nat) (b : BitVec 2) (f : Berth → Berth) : (updBerth s c b f).rSample = s.rSample := rfl
@[simp] theorem updBerth_lastFaults (c : Nat) (b : BitVec 2) (f : Berth → Berth) : (updBerth s c b f).lastFaults = s.lastFaults := rfl
@[simp] theorem updBerth_power (c : Nat) (b : BitVec 2) (f : Berth → Berth) : (updBerth s c b f).power = s.power := rfl
@[simp] theorem updBerth_fw (c : Nat) (b : BitVec 2) (f : Berth → Berth) : (updBerth s c b f).fw = s.fw := rfl
@[simp] theorem updBerth_dgauges (c : Nat) (b : BitVec 2) (f : Berth → Berth) : (updBerth s c b f).dgauges = s.dgauges := rfl
@[simp] theorem updBerth_msix (c : Nat) (b : BitVec 2) (f : Berth → Berth) : (updBerth s c b f).msix = s.msix := rfl
@[simp] theorem updBerth_hostOut (c : Nat) (b : BitVec 2) (f : Berth → Berth) : (updBerth s c b f).hostOut = s.hostOut := rfl
@[simp] theorem updBerth_cur (c : Nat) (b : BitVec 2) (f : Berth → Berth) : (updBerth s c b f).cur = s.cur := rfl
@[simp] theorem updBerth_agenda (c : Nat) (b : BitVec 2) (f : Berth → Berth) : (updBerth s c b f).agenda = s.agenda := rfl
@[simp] theorem updBerth_turn (c : Nat) (b : BitVec 2) (f : Berth → Berth) : (updBerth s c b f).turn = s.turn := rfl
@[simp] theorem updBerth_fresh (c : Nat) (b : BitVec 2) (f : Berth → Berth) : (updBerth s c b f).fresh = s.fresh := rfl
@[simp] theorem updBerth_gddr (c : Nat) (b : BitVec 2) (f : Berth → Berth) : (updBerth s c b f).gddr = s.gddr := rfl
@[simp] theorem updBerth_lpddr (c : Nat) (b : BitVec 2) (f : Berth → Berth) : (updBerth s c b f).lpddr = s.lpddr := rfl
@[simp] theorem updBerth_arrNext (c : Nat) (b : BitVec 2) (f : Berth → Berth) : (updBerth s c b f).arrNext = s.arrNext := rfl
@[simp] theorem updBerth_dirty (c : Nat) (b : BitVec 2) (f : Berth → Berth) : (updBerth s c b f).dirty = s.dirty := rfl
@[simp] theorem updBerth_repPend (c : Nat) (b : BitVec 2) (f : Berth → Berth) : (updBerth s c b f).repPend = s.repPend := rfl

@[simp] theorem updStream_mem (c : Nat) (p : Bool) (f : Stream → Stream) : (updStream s c p f).mem = s.mem := rfl
@[simp] theorem updStream_fe (c : Nat) (p : Bool) (f : Stream → Stream) : (updStream s c p f).fe = s.fe := rfl
@[simp] theorem updStream_bad (c : Nat) (p : Bool) (f : Stream → Stream) : (updStream s c p f).bad = s.bad := rfl
@[simp] theorem updStream_wall (c : Nat) (p : Bool) (f : Stream → Stream) : (updStream s c p f).wall = s.wall := rfl
@[simp] theorem updStream_absent (c : Nat) (p : Bool) (f : Stream → Stream) : (updStream s c p f).absent = s.absent := rfl
@[simp] theorem updStream_clusters (c : Nat) (p : Bool) (f : Stream → Stream) : (updStream s c p f).clusters = s.clusters := rfl
@[simp] theorem updStream_pairs (c : Nat) (p : Bool) (f : Stream → Stream) : (updStream s c p f).pairs = s.pairs := rfl
@[simp] theorem updStream_stations (c : Nat) (p : Bool) (f : Stream → Stream) : (updStream s c p f).stations = s.stations := rfl
@[simp] theorem updStream_ctxs (c : Nat) (p : Bool) (f : Stream → Stream) : (updStream s c p f).ctxs = s.ctxs := rfl
@[simp] theorem updStream_quadMove (c : Nat) (p : Bool) (f : Stream → Stream) : (updStream s c p f).quadMove = s.quadMove := rfl
@[simp] theorem updStream_lastCtx (c : Nat) (p : Bool) (f : Stream → Stream) : (updStream s c p f).lastCtx = s.lastCtx := rfl
@[simp] theorem updStream_graphs (c : Nat) (p : Bool) (f : Stream → Stream) : (updStream s c p f).graphs = s.graphs := rfl
@[simp] theorem updStream_posted (c : Nat) (p : Bool) (f : Stream → Stream) : (updStream s c p f).posted = s.posted := rfl
@[simp] theorem updStream_copies (c : Nat) (p : Bool) (f : Stream → Stream) : (updStream s c p f).copies = s.copies := rfl
@[simp] theorem updStream_copyNext (c : Nat) (p : Bool) (f : Stream → Stream) : (updStream s c p f).copyNext = s.copyNext := rfl
@[simp] theorem updStream_transit (c : Nat) (p : Bool) (f : Stream → Stream) : (updStream s c p f).transit = s.transit := rfl
@[simp] theorem updStream_marksT (c : Nat) (p : Bool) (f : Stream → Stream) : (updStream s c p f).marksT = s.marksT := rfl
@[simp] theorem updStream_devPark (c : Nat) (p : Bool) (f : Stream → Stream) : (updStream s c p f).devPark = s.devPark := rfl
@[simp] theorem updStream_heldMsgs (c : Nat) (p : Bool) (f : Stream → Stream) : (updStream s c p f).heldMsgs = s.heldMsgs := rfl
@[simp] theorem updStream_asyncs (c : Nat) (p : Bool) (f : Stream → Stream) : (updStream s c p f).asyncs = s.asyncs := rfl
@[simp] theorem updStream_fabric (c : Nat) (p : Bool) (f : Stream → Stream) : (updStream s c p f).fabric = s.fabric := rfl
@[simp] theorem updStream_net (c : Nat) (p : Bool) (f : Stream → Stream) : (updStream s c p f).net = s.net := rfl
@[simp] theorem updStream_flog (c : Nat) (p : Bool) (f : Stream → Stream) : (updStream s c p f).flog = s.flog := rfl
@[simp] theorem updStream_rAcct (c : Nat) (p : Bool) (f : Stream → Stream) : (updStream s c p f).rAcct = s.rAcct := rfl
@[simp] theorem updStream_rTrace (c : Nat) (p : Bool) (f : Stream → Stream) : (updStream s c p f).rTrace = s.rTrace := rfl
@[simp] theorem updStream_rSample (c : Nat) (p : Bool) (f : Stream → Stream) : (updStream s c p f).rSample = s.rSample := rfl
@[simp] theorem updStream_lastFaults (c : Nat) (p : Bool) (f : Stream → Stream) : (updStream s c p f).lastFaults = s.lastFaults := rfl
@[simp] theorem updStream_power (c : Nat) (p : Bool) (f : Stream → Stream) : (updStream s c p f).power = s.power := rfl
@[simp] theorem updStream_fw (c : Nat) (p : Bool) (f : Stream → Stream) : (updStream s c p f).fw = s.fw := rfl
@[simp] theorem updStream_dgauges (c : Nat) (p : Bool) (f : Stream → Stream) : (updStream s c p f).dgauges = s.dgauges := rfl
@[simp] theorem updStream_msix (c : Nat) (p : Bool) (f : Stream → Stream) : (updStream s c p f).msix = s.msix := rfl
@[simp] theorem updStream_hostOut (c : Nat) (p : Bool) (f : Stream → Stream) : (updStream s c p f).hostOut = s.hostOut := rfl
@[simp] theorem updStream_cur (c : Nat) (p : Bool) (f : Stream → Stream) : (updStream s c p f).cur = s.cur := rfl
@[simp] theorem updStream_agenda (c : Nat) (p : Bool) (f : Stream → Stream) : (updStream s c p f).agenda = s.agenda := rfl
@[simp] theorem updStream_turn (c : Nat) (p : Bool) (f : Stream → Stream) : (updStream s c p f).turn = s.turn := rfl
@[simp] theorem updStream_fresh (c : Nat) (p : Bool) (f : Stream → Stream) : (updStream s c p f).fresh = s.fresh := rfl
@[simp] theorem updStream_gddr (c : Nat) (p : Bool) (f : Stream → Stream) : (updStream s c p f).gddr = s.gddr := rfl
@[simp] theorem updStream_lpddr (c : Nat) (p : Bool) (f : Stream → Stream) : (updStream s c p f).lpddr = s.lpddr := rfl
@[simp] theorem updStream_arrNext (c : Nat) (p : Bool) (f : Stream → Stream) : (updStream s c p f).arrNext = s.arrNext := rfl
@[simp] theorem updStream_dirty (c : Nat) (p : Bool) (f : Stream → Stream) : (updStream s c p f).dirty = s.dirty := rfl
@[simp] theorem updStream_repPend (c : Nat) (p : Bool) (f : Stream → Stream) : (updStream s c p f).repPend = s.repPend := rfl

@[simp] theorem updCur_mem (f : Stream → Stream) : (updCur s f).mem = s.mem := rfl
@[simp] theorem updCur_fe (f : Stream → Stream) : (updCur s f).fe = s.fe := rfl
@[simp] theorem updCur_bad (f : Stream → Stream) : (updCur s f).bad = s.bad := rfl
@[simp] theorem updCur_wall (f : Stream → Stream) : (updCur s f).wall = s.wall := rfl
@[simp] theorem updCur_absent (f : Stream → Stream) : (updCur s f).absent = s.absent := rfl
@[simp] theorem updCur_clusters (f : Stream → Stream) : (updCur s f).clusters = s.clusters := rfl
@[simp] theorem updCur_pairs (f : Stream → Stream) : (updCur s f).pairs = s.pairs := rfl
@[simp] theorem updCur_stations (f : Stream → Stream) : (updCur s f).stations = s.stations := rfl
@[simp] theorem updCur_ctxs (f : Stream → Stream) : (updCur s f).ctxs = s.ctxs := rfl
@[simp] theorem updCur_quadMove (f : Stream → Stream) : (updCur s f).quadMove = s.quadMove := rfl
@[simp] theorem updCur_lastCtx (f : Stream → Stream) : (updCur s f).lastCtx = s.lastCtx := rfl
@[simp] theorem updCur_graphs (f : Stream → Stream) : (updCur s f).graphs = s.graphs := rfl
@[simp] theorem updCur_posted (f : Stream → Stream) : (updCur s f).posted = s.posted := rfl
@[simp] theorem updCur_copies (f : Stream → Stream) : (updCur s f).copies = s.copies := rfl
@[simp] theorem updCur_copyNext (f : Stream → Stream) : (updCur s f).copyNext = s.copyNext := rfl
@[simp] theorem updCur_transit (f : Stream → Stream) : (updCur s f).transit = s.transit := rfl
@[simp] theorem updCur_marksT (f : Stream → Stream) : (updCur s f).marksT = s.marksT := rfl
@[simp] theorem updCur_devPark (f : Stream → Stream) : (updCur s f).devPark = s.devPark := rfl
@[simp] theorem updCur_heldMsgs (f : Stream → Stream) : (updCur s f).heldMsgs = s.heldMsgs := rfl
@[simp] theorem updCur_asyncs (f : Stream → Stream) : (updCur s f).asyncs = s.asyncs := rfl
@[simp] theorem updCur_fabric (f : Stream → Stream) : (updCur s f).fabric = s.fabric := rfl
@[simp] theorem updCur_net (f : Stream → Stream) : (updCur s f).net = s.net := rfl
@[simp] theorem updCur_flog (f : Stream → Stream) : (updCur s f).flog = s.flog := rfl
@[simp] theorem updCur_rAcct (f : Stream → Stream) : (updCur s f).rAcct = s.rAcct := rfl
@[simp] theorem updCur_rTrace (f : Stream → Stream) : (updCur s f).rTrace = s.rTrace := rfl
@[simp] theorem updCur_rSample (f : Stream → Stream) : (updCur s f).rSample = s.rSample := rfl
@[simp] theorem updCur_lastFaults (f : Stream → Stream) : (updCur s f).lastFaults = s.lastFaults := rfl
@[simp] theorem updCur_power (f : Stream → Stream) : (updCur s f).power = s.power := rfl
@[simp] theorem updCur_fw (f : Stream → Stream) : (updCur s f).fw = s.fw := rfl
@[simp] theorem updCur_dgauges (f : Stream → Stream) : (updCur s f).dgauges = s.dgauges := rfl
@[simp] theorem updCur_msix (f : Stream → Stream) : (updCur s f).msix = s.msix := rfl
@[simp] theorem updCur_hostOut (f : Stream → Stream) : (updCur s f).hostOut = s.hostOut := rfl
@[simp] theorem updCur_cur (f : Stream → Stream) : (updCur s f).cur = s.cur := rfl
@[simp] theorem updCur_agenda (f : Stream → Stream) : (updCur s f).agenda = s.agenda := rfl
@[simp] theorem updCur_turn (f : Stream → Stream) : (updCur s f).turn = s.turn := rfl
@[simp] theorem updCur_fresh (f : Stream → Stream) : (updCur s f).fresh = s.fresh := rfl
@[simp] theorem updCur_gddr (f : Stream → Stream) : (updCur s f).gddr = s.gddr := rfl
@[simp] theorem updCur_lpddr (f : Stream → Stream) : (updCur s f).lpddr = s.lpddr := rfl
@[simp] theorem updCur_arrNext (f : Stream → Stream) : (updCur s f).arrNext = s.arrNext := rfl
@[simp] theorem updCur_dirty (f : Stream → Stream) : (updCur s f).dirty = s.dirty := rfl
@[simp] theorem updCur_repPend (f : Stream → Stream) : (updCur s f).repPend = s.repPend := rfl

@[simp] theorem updCurCore_mem (f : Core → Core) : (updCurCore s f).mem = s.mem := rfl
@[simp] theorem updCurCore_fe (f : Core → Core) : (updCurCore s f).fe = s.fe := rfl
@[simp] theorem updCurCore_bad (f : Core → Core) : (updCurCore s f).bad = s.bad := rfl
@[simp] theorem updCurCore_wall (f : Core → Core) : (updCurCore s f).wall = s.wall := rfl
@[simp] theorem updCurCore_absent (f : Core → Core) : (updCurCore s f).absent = s.absent := rfl
@[simp] theorem updCurCore_clusters (f : Core → Core) : (updCurCore s f).clusters = s.clusters := rfl
@[simp] theorem updCurCore_pairs (f : Core → Core) : (updCurCore s f).pairs = s.pairs := rfl
@[simp] theorem updCurCore_stations (f : Core → Core) : (updCurCore s f).stations = s.stations := rfl
@[simp] theorem updCurCore_ctxs (f : Core → Core) : (updCurCore s f).ctxs = s.ctxs := rfl
@[simp] theorem updCurCore_quadMove (f : Core → Core) : (updCurCore s f).quadMove = s.quadMove := rfl
@[simp] theorem updCurCore_lastCtx (f : Core → Core) : (updCurCore s f).lastCtx = s.lastCtx := rfl
@[simp] theorem updCurCore_graphs (f : Core → Core) : (updCurCore s f).graphs = s.graphs := rfl
@[simp] theorem updCurCore_posted (f : Core → Core) : (updCurCore s f).posted = s.posted := rfl
@[simp] theorem updCurCore_copies (f : Core → Core) : (updCurCore s f).copies = s.copies := rfl
@[simp] theorem updCurCore_copyNext (f : Core → Core) : (updCurCore s f).copyNext = s.copyNext := rfl
@[simp] theorem updCurCore_transit (f : Core → Core) : (updCurCore s f).transit = s.transit := rfl
@[simp] theorem updCurCore_marksT (f : Core → Core) : (updCurCore s f).marksT = s.marksT := rfl
@[simp] theorem updCurCore_devPark (f : Core → Core) : (updCurCore s f).devPark = s.devPark := rfl
@[simp] theorem updCurCore_heldMsgs (f : Core → Core) : (updCurCore s f).heldMsgs = s.heldMsgs := rfl
@[simp] theorem updCurCore_asyncs (f : Core → Core) : (updCurCore s f).asyncs = s.asyncs := rfl
@[simp] theorem updCurCore_fabric (f : Core → Core) : (updCurCore s f).fabric = s.fabric := rfl
@[simp] theorem updCurCore_net (f : Core → Core) : (updCurCore s f).net = s.net := rfl
@[simp] theorem updCurCore_flog (f : Core → Core) : (updCurCore s f).flog = s.flog := rfl
@[simp] theorem updCurCore_rAcct (f : Core → Core) : (updCurCore s f).rAcct = s.rAcct := rfl
@[simp] theorem updCurCore_rTrace (f : Core → Core) : (updCurCore s f).rTrace = s.rTrace := rfl
@[simp] theorem updCurCore_rSample (f : Core → Core) : (updCurCore s f).rSample = s.rSample := rfl
@[simp] theorem updCurCore_lastFaults (f : Core → Core) : (updCurCore s f).lastFaults = s.lastFaults := rfl
@[simp] theorem updCurCore_power (f : Core → Core) : (updCurCore s f).power = s.power := rfl
@[simp] theorem updCurCore_fw (f : Core → Core) : (updCurCore s f).fw = s.fw := rfl
@[simp] theorem updCurCore_dgauges (f : Core → Core) : (updCurCore s f).dgauges = s.dgauges := rfl
@[simp] theorem updCurCore_msix (f : Core → Core) : (updCurCore s f).msix = s.msix := rfl
@[simp] theorem updCurCore_hostOut (f : Core → Core) : (updCurCore s f).hostOut = s.hostOut := rfl
@[simp] theorem updCurCore_cur (f : Core → Core) : (updCurCore s f).cur = s.cur := rfl
@[simp] theorem updCurCore_agenda (f : Core → Core) : (updCurCore s f).agenda = s.agenda := rfl
@[simp] theorem updCurCore_turn (f : Core → Core) : (updCurCore s f).turn = s.turn := rfl
@[simp] theorem updCurCore_fresh (f : Core → Core) : (updCurCore s f).fresh = s.fresh := rfl
@[simp] theorem updCurCore_gddr (f : Core → Core) : (updCurCore s f).gddr = s.gddr := rfl
@[simp] theorem updCurCore_lpddr (f : Core → Core) : (updCurCore s f).lpddr = s.lpddr := rfl
@[simp] theorem updCurCore_arrNext (f : Core → Core) : (updCurCore s f).arrNext = s.arrNext := rfl
@[simp] theorem updCurCore_dirty (f : Core → Core) : (updCurCore s f).dirty = s.dirty := rfl
@[simp] theorem updCurCore_repPend (f : Core → Core) : (updCurCore s f).repPend = s.repPend := rfl

@[simp] theorem updCurBerth_mem (f : Berth → Berth) : (updCurBerth s f).mem = s.mem := rfl
@[simp] theorem updCurBerth_fe (f : Berth → Berth) : (updCurBerth s f).fe = s.fe := rfl
@[simp] theorem updCurBerth_bad (f : Berth → Berth) : (updCurBerth s f).bad = s.bad := rfl
@[simp] theorem updCurBerth_wall (f : Berth → Berth) : (updCurBerth s f).wall = s.wall := rfl
@[simp] theorem updCurBerth_absent (f : Berth → Berth) : (updCurBerth s f).absent = s.absent := rfl
@[simp] theorem updCurBerth_clusters (f : Berth → Berth) : (updCurBerth s f).clusters = s.clusters := rfl
@[simp] theorem updCurBerth_pairs (f : Berth → Berth) : (updCurBerth s f).pairs = s.pairs := rfl
@[simp] theorem updCurBerth_stations (f : Berth → Berth) : (updCurBerth s f).stations = s.stations := rfl
@[simp] theorem updCurBerth_ctxs (f : Berth → Berth) : (updCurBerth s f).ctxs = s.ctxs := rfl
@[simp] theorem updCurBerth_quadMove (f : Berth → Berth) : (updCurBerth s f).quadMove = s.quadMove := rfl
@[simp] theorem updCurBerth_lastCtx (f : Berth → Berth) : (updCurBerth s f).lastCtx = s.lastCtx := rfl
@[simp] theorem updCurBerth_graphs (f : Berth → Berth) : (updCurBerth s f).graphs = s.graphs := rfl
@[simp] theorem updCurBerth_posted (f : Berth → Berth) : (updCurBerth s f).posted = s.posted := rfl
@[simp] theorem updCurBerth_copies (f : Berth → Berth) : (updCurBerth s f).copies = s.copies := rfl
@[simp] theorem updCurBerth_copyNext (f : Berth → Berth) : (updCurBerth s f).copyNext = s.copyNext := rfl
@[simp] theorem updCurBerth_transit (f : Berth → Berth) : (updCurBerth s f).transit = s.transit := rfl
@[simp] theorem updCurBerth_marksT (f : Berth → Berth) : (updCurBerth s f).marksT = s.marksT := rfl
@[simp] theorem updCurBerth_devPark (f : Berth → Berth) : (updCurBerth s f).devPark = s.devPark := rfl
@[simp] theorem updCurBerth_heldMsgs (f : Berth → Berth) : (updCurBerth s f).heldMsgs = s.heldMsgs := rfl
@[simp] theorem updCurBerth_asyncs (f : Berth → Berth) : (updCurBerth s f).asyncs = s.asyncs := rfl
@[simp] theorem updCurBerth_fabric (f : Berth → Berth) : (updCurBerth s f).fabric = s.fabric := rfl
@[simp] theorem updCurBerth_net (f : Berth → Berth) : (updCurBerth s f).net = s.net := rfl
@[simp] theorem updCurBerth_flog (f : Berth → Berth) : (updCurBerth s f).flog = s.flog := rfl
@[simp] theorem updCurBerth_rAcct (f : Berth → Berth) : (updCurBerth s f).rAcct = s.rAcct := rfl
@[simp] theorem updCurBerth_rTrace (f : Berth → Berth) : (updCurBerth s f).rTrace = s.rTrace := rfl
@[simp] theorem updCurBerth_rSample (f : Berth → Berth) : (updCurBerth s f).rSample = s.rSample := rfl
@[simp] theorem updCurBerth_lastFaults (f : Berth → Berth) : (updCurBerth s f).lastFaults = s.lastFaults := rfl
@[simp] theorem updCurBerth_power (f : Berth → Berth) : (updCurBerth s f).power = s.power := rfl
@[simp] theorem updCurBerth_fw (f : Berth → Berth) : (updCurBerth s f).fw = s.fw := rfl
@[simp] theorem updCurBerth_dgauges (f : Berth → Berth) : (updCurBerth s f).dgauges = s.dgauges := rfl
@[simp] theorem updCurBerth_msix (f : Berth → Berth) : (updCurBerth s f).msix = s.msix := rfl
@[simp] theorem updCurBerth_hostOut (f : Berth → Berth) : (updCurBerth s f).hostOut = s.hostOut := rfl
@[simp] theorem updCurBerth_cur (f : Berth → Berth) : (updCurBerth s f).cur = s.cur := rfl
@[simp] theorem updCurBerth_agenda (f : Berth → Berth) : (updCurBerth s f).agenda = s.agenda := rfl
@[simp] theorem updCurBerth_turn (f : Berth → Berth) : (updCurBerth s f).turn = s.turn := rfl
@[simp] theorem updCurBerth_fresh (f : Berth → Berth) : (updCurBerth s f).fresh = s.fresh := rfl
@[simp] theorem updCurBerth_gddr (f : Berth → Berth) : (updCurBerth s f).gddr = s.gddr := rfl
@[simp] theorem updCurBerth_lpddr (f : Berth → Berth) : (updCurBerth s f).lpddr = s.lpddr := rfl
@[simp] theorem updCurBerth_arrNext (f : Berth → Berth) : (updCurBerth s f).arrNext = s.arrNext := rfl
@[simp] theorem updCurBerth_dirty (f : Berth → Berth) : (updCurBerth s f).dirty = s.dirty := rfl
@[simp] theorem updCurBerth_repPend (f : Berth → Berth) : (updCurBerth s f).repPend = s.repPend := rfl

@[simp] theorem qPush_mem (q : BitVec 4) (e : QEnt) : (qPush s q e).mem = s.mem := rfl
@[simp] theorem qPush_fe (q : BitVec 4) (e : QEnt) : (qPush s q e).fe = s.fe := rfl
@[simp] theorem qPush_bad (q : BitVec 4) (e : QEnt) : (qPush s q e).bad = s.bad := rfl
@[simp] theorem qPush_wall (q : BitVec 4) (e : QEnt) : (qPush s q e).wall = s.wall := rfl
@[simp] theorem qPush_absent (q : BitVec 4) (e : QEnt) : (qPush s q e).absent = s.absent := rfl
@[simp] theorem qPush_clusters (q : BitVec 4) (e : QEnt) : (qPush s q e).clusters = s.clusters := rfl
@[simp] theorem qPush_pairs (q : BitVec 4) (e : QEnt) : (qPush s q e).pairs = s.pairs := rfl
@[simp] theorem qPush_stations (q : BitVec 4) (e : QEnt) : (qPush s q e).stations = s.stations := rfl
@[simp] theorem qPush_ctxs (q : BitVec 4) (e : QEnt) : (qPush s q e).ctxs = s.ctxs := rfl
@[simp] theorem qPush_quadMove (q : BitVec 4) (e : QEnt) : (qPush s q e).quadMove = s.quadMove := rfl
@[simp] theorem qPush_lastCtx (q : BitVec 4) (e : QEnt) : (qPush s q e).lastCtx = s.lastCtx := rfl
@[simp] theorem qPush_graphs (q : BitVec 4) (e : QEnt) : (qPush s q e).graphs = s.graphs := rfl
@[simp] theorem qPush_posted (q : BitVec 4) (e : QEnt) : (qPush s q e).posted = s.posted := rfl
@[simp] theorem qPush_copies (q : BitVec 4) (e : QEnt) : (qPush s q e).copies = s.copies := rfl
@[simp] theorem qPush_copyNext (q : BitVec 4) (e : QEnt) : (qPush s q e).copyNext = s.copyNext := rfl
@[simp] theorem qPush_transit (q : BitVec 4) (e : QEnt) : (qPush s q e).transit = s.transit := rfl
@[simp] theorem qPush_marksT (q : BitVec 4) (e : QEnt) : (qPush s q e).marksT = s.marksT := rfl
@[simp] theorem qPush_devPark (q : BitVec 4) (e : QEnt) : (qPush s q e).devPark = s.devPark := rfl
@[simp] theorem qPush_heldMsgs (q : BitVec 4) (e : QEnt) : (qPush s q e).heldMsgs = s.heldMsgs := rfl
@[simp] theorem qPush_asyncs (q : BitVec 4) (e : QEnt) : (qPush s q e).asyncs = s.asyncs := rfl
@[simp] theorem qPush_fabric (q : BitVec 4) (e : QEnt) : (qPush s q e).fabric = s.fabric := rfl
@[simp] theorem qPush_net (q : BitVec 4) (e : QEnt) : (qPush s q e).net = s.net := rfl
@[simp] theorem qPush_flog (q : BitVec 4) (e : QEnt) : (qPush s q e).flog = s.flog := rfl
@[simp] theorem qPush_rAcct (q : BitVec 4) (e : QEnt) : (qPush s q e).rAcct = s.rAcct := rfl
@[simp] theorem qPush_rTrace (q : BitVec 4) (e : QEnt) : (qPush s q e).rTrace = s.rTrace := rfl
@[simp] theorem qPush_rSample (q : BitVec 4) (e : QEnt) : (qPush s q e).rSample = s.rSample := rfl
@[simp] theorem qPush_lastFaults (q : BitVec 4) (e : QEnt) : (qPush s q e).lastFaults = s.lastFaults := rfl
@[simp] theorem qPush_power (q : BitVec 4) (e : QEnt) : (qPush s q e).power = s.power := rfl
@[simp] theorem qPush_fw (q : BitVec 4) (e : QEnt) : (qPush s q e).fw = s.fw := rfl
@[simp] theorem qPush_dgauges (q : BitVec 4) (e : QEnt) : (qPush s q e).dgauges = s.dgauges := rfl
@[simp] theorem qPush_msix (q : BitVec 4) (e : QEnt) : (qPush s q e).msix = s.msix := rfl
@[simp] theorem qPush_hostOut (q : BitVec 4) (e : QEnt) : (qPush s q e).hostOut = s.hostOut := rfl
@[simp] theorem qPush_cur (q : BitVec 4) (e : QEnt) : (qPush s q e).cur = s.cur := rfl
@[simp] theorem qPush_agenda (q : BitVec 4) (e : QEnt) : (qPush s q e).agenda = s.agenda := rfl
@[simp] theorem qPush_turn (q : BitVec 4) (e : QEnt) : (qPush s q e).turn = s.turn := rfl
@[simp] theorem qPush_fresh (q : BitVec 4) (e : QEnt) : (qPush s q e).fresh = s.fresh := rfl
@[simp] theorem qPush_gddr (q : BitVec 4) (e : QEnt) : (qPush s q e).gddr = s.gddr := rfl
@[simp] theorem qPush_lpddr (q : BitVec 4) (e : QEnt) : (qPush s q e).lpddr = s.lpddr := rfl
@[simp] theorem qPush_arrNext (q : BitVec 4) (e : QEnt) : (qPush s q e).arrNext = s.arrNext := rfl
@[simp] theorem qPush_dirty (q : BitVec 4) (e : QEnt) : (qPush s q e).dirty = s.dirty := rfl
@[simp] theorem qPush_repPend (q : BitVec 4) (e : QEnt) : (qPush s q e).repPend = s.repPend := rfl

@[simp] theorem qPop_mem (q : BitVec 4) : (qPop s q).mem = s.mem := rfl
@[simp] theorem qPop_fe (q : BitVec 4) : (qPop s q).fe = s.fe := rfl
@[simp] theorem qPop_bad (q : BitVec 4) : (qPop s q).bad = s.bad := rfl
@[simp] theorem qPop_wall (q : BitVec 4) : (qPop s q).wall = s.wall := rfl
@[simp] theorem qPop_absent (q : BitVec 4) : (qPop s q).absent = s.absent := rfl
@[simp] theorem qPop_clusters (q : BitVec 4) : (qPop s q).clusters = s.clusters := rfl
@[simp] theorem qPop_pairs (q : BitVec 4) : (qPop s q).pairs = s.pairs := rfl
@[simp] theorem qPop_stations (q : BitVec 4) : (qPop s q).stations = s.stations := rfl
@[simp] theorem qPop_ctxs (q : BitVec 4) : (qPop s q).ctxs = s.ctxs := rfl
@[simp] theorem qPop_quadMove (q : BitVec 4) : (qPop s q).quadMove = s.quadMove := rfl
@[simp] theorem qPop_lastCtx (q : BitVec 4) : (qPop s q).lastCtx = s.lastCtx := rfl
@[simp] theorem qPop_graphs (q : BitVec 4) : (qPop s q).graphs = s.graphs := rfl
@[simp] theorem qPop_posted (q : BitVec 4) : (qPop s q).posted = s.posted := rfl
@[simp] theorem qPop_copies (q : BitVec 4) : (qPop s q).copies = s.copies := rfl
@[simp] theorem qPop_copyNext (q : BitVec 4) : (qPop s q).copyNext = s.copyNext := rfl
@[simp] theorem qPop_transit (q : BitVec 4) : (qPop s q).transit = s.transit := rfl
@[simp] theorem qPop_marksT (q : BitVec 4) : (qPop s q).marksT = s.marksT := rfl
@[simp] theorem qPop_devPark (q : BitVec 4) : (qPop s q).devPark = s.devPark := rfl
@[simp] theorem qPop_heldMsgs (q : BitVec 4) : (qPop s q).heldMsgs = s.heldMsgs := rfl
@[simp] theorem qPop_asyncs (q : BitVec 4) : (qPop s q).asyncs = s.asyncs := rfl
@[simp] theorem qPop_fabric (q : BitVec 4) : (qPop s q).fabric = s.fabric := rfl
@[simp] theorem qPop_net (q : BitVec 4) : (qPop s q).net = s.net := rfl
@[simp] theorem qPop_flog (q : BitVec 4) : (qPop s q).flog = s.flog := rfl
@[simp] theorem qPop_rAcct (q : BitVec 4) : (qPop s q).rAcct = s.rAcct := rfl
@[simp] theorem qPop_rTrace (q : BitVec 4) : (qPop s q).rTrace = s.rTrace := rfl
@[simp] theorem qPop_rSample (q : BitVec 4) : (qPop s q).rSample = s.rSample := rfl
@[simp] theorem qPop_lastFaults (q : BitVec 4) : (qPop s q).lastFaults = s.lastFaults := rfl
@[simp] theorem qPop_power (q : BitVec 4) : (qPop s q).power = s.power := rfl
@[simp] theorem qPop_fw (q : BitVec 4) : (qPop s q).fw = s.fw := rfl
@[simp] theorem qPop_dgauges (q : BitVec 4) : (qPop s q).dgauges = s.dgauges := rfl
@[simp] theorem qPop_msix (q : BitVec 4) : (qPop s q).msix = s.msix := rfl
@[simp] theorem qPop_hostOut (q : BitVec 4) : (qPop s q).hostOut = s.hostOut := rfl
@[simp] theorem qPop_cur (q : BitVec 4) : (qPop s q).cur = s.cur := rfl
@[simp] theorem qPop_agenda (q : BitVec 4) : (qPop s q).agenda = s.agenda := rfl
@[simp] theorem qPop_turn (q : BitVec 4) : (qPop s q).turn = s.turn := rfl
@[simp] theorem qPop_fresh (q : BitVec 4) : (qPop s q).fresh = s.fresh := rfl
@[simp] theorem qPop_gddr (q : BitVec 4) : (qPop s q).gddr = s.gddr := rfl
@[simp] theorem qPop_lpddr (q : BitVec 4) : (qPop s q).lpddr = s.lpddr := rfl
@[simp] theorem qPop_arrNext (q : BitVec 4) : (qPop s q).arrNext = s.arrNext := rfl
@[simp] theorem qPop_dirty (q : BitVec 4) : (qPop s q).dirty = s.dirty := rfl
@[simp] theorem qPop_repPend (q : BitVec 4) : (qPop s q).repPend = s.repPend := rfl

@[simp] theorem setCluster_mem (n : Nat) (x : Cluster) : (setCluster s n x).mem = s.mem := rfl
@[simp] theorem setCluster_fe (n : Nat) (x : Cluster) : (setCluster s n x).fe = s.fe := rfl
@[simp] theorem setCluster_bad (n : Nat) (x : Cluster) : (setCluster s n x).bad = s.bad := rfl
@[simp] theorem setCluster_wall (n : Nat) (x : Cluster) : (setCluster s n x).wall = s.wall := rfl
@[simp] theorem setCluster_cores (n : Nat) (x : Cluster) : (setCluster s n x).cores = s.cores := rfl
@[simp] theorem setCluster_absent (n : Nat) (x : Cluster) : (setCluster s n x).absent = s.absent := rfl
@[simp] theorem setCluster_pairs (n : Nat) (x : Cluster) : (setCluster s n x).pairs = s.pairs := rfl
@[simp] theorem setCluster_stations (n : Nat) (x : Cluster) : (setCluster s n x).stations = s.stations := rfl
@[simp] theorem setCluster_ctxs (n : Nat) (x : Cluster) : (setCluster s n x).ctxs = s.ctxs := rfl
@[simp] theorem setCluster_quadMove (n : Nat) (x : Cluster) : (setCluster s n x).quadMove = s.quadMove := rfl
@[simp] theorem setCluster_lastCtx (n : Nat) (x : Cluster) : (setCluster s n x).lastCtx = s.lastCtx := rfl
@[simp] theorem setCluster_graphs (n : Nat) (x : Cluster) : (setCluster s n x).graphs = s.graphs := rfl
@[simp] theorem setCluster_posted (n : Nat) (x : Cluster) : (setCluster s n x).posted = s.posted := rfl
@[simp] theorem setCluster_copies (n : Nat) (x : Cluster) : (setCluster s n x).copies = s.copies := rfl
@[simp] theorem setCluster_copyNext (n : Nat) (x : Cluster) : (setCluster s n x).copyNext = s.copyNext := rfl
@[simp] theorem setCluster_transit (n : Nat) (x : Cluster) : (setCluster s n x).transit = s.transit := rfl
@[simp] theorem setCluster_marksT (n : Nat) (x : Cluster) : (setCluster s n x).marksT = s.marksT := rfl
@[simp] theorem setCluster_devPark (n : Nat) (x : Cluster) : (setCluster s n x).devPark = s.devPark := rfl
@[simp] theorem setCluster_heldMsgs (n : Nat) (x : Cluster) : (setCluster s n x).heldMsgs = s.heldMsgs := rfl
@[simp] theorem setCluster_asyncs (n : Nat) (x : Cluster) : (setCluster s n x).asyncs = s.asyncs := rfl
@[simp] theorem setCluster_fabric (n : Nat) (x : Cluster) : (setCluster s n x).fabric = s.fabric := rfl
@[simp] theorem setCluster_net (n : Nat) (x : Cluster) : (setCluster s n x).net = s.net := rfl
@[simp] theorem setCluster_flog (n : Nat) (x : Cluster) : (setCluster s n x).flog = s.flog := rfl
@[simp] theorem setCluster_rAcct (n : Nat) (x : Cluster) : (setCluster s n x).rAcct = s.rAcct := rfl
@[simp] theorem setCluster_rTrace (n : Nat) (x : Cluster) : (setCluster s n x).rTrace = s.rTrace := rfl
@[simp] theorem setCluster_rSample (n : Nat) (x : Cluster) : (setCluster s n x).rSample = s.rSample := rfl
@[simp] theorem setCluster_lastFaults (n : Nat) (x : Cluster) : (setCluster s n x).lastFaults = s.lastFaults := rfl
@[simp] theorem setCluster_power (n : Nat) (x : Cluster) : (setCluster s n x).power = s.power := rfl
@[simp] theorem setCluster_fw (n : Nat) (x : Cluster) : (setCluster s n x).fw = s.fw := rfl
@[simp] theorem setCluster_dgauges (n : Nat) (x : Cluster) : (setCluster s n x).dgauges = s.dgauges := rfl
@[simp] theorem setCluster_msix (n : Nat) (x : Cluster) : (setCluster s n x).msix = s.msix := rfl
@[simp] theorem setCluster_hostOut (n : Nat) (x : Cluster) : (setCluster s n x).hostOut = s.hostOut := rfl
@[simp] theorem setCluster_cur (n : Nat) (x : Cluster) : (setCluster s n x).cur = s.cur := rfl
@[simp] theorem setCluster_agenda (n : Nat) (x : Cluster) : (setCluster s n x).agenda = s.agenda := rfl
@[simp] theorem setCluster_turn (n : Nat) (x : Cluster) : (setCluster s n x).turn = s.turn := rfl
@[simp] theorem setCluster_fresh (n : Nat) (x : Cluster) : (setCluster s n x).fresh = s.fresh := rfl
@[simp] theorem setCluster_gddr (n : Nat) (x : Cluster) : (setCluster s n x).gddr = s.gddr := rfl
@[simp] theorem setCluster_lpddr (n : Nat) (x : Cluster) : (setCluster s n x).lpddr = s.lpddr := rfl
@[simp] theorem setCluster_arrNext (n : Nat) (x : Cluster) : (setCluster s n x).arrNext = s.arrNext := rfl
@[simp] theorem setCluster_dirty (n : Nat) (x : Cluster) : (setCluster s n x).dirty = s.dirty := rfl
@[simp] theorem setCluster_repPend (n : Nat) (x : Cluster) : (setCluster s n x).repPend = s.repPend := rfl

@[simp] theorem setPair_mem (n : Nat) (x : Pair) : (setPair s n x).mem = s.mem := rfl
@[simp] theorem setPair_fe (n : Nat) (x : Pair) : (setPair s n x).fe = s.fe := rfl
@[simp] theorem setPair_bad (n : Nat) (x : Pair) : (setPair s n x).bad = s.bad := rfl
@[simp] theorem setPair_wall (n : Nat) (x : Pair) : (setPair s n x).wall = s.wall := rfl
@[simp] theorem setPair_cores (n : Nat) (x : Pair) : (setPair s n x).cores = s.cores := rfl
@[simp] theorem setPair_absent (n : Nat) (x : Pair) : (setPair s n x).absent = s.absent := rfl
@[simp] theorem setPair_clusters (n : Nat) (x : Pair) : (setPair s n x).clusters = s.clusters := rfl
@[simp] theorem setPair_stations (n : Nat) (x : Pair) : (setPair s n x).stations = s.stations := rfl
@[simp] theorem setPair_ctxs (n : Nat) (x : Pair) : (setPair s n x).ctxs = s.ctxs := rfl
@[simp] theorem setPair_quadMove (n : Nat) (x : Pair) : (setPair s n x).quadMove = s.quadMove := rfl
@[simp] theorem setPair_lastCtx (n : Nat) (x : Pair) : (setPair s n x).lastCtx = s.lastCtx := rfl
@[simp] theorem setPair_graphs (n : Nat) (x : Pair) : (setPair s n x).graphs = s.graphs := rfl
@[simp] theorem setPair_posted (n : Nat) (x : Pair) : (setPair s n x).posted = s.posted := rfl
@[simp] theorem setPair_copies (n : Nat) (x : Pair) : (setPair s n x).copies = s.copies := rfl
@[simp] theorem setPair_copyNext (n : Nat) (x : Pair) : (setPair s n x).copyNext = s.copyNext := rfl
@[simp] theorem setPair_transit (n : Nat) (x : Pair) : (setPair s n x).transit = s.transit := rfl
@[simp] theorem setPair_marksT (n : Nat) (x : Pair) : (setPair s n x).marksT = s.marksT := rfl
@[simp] theorem setPair_devPark (n : Nat) (x : Pair) : (setPair s n x).devPark = s.devPark := rfl
@[simp] theorem setPair_heldMsgs (n : Nat) (x : Pair) : (setPair s n x).heldMsgs = s.heldMsgs := rfl
@[simp] theorem setPair_asyncs (n : Nat) (x : Pair) : (setPair s n x).asyncs = s.asyncs := rfl
@[simp] theorem setPair_fabric (n : Nat) (x : Pair) : (setPair s n x).fabric = s.fabric := rfl
@[simp] theorem setPair_net (n : Nat) (x : Pair) : (setPair s n x).net = s.net := rfl
@[simp] theorem setPair_flog (n : Nat) (x : Pair) : (setPair s n x).flog = s.flog := rfl
@[simp] theorem setPair_rAcct (n : Nat) (x : Pair) : (setPair s n x).rAcct = s.rAcct := rfl
@[simp] theorem setPair_rTrace (n : Nat) (x : Pair) : (setPair s n x).rTrace = s.rTrace := rfl
@[simp] theorem setPair_rSample (n : Nat) (x : Pair) : (setPair s n x).rSample = s.rSample := rfl
@[simp] theorem setPair_lastFaults (n : Nat) (x : Pair) : (setPair s n x).lastFaults = s.lastFaults := rfl
@[simp] theorem setPair_power (n : Nat) (x : Pair) : (setPair s n x).power = s.power := rfl
@[simp] theorem setPair_fw (n : Nat) (x : Pair) : (setPair s n x).fw = s.fw := rfl
@[simp] theorem setPair_dgauges (n : Nat) (x : Pair) : (setPair s n x).dgauges = s.dgauges := rfl
@[simp] theorem setPair_msix (n : Nat) (x : Pair) : (setPair s n x).msix = s.msix := rfl
@[simp] theorem setPair_hostOut (n : Nat) (x : Pair) : (setPair s n x).hostOut = s.hostOut := rfl
@[simp] theorem setPair_cur (n : Nat) (x : Pair) : (setPair s n x).cur = s.cur := rfl
@[simp] theorem setPair_agenda (n : Nat) (x : Pair) : (setPair s n x).agenda = s.agenda := rfl
@[simp] theorem setPair_turn (n : Nat) (x : Pair) : (setPair s n x).turn = s.turn := rfl
@[simp] theorem setPair_fresh (n : Nat) (x : Pair) : (setPair s n x).fresh = s.fresh := rfl
@[simp] theorem setPair_gddr (n : Nat) (x : Pair) : (setPair s n x).gddr = s.gddr := rfl
@[simp] theorem setPair_lpddr (n : Nat) (x : Pair) : (setPair s n x).lpddr = s.lpddr := rfl
@[simp] theorem setPair_arrNext (n : Nat) (x : Pair) : (setPair s n x).arrNext = s.arrNext := rfl
@[simp] theorem setPair_dirty (n : Nat) (x : Pair) : (setPair s n x).dirty = s.dirty := rfl
@[simp] theorem setPair_repPend (n : Nat) (x : Pair) : (setPair s n x).repPend = s.repPend := rfl

@[simp] theorem setStation_mem (n : Nat) (x : Station) : (setStation s n x).mem = s.mem := rfl
@[simp] theorem setStation_fe (n : Nat) (x : Station) : (setStation s n x).fe = s.fe := rfl
@[simp] theorem setStation_bad (n : Nat) (x : Station) : (setStation s n x).bad = s.bad := rfl
@[simp] theorem setStation_wall (n : Nat) (x : Station) : (setStation s n x).wall = s.wall := rfl
@[simp] theorem setStation_cores (n : Nat) (x : Station) : (setStation s n x).cores = s.cores := rfl
@[simp] theorem setStation_absent (n : Nat) (x : Station) : (setStation s n x).absent = s.absent := rfl
@[simp] theorem setStation_clusters (n : Nat) (x : Station) : (setStation s n x).clusters = s.clusters := rfl
@[simp] theorem setStation_pairs (n : Nat) (x : Station) : (setStation s n x).pairs = s.pairs := rfl
@[simp] theorem setStation_ctxs (n : Nat) (x : Station) : (setStation s n x).ctxs = s.ctxs := rfl
@[simp] theorem setStation_quadMove (n : Nat) (x : Station) : (setStation s n x).quadMove = s.quadMove := rfl
@[simp] theorem setStation_lastCtx (n : Nat) (x : Station) : (setStation s n x).lastCtx = s.lastCtx := rfl
@[simp] theorem setStation_graphs (n : Nat) (x : Station) : (setStation s n x).graphs = s.graphs := rfl
@[simp] theorem setStation_posted (n : Nat) (x : Station) : (setStation s n x).posted = s.posted := rfl
@[simp] theorem setStation_copies (n : Nat) (x : Station) : (setStation s n x).copies = s.copies := rfl
@[simp] theorem setStation_copyNext (n : Nat) (x : Station) : (setStation s n x).copyNext = s.copyNext := rfl
@[simp] theorem setStation_transit (n : Nat) (x : Station) : (setStation s n x).transit = s.transit := rfl
@[simp] theorem setStation_marksT (n : Nat) (x : Station) : (setStation s n x).marksT = s.marksT := rfl
@[simp] theorem setStation_devPark (n : Nat) (x : Station) : (setStation s n x).devPark = s.devPark := rfl
@[simp] theorem setStation_heldMsgs (n : Nat) (x : Station) : (setStation s n x).heldMsgs = s.heldMsgs := rfl
@[simp] theorem setStation_asyncs (n : Nat) (x : Station) : (setStation s n x).asyncs = s.asyncs := rfl
@[simp] theorem setStation_fabric (n : Nat) (x : Station) : (setStation s n x).fabric = s.fabric := rfl
@[simp] theorem setStation_net (n : Nat) (x : Station) : (setStation s n x).net = s.net := rfl
@[simp] theorem setStation_flog (n : Nat) (x : Station) : (setStation s n x).flog = s.flog := rfl
@[simp] theorem setStation_rAcct (n : Nat) (x : Station) : (setStation s n x).rAcct = s.rAcct := rfl
@[simp] theorem setStation_rTrace (n : Nat) (x : Station) : (setStation s n x).rTrace = s.rTrace := rfl
@[simp] theorem setStation_rSample (n : Nat) (x : Station) : (setStation s n x).rSample = s.rSample := rfl
@[simp] theorem setStation_lastFaults (n : Nat) (x : Station) : (setStation s n x).lastFaults = s.lastFaults := rfl
@[simp] theorem setStation_power (n : Nat) (x : Station) : (setStation s n x).power = s.power := rfl
@[simp] theorem setStation_fw (n : Nat) (x : Station) : (setStation s n x).fw = s.fw := rfl
@[simp] theorem setStation_dgauges (n : Nat) (x : Station) : (setStation s n x).dgauges = s.dgauges := rfl
@[simp] theorem setStation_msix (n : Nat) (x : Station) : (setStation s n x).msix = s.msix := rfl
@[simp] theorem setStation_hostOut (n : Nat) (x : Station) : (setStation s n x).hostOut = s.hostOut := rfl
@[simp] theorem setStation_cur (n : Nat) (x : Station) : (setStation s n x).cur = s.cur := rfl
@[simp] theorem setStation_agenda (n : Nat) (x : Station) : (setStation s n x).agenda = s.agenda := rfl
@[simp] theorem setStation_turn (n : Nat) (x : Station) : (setStation s n x).turn = s.turn := rfl
@[simp] theorem setStation_fresh (n : Nat) (x : Station) : (setStation s n x).fresh = s.fresh := rfl
@[simp] theorem setStation_gddr (n : Nat) (x : Station) : (setStation s n x).gddr = s.gddr := rfl
@[simp] theorem setStation_lpddr (n : Nat) (x : Station) : (setStation s n x).lpddr = s.lpddr := rfl
@[simp] theorem setStation_arrNext (n : Nat) (x : Station) : (setStation s n x).arrNext = s.arrNext := rfl
@[simp] theorem setStation_dirty (n : Nat) (x : Station) : (setStation s n x).dirty = s.dirty := rfl
@[simp] theorem setStation_repPend (n : Nat) (x : Station) : (setStation s n x).repPend = s.repPend := rfl

@[simp] theorem setCtx_mem (n : Nat) (x : LaunchCtx) : (setCtx s n x).mem = s.mem := rfl
@[simp] theorem setCtx_fe (n : Nat) (x : LaunchCtx) : (setCtx s n x).fe = s.fe := rfl
@[simp] theorem setCtx_bad (n : Nat) (x : LaunchCtx) : (setCtx s n x).bad = s.bad := rfl
@[simp] theorem setCtx_wall (n : Nat) (x : LaunchCtx) : (setCtx s n x).wall = s.wall := rfl
@[simp] theorem setCtx_cores (n : Nat) (x : LaunchCtx) : (setCtx s n x).cores = s.cores := rfl
@[simp] theorem setCtx_absent (n : Nat) (x : LaunchCtx) : (setCtx s n x).absent = s.absent := rfl
@[simp] theorem setCtx_clusters (n : Nat) (x : LaunchCtx) : (setCtx s n x).clusters = s.clusters := rfl
@[simp] theorem setCtx_pairs (n : Nat) (x : LaunchCtx) : (setCtx s n x).pairs = s.pairs := rfl
@[simp] theorem setCtx_stations (n : Nat) (x : LaunchCtx) : (setCtx s n x).stations = s.stations := rfl
@[simp] theorem setCtx_quadMove (n : Nat) (x : LaunchCtx) : (setCtx s n x).quadMove = s.quadMove := rfl
@[simp] theorem setCtx_lastCtx (n : Nat) (x : LaunchCtx) : (setCtx s n x).lastCtx = s.lastCtx := rfl
@[simp] theorem setCtx_graphs (n : Nat) (x : LaunchCtx) : (setCtx s n x).graphs = s.graphs := rfl
@[simp] theorem setCtx_posted (n : Nat) (x : LaunchCtx) : (setCtx s n x).posted = s.posted := rfl
@[simp] theorem setCtx_copies (n : Nat) (x : LaunchCtx) : (setCtx s n x).copies = s.copies := rfl
@[simp] theorem setCtx_copyNext (n : Nat) (x : LaunchCtx) : (setCtx s n x).copyNext = s.copyNext := rfl
@[simp] theorem setCtx_transit (n : Nat) (x : LaunchCtx) : (setCtx s n x).transit = s.transit := rfl
@[simp] theorem setCtx_marksT (n : Nat) (x : LaunchCtx) : (setCtx s n x).marksT = s.marksT := rfl
@[simp] theorem setCtx_devPark (n : Nat) (x : LaunchCtx) : (setCtx s n x).devPark = s.devPark := rfl
@[simp] theorem setCtx_heldMsgs (n : Nat) (x : LaunchCtx) : (setCtx s n x).heldMsgs = s.heldMsgs := rfl
@[simp] theorem setCtx_asyncs (n : Nat) (x : LaunchCtx) : (setCtx s n x).asyncs = s.asyncs := rfl
@[simp] theorem setCtx_fabric (n : Nat) (x : LaunchCtx) : (setCtx s n x).fabric = s.fabric := rfl
@[simp] theorem setCtx_net (n : Nat) (x : LaunchCtx) : (setCtx s n x).net = s.net := rfl
@[simp] theorem setCtx_flog (n : Nat) (x : LaunchCtx) : (setCtx s n x).flog = s.flog := rfl
@[simp] theorem setCtx_rAcct (n : Nat) (x : LaunchCtx) : (setCtx s n x).rAcct = s.rAcct := rfl
@[simp] theorem setCtx_rTrace (n : Nat) (x : LaunchCtx) : (setCtx s n x).rTrace = s.rTrace := rfl
@[simp] theorem setCtx_rSample (n : Nat) (x : LaunchCtx) : (setCtx s n x).rSample = s.rSample := rfl
@[simp] theorem setCtx_lastFaults (n : Nat) (x : LaunchCtx) : (setCtx s n x).lastFaults = s.lastFaults := rfl
@[simp] theorem setCtx_power (n : Nat) (x : LaunchCtx) : (setCtx s n x).power = s.power := rfl
@[simp] theorem setCtx_fw (n : Nat) (x : LaunchCtx) : (setCtx s n x).fw = s.fw := rfl
@[simp] theorem setCtx_dgauges (n : Nat) (x : LaunchCtx) : (setCtx s n x).dgauges = s.dgauges := rfl
@[simp] theorem setCtx_msix (n : Nat) (x : LaunchCtx) : (setCtx s n x).msix = s.msix := rfl
@[simp] theorem setCtx_hostOut (n : Nat) (x : LaunchCtx) : (setCtx s n x).hostOut = s.hostOut := rfl
@[simp] theorem setCtx_cur (n : Nat) (x : LaunchCtx) : (setCtx s n x).cur = s.cur := rfl
@[simp] theorem setCtx_agenda (n : Nat) (x : LaunchCtx) : (setCtx s n x).agenda = s.agenda := rfl
@[simp] theorem setCtx_turn (n : Nat) (x : LaunchCtx) : (setCtx s n x).turn = s.turn := rfl
@[simp] theorem setCtx_fresh (n : Nat) (x : LaunchCtx) : (setCtx s n x).fresh = s.fresh := rfl
@[simp] theorem setCtx_gddr (n : Nat) (x : LaunchCtx) : (setCtx s n x).gddr = s.gddr := rfl
@[simp] theorem setCtx_lpddr (n : Nat) (x : LaunchCtx) : (setCtx s n x).lpddr = s.lpddr := rfl
@[simp] theorem setCtx_arrNext (n : Nat) (x : LaunchCtx) : (setCtx s n x).arrNext = s.arrNext := rfl
@[simp] theorem setCtx_dirty (n : Nat) (x : LaunchCtx) : (setCtx s n x).dirty = s.dirty := rfl
@[simp] theorem setCtx_repPend (n : Nat) (x : LaunchCtx) : (setCtx s n x).repPend = s.repPend := rfl

@[simp] theorem updGraph_mem (g : Nat) (f : Graph → Graph) : (updGraph s g f).mem = s.mem := rfl
@[simp] theorem updGraph_fe (g : Nat) (f : Graph → Graph) : (updGraph s g f).fe = s.fe := rfl
@[simp] theorem updGraph_bad (g : Nat) (f : Graph → Graph) : (updGraph s g f).bad = s.bad := rfl
@[simp] theorem updGraph_wall (g : Nat) (f : Graph → Graph) : (updGraph s g f).wall = s.wall := rfl
@[simp] theorem updGraph_cores (g : Nat) (f : Graph → Graph) : (updGraph s g f).cores = s.cores := rfl
@[simp] theorem updGraph_absent (g : Nat) (f : Graph → Graph) : (updGraph s g f).absent = s.absent := rfl
@[simp] theorem updGraph_clusters (g : Nat) (f : Graph → Graph) : (updGraph s g f).clusters = s.clusters := rfl
@[simp] theorem updGraph_pairs (g : Nat) (f : Graph → Graph) : (updGraph s g f).pairs = s.pairs := rfl
@[simp] theorem updGraph_stations (g : Nat) (f : Graph → Graph) : (updGraph s g f).stations = s.stations := rfl
@[simp] theorem updGraph_ctxs (g : Nat) (f : Graph → Graph) : (updGraph s g f).ctxs = s.ctxs := rfl
@[simp] theorem updGraph_quadMove (g : Nat) (f : Graph → Graph) : (updGraph s g f).quadMove = s.quadMove := rfl
@[simp] theorem updGraph_lastCtx (g : Nat) (f : Graph → Graph) : (updGraph s g f).lastCtx = s.lastCtx := rfl
@[simp] theorem updGraph_posted (g : Nat) (f : Graph → Graph) : (updGraph s g f).posted = s.posted := rfl
@[simp] theorem updGraph_copies (g : Nat) (f : Graph → Graph) : (updGraph s g f).copies = s.copies := rfl
@[simp] theorem updGraph_copyNext (g : Nat) (f : Graph → Graph) : (updGraph s g f).copyNext = s.copyNext := rfl
@[simp] theorem updGraph_transit (g : Nat) (f : Graph → Graph) : (updGraph s g f).transit = s.transit := rfl
@[simp] theorem updGraph_marksT (g : Nat) (f : Graph → Graph) : (updGraph s g f).marksT = s.marksT := rfl
@[simp] theorem updGraph_devPark (g : Nat) (f : Graph → Graph) : (updGraph s g f).devPark = s.devPark := rfl
@[simp] theorem updGraph_heldMsgs (g : Nat) (f : Graph → Graph) : (updGraph s g f).heldMsgs = s.heldMsgs := rfl
@[simp] theorem updGraph_asyncs (g : Nat) (f : Graph → Graph) : (updGraph s g f).asyncs = s.asyncs := rfl
@[simp] theorem updGraph_fabric (g : Nat) (f : Graph → Graph) : (updGraph s g f).fabric = s.fabric := rfl
@[simp] theorem updGraph_net (g : Nat) (f : Graph → Graph) : (updGraph s g f).net = s.net := rfl
@[simp] theorem updGraph_flog (g : Nat) (f : Graph → Graph) : (updGraph s g f).flog = s.flog := rfl
@[simp] theorem updGraph_rAcct (g : Nat) (f : Graph → Graph) : (updGraph s g f).rAcct = s.rAcct := rfl
@[simp] theorem updGraph_rTrace (g : Nat) (f : Graph → Graph) : (updGraph s g f).rTrace = s.rTrace := rfl
@[simp] theorem updGraph_rSample (g : Nat) (f : Graph → Graph) : (updGraph s g f).rSample = s.rSample := rfl
@[simp] theorem updGraph_lastFaults (g : Nat) (f : Graph → Graph) : (updGraph s g f).lastFaults = s.lastFaults := rfl
@[simp] theorem updGraph_power (g : Nat) (f : Graph → Graph) : (updGraph s g f).power = s.power := rfl
@[simp] theorem updGraph_fw (g : Nat) (f : Graph → Graph) : (updGraph s g f).fw = s.fw := rfl
@[simp] theorem updGraph_dgauges (g : Nat) (f : Graph → Graph) : (updGraph s g f).dgauges = s.dgauges := rfl
@[simp] theorem updGraph_msix (g : Nat) (f : Graph → Graph) : (updGraph s g f).msix = s.msix := rfl
@[simp] theorem updGraph_hostOut (g : Nat) (f : Graph → Graph) : (updGraph s g f).hostOut = s.hostOut := rfl
@[simp] theorem updGraph_cur (g : Nat) (f : Graph → Graph) : (updGraph s g f).cur = s.cur := rfl
@[simp] theorem updGraph_agenda (g : Nat) (f : Graph → Graph) : (updGraph s g f).agenda = s.agenda := rfl
@[simp] theorem updGraph_turn (g : Nat) (f : Graph → Graph) : (updGraph s g f).turn = s.turn := rfl
@[simp] theorem updGraph_fresh (g : Nat) (f : Graph → Graph) : (updGraph s g f).fresh = s.fresh := rfl
@[simp] theorem updGraph_gddr (g : Nat) (f : Graph → Graph) : (updGraph s g f).gddr = s.gddr := rfl
@[simp] theorem updGraph_lpddr (g : Nat) (f : Graph → Graph) : (updGraph s g f).lpddr = s.lpddr := rfl
@[simp] theorem updGraph_arrNext (g : Nat) (f : Graph → Graph) : (updGraph s g f).arrNext = s.arrNext := rfl
@[simp] theorem updGraph_dirty (g : Nat) (f : Graph → Graph) : (updGraph s g f).dirty = s.dirty := rfl
@[simp] theorem updGraph_repPend (g : Nat) (f : Graph → Graph) : (updGraph s g f).repPend = s.repPend := rfl

@[simp] theorem updFab_mem (f : Fabric → Fabric) : (updFab s f).mem = s.mem := rfl
@[simp] theorem updFab_fe (f : Fabric → Fabric) : (updFab s f).fe = s.fe := rfl
@[simp] theorem updFab_bad (f : Fabric → Fabric) : (updFab s f).bad = s.bad := rfl
@[simp] theorem updFab_wall (f : Fabric → Fabric) : (updFab s f).wall = s.wall := rfl
@[simp] theorem updFab_cores (f : Fabric → Fabric) : (updFab s f).cores = s.cores := rfl
@[simp] theorem updFab_absent (f : Fabric → Fabric) : (updFab s f).absent = s.absent := rfl
@[simp] theorem updFab_clusters (f : Fabric → Fabric) : (updFab s f).clusters = s.clusters := rfl
@[simp] theorem updFab_pairs (f : Fabric → Fabric) : (updFab s f).pairs = s.pairs := rfl
@[simp] theorem updFab_stations (f : Fabric → Fabric) : (updFab s f).stations = s.stations := rfl
@[simp] theorem updFab_ctxs (f : Fabric → Fabric) : (updFab s f).ctxs = s.ctxs := rfl
@[simp] theorem updFab_quadMove (f : Fabric → Fabric) : (updFab s f).quadMove = s.quadMove := rfl
@[simp] theorem updFab_lastCtx (f : Fabric → Fabric) : (updFab s f).lastCtx = s.lastCtx := rfl
@[simp] theorem updFab_graphs (f : Fabric → Fabric) : (updFab s f).graphs = s.graphs := rfl
@[simp] theorem updFab_posted (f : Fabric → Fabric) : (updFab s f).posted = s.posted := rfl
@[simp] theorem updFab_copies (f : Fabric → Fabric) : (updFab s f).copies = s.copies := rfl
@[simp] theorem updFab_copyNext (f : Fabric → Fabric) : (updFab s f).copyNext = s.copyNext := rfl
@[simp] theorem updFab_transit (f : Fabric → Fabric) : (updFab s f).transit = s.transit := rfl
@[simp] theorem updFab_marksT (f : Fabric → Fabric) : (updFab s f).marksT = s.marksT := rfl
@[simp] theorem updFab_devPark (f : Fabric → Fabric) : (updFab s f).devPark = s.devPark := rfl
@[simp] theorem updFab_heldMsgs (f : Fabric → Fabric) : (updFab s f).heldMsgs = s.heldMsgs := rfl
@[simp] theorem updFab_asyncs (f : Fabric → Fabric) : (updFab s f).asyncs = s.asyncs := rfl
@[simp] theorem updFab_net (f : Fabric → Fabric) : (updFab s f).net = s.net := rfl
@[simp] theorem updFab_flog (f : Fabric → Fabric) : (updFab s f).flog = s.flog := rfl
@[simp] theorem updFab_rAcct (f : Fabric → Fabric) : (updFab s f).rAcct = s.rAcct := rfl
@[simp] theorem updFab_rTrace (f : Fabric → Fabric) : (updFab s f).rTrace = s.rTrace := rfl
@[simp] theorem updFab_rSample (f : Fabric → Fabric) : (updFab s f).rSample = s.rSample := rfl
@[simp] theorem updFab_lastFaults (f : Fabric → Fabric) : (updFab s f).lastFaults = s.lastFaults := rfl
@[simp] theorem updFab_power (f : Fabric → Fabric) : (updFab s f).power = s.power := rfl
@[simp] theorem updFab_fw (f : Fabric → Fabric) : (updFab s f).fw = s.fw := rfl
@[simp] theorem updFab_dgauges (f : Fabric → Fabric) : (updFab s f).dgauges = s.dgauges := rfl
@[simp] theorem updFab_msix (f : Fabric → Fabric) : (updFab s f).msix = s.msix := rfl
@[simp] theorem updFab_hostOut (f : Fabric → Fabric) : (updFab s f).hostOut = s.hostOut := rfl
@[simp] theorem updFab_cur (f : Fabric → Fabric) : (updFab s f).cur = s.cur := rfl
@[simp] theorem updFab_agenda (f : Fabric → Fabric) : (updFab s f).agenda = s.agenda := rfl
@[simp] theorem updFab_turn (f : Fabric → Fabric) : (updFab s f).turn = s.turn := rfl
@[simp] theorem updFab_fresh (f : Fabric → Fabric) : (updFab s f).fresh = s.fresh := rfl
@[simp] theorem updFab_gddr (f : Fabric → Fabric) : (updFab s f).gddr = s.gddr := rfl
@[simp] theorem updFab_lpddr (f : Fabric → Fabric) : (updFab s f).lpddr = s.lpddr := rfl
@[simp] theorem updFab_arrNext (f : Fabric → Fabric) : (updFab s f).arrNext = s.arrNext := rfl
@[simp] theorem updFab_dirty (f : Fabric → Fabric) : (updFab s f).dirty = s.dirty := rfl
@[simp] theorem updFab_repPend (f : Fabric → Fabric) : (updFab s f).repPend = s.repPend := rfl

@[simp] theorem updPower_mem (f : Power → Power) : (updPower s f).mem = s.mem := rfl
@[simp] theorem updPower_fe (f : Power → Power) : (updPower s f).fe = s.fe := rfl
@[simp] theorem updPower_bad (f : Power → Power) : (updPower s f).bad = s.bad := rfl
@[simp] theorem updPower_wall (f : Power → Power) : (updPower s f).wall = s.wall := rfl
@[simp] theorem updPower_cores (f : Power → Power) : (updPower s f).cores = s.cores := rfl
@[simp] theorem updPower_absent (f : Power → Power) : (updPower s f).absent = s.absent := rfl
@[simp] theorem updPower_clusters (f : Power → Power) : (updPower s f).clusters = s.clusters := rfl
@[simp] theorem updPower_pairs (f : Power → Power) : (updPower s f).pairs = s.pairs := rfl
@[simp] theorem updPower_stations (f : Power → Power) : (updPower s f).stations = s.stations := rfl
@[simp] theorem updPower_ctxs (f : Power → Power) : (updPower s f).ctxs = s.ctxs := rfl
@[simp] theorem updPower_quadMove (f : Power → Power) : (updPower s f).quadMove = s.quadMove := rfl
@[simp] theorem updPower_lastCtx (f : Power → Power) : (updPower s f).lastCtx = s.lastCtx := rfl
@[simp] theorem updPower_graphs (f : Power → Power) : (updPower s f).graphs = s.graphs := rfl
@[simp] theorem updPower_posted (f : Power → Power) : (updPower s f).posted = s.posted := rfl
@[simp] theorem updPower_copies (f : Power → Power) : (updPower s f).copies = s.copies := rfl
@[simp] theorem updPower_copyNext (f : Power → Power) : (updPower s f).copyNext = s.copyNext := rfl
@[simp] theorem updPower_transit (f : Power → Power) : (updPower s f).transit = s.transit := rfl
@[simp] theorem updPower_marksT (f : Power → Power) : (updPower s f).marksT = s.marksT := rfl
@[simp] theorem updPower_devPark (f : Power → Power) : (updPower s f).devPark = s.devPark := rfl
@[simp] theorem updPower_heldMsgs (f : Power → Power) : (updPower s f).heldMsgs = s.heldMsgs := rfl
@[simp] theorem updPower_asyncs (f : Power → Power) : (updPower s f).asyncs = s.asyncs := rfl
@[simp] theorem updPower_fabric (f : Power → Power) : (updPower s f).fabric = s.fabric := rfl
@[simp] theorem updPower_net (f : Power → Power) : (updPower s f).net = s.net := rfl
@[simp] theorem updPower_flog (f : Power → Power) : (updPower s f).flog = s.flog := rfl
@[simp] theorem updPower_rAcct (f : Power → Power) : (updPower s f).rAcct = s.rAcct := rfl
@[simp] theorem updPower_rTrace (f : Power → Power) : (updPower s f).rTrace = s.rTrace := rfl
@[simp] theorem updPower_rSample (f : Power → Power) : (updPower s f).rSample = s.rSample := rfl
@[simp] theorem updPower_lastFaults (f : Power → Power) : (updPower s f).lastFaults = s.lastFaults := rfl
@[simp] theorem updPower_fw (f : Power → Power) : (updPower s f).fw = s.fw := rfl
@[simp] theorem updPower_dgauges (f : Power → Power) : (updPower s f).dgauges = s.dgauges := rfl
@[simp] theorem updPower_msix (f : Power → Power) : (updPower s f).msix = s.msix := rfl
@[simp] theorem updPower_hostOut (f : Power → Power) : (updPower s f).hostOut = s.hostOut := rfl
@[simp] theorem updPower_cur (f : Power → Power) : (updPower s f).cur = s.cur := rfl
@[simp] theorem updPower_agenda (f : Power → Power) : (updPower s f).agenda = s.agenda := rfl
@[simp] theorem updPower_turn (f : Power → Power) : (updPower s f).turn = s.turn := rfl
@[simp] theorem updPower_fresh (f : Power → Power) : (updPower s f).fresh = s.fresh := rfl
@[simp] theorem updPower_gddr (f : Power → Power) : (updPower s f).gddr = s.gddr := rfl
@[simp] theorem updPower_lpddr (f : Power → Power) : (updPower s f).lpddr = s.lpddr := rfl
@[simp] theorem updPower_arrNext (f : Power → Power) : (updPower s f).arrNext = s.arrNext := rfl
@[simp] theorem updPower_dirty (f : Power → Power) : (updPower s f).dirty = s.dirty := rfl
@[simp] theorem updPower_repPend (f : Power → Power) : (updPower s f).repPend = s.repPend := rfl

@[simp] theorem updFw_mem (f : Fw → Fw) : (updFw s f).mem = s.mem := rfl
@[simp] theorem updFw_fe (f : Fw → Fw) : (updFw s f).fe = s.fe := rfl
@[simp] theorem updFw_bad (f : Fw → Fw) : (updFw s f).bad = s.bad := rfl
@[simp] theorem updFw_wall (f : Fw → Fw) : (updFw s f).wall = s.wall := rfl
@[simp] theorem updFw_cores (f : Fw → Fw) : (updFw s f).cores = s.cores := rfl
@[simp] theorem updFw_absent (f : Fw → Fw) : (updFw s f).absent = s.absent := rfl
@[simp] theorem updFw_clusters (f : Fw → Fw) : (updFw s f).clusters = s.clusters := rfl
@[simp] theorem updFw_pairs (f : Fw → Fw) : (updFw s f).pairs = s.pairs := rfl
@[simp] theorem updFw_stations (f : Fw → Fw) : (updFw s f).stations = s.stations := rfl
@[simp] theorem updFw_ctxs (f : Fw → Fw) : (updFw s f).ctxs = s.ctxs := rfl
@[simp] theorem updFw_quadMove (f : Fw → Fw) : (updFw s f).quadMove = s.quadMove := rfl
@[simp] theorem updFw_lastCtx (f : Fw → Fw) : (updFw s f).lastCtx = s.lastCtx := rfl
@[simp] theorem updFw_graphs (f : Fw → Fw) : (updFw s f).graphs = s.graphs := rfl
@[simp] theorem updFw_posted (f : Fw → Fw) : (updFw s f).posted = s.posted := rfl
@[simp] theorem updFw_copies (f : Fw → Fw) : (updFw s f).copies = s.copies := rfl
@[simp] theorem updFw_copyNext (f : Fw → Fw) : (updFw s f).copyNext = s.copyNext := rfl
@[simp] theorem updFw_transit (f : Fw → Fw) : (updFw s f).transit = s.transit := rfl
@[simp] theorem updFw_marksT (f : Fw → Fw) : (updFw s f).marksT = s.marksT := rfl
@[simp] theorem updFw_devPark (f : Fw → Fw) : (updFw s f).devPark = s.devPark := rfl
@[simp] theorem updFw_heldMsgs (f : Fw → Fw) : (updFw s f).heldMsgs = s.heldMsgs := rfl
@[simp] theorem updFw_asyncs (f : Fw → Fw) : (updFw s f).asyncs = s.asyncs := rfl
@[simp] theorem updFw_fabric (f : Fw → Fw) : (updFw s f).fabric = s.fabric := rfl
@[simp] theorem updFw_net (f : Fw → Fw) : (updFw s f).net = s.net := rfl
@[simp] theorem updFw_flog (f : Fw → Fw) : (updFw s f).flog = s.flog := rfl
@[simp] theorem updFw_rAcct (f : Fw → Fw) : (updFw s f).rAcct = s.rAcct := rfl
@[simp] theorem updFw_rTrace (f : Fw → Fw) : (updFw s f).rTrace = s.rTrace := rfl
@[simp] theorem updFw_rSample (f : Fw → Fw) : (updFw s f).rSample = s.rSample := rfl
@[simp] theorem updFw_lastFaults (f : Fw → Fw) : (updFw s f).lastFaults = s.lastFaults := rfl
@[simp] theorem updFw_power (f : Fw → Fw) : (updFw s f).power = s.power := rfl
@[simp] theorem updFw_dgauges (f : Fw → Fw) : (updFw s f).dgauges = s.dgauges := rfl
@[simp] theorem updFw_msix (f : Fw → Fw) : (updFw s f).msix = s.msix := rfl
@[simp] theorem updFw_hostOut (f : Fw → Fw) : (updFw s f).hostOut = s.hostOut := rfl
@[simp] theorem updFw_cur (f : Fw → Fw) : (updFw s f).cur = s.cur := rfl
@[simp] theorem updFw_agenda (f : Fw → Fw) : (updFw s f).agenda = s.agenda := rfl
@[simp] theorem updFw_turn (f : Fw → Fw) : (updFw s f).turn = s.turn := rfl
@[simp] theorem updFw_fresh (f : Fw → Fw) : (updFw s f).fresh = s.fresh := rfl
@[simp] theorem updFw_gddr (f : Fw → Fw) : (updFw s f).gddr = s.gddr := rfl
@[simp] theorem updFw_lpddr (f : Fw → Fw) : (updFw s f).lpddr = s.lpddr := rfl
@[simp] theorem updFw_arrNext (f : Fw → Fw) : (updFw s f).arrNext = s.arrNext := rfl
@[simp] theorem updFw_dirty (f : Fw → Fw) : (updFw s f).dirty = s.dirty := rfl
@[simp] theorem updFw_repPend (f : Fw → Fw) : (updFw s f).repPend = s.repPend := rfl

@[simp] theorem raiseAsync_mem (g t : Nat) (o : Bool) (e : Event) : (raiseAsync s g t o e).mem = s.mem := rfl
@[simp] theorem raiseAsync_fe (g t : Nat) (o : Bool) (e : Event) : (raiseAsync s g t o e).fe = s.fe := rfl
@[simp] theorem raiseAsync_bad (g t : Nat) (o : Bool) (e : Event) : (raiseAsync s g t o e).bad = s.bad := rfl
@[simp] theorem raiseAsync_wall (g t : Nat) (o : Bool) (e : Event) : (raiseAsync s g t o e).wall = s.wall := rfl
@[simp] theorem raiseAsync_cores (g t : Nat) (o : Bool) (e : Event) : (raiseAsync s g t o e).cores = s.cores := rfl
@[simp] theorem raiseAsync_absent (g t : Nat) (o : Bool) (e : Event) : (raiseAsync s g t o e).absent = s.absent := rfl
@[simp] theorem raiseAsync_clusters (g t : Nat) (o : Bool) (e : Event) : (raiseAsync s g t o e).clusters = s.clusters := rfl
@[simp] theorem raiseAsync_pairs (g t : Nat) (o : Bool) (e : Event) : (raiseAsync s g t o e).pairs = s.pairs := rfl
@[simp] theorem raiseAsync_stations (g t : Nat) (o : Bool) (e : Event) : (raiseAsync s g t o e).stations = s.stations := rfl
@[simp] theorem raiseAsync_ctxs (g t : Nat) (o : Bool) (e : Event) : (raiseAsync s g t o e).ctxs = s.ctxs := rfl
@[simp] theorem raiseAsync_quadMove (g t : Nat) (o : Bool) (e : Event) : (raiseAsync s g t o e).quadMove = s.quadMove := rfl
@[simp] theorem raiseAsync_lastCtx (g t : Nat) (o : Bool) (e : Event) : (raiseAsync s g t o e).lastCtx = s.lastCtx := rfl
@[simp] theorem raiseAsync_graphs (g t : Nat) (o : Bool) (e : Event) : (raiseAsync s g t o e).graphs = s.graphs := rfl
@[simp] theorem raiseAsync_posted (g t : Nat) (o : Bool) (e : Event) : (raiseAsync s g t o e).posted = s.posted := rfl
@[simp] theorem raiseAsync_copies (g t : Nat) (o : Bool) (e : Event) : (raiseAsync s g t o e).copies = s.copies := rfl
@[simp] theorem raiseAsync_copyNext (g t : Nat) (o : Bool) (e : Event) : (raiseAsync s g t o e).copyNext = s.copyNext := rfl
@[simp] theorem raiseAsync_transit (g t : Nat) (o : Bool) (e : Event) : (raiseAsync s g t o e).transit = s.transit := rfl
@[simp] theorem raiseAsync_marksT (g t : Nat) (o : Bool) (e : Event) : (raiseAsync s g t o e).marksT = s.marksT := rfl
@[simp] theorem raiseAsync_devPark (g t : Nat) (o : Bool) (e : Event) : (raiseAsync s g t o e).devPark = s.devPark := rfl
@[simp] theorem raiseAsync_heldMsgs (g t : Nat) (o : Bool) (e : Event) : (raiseAsync s g t o e).heldMsgs = s.heldMsgs := rfl
@[simp] theorem raiseAsync_fabric (g t : Nat) (o : Bool) (e : Event) : (raiseAsync s g t o e).fabric = s.fabric := rfl
@[simp] theorem raiseAsync_net (g t : Nat) (o : Bool) (e : Event) : (raiseAsync s g t o e).net = s.net := rfl
@[simp] theorem raiseAsync_flog (g t : Nat) (o : Bool) (e : Event) : (raiseAsync s g t o e).flog = s.flog := rfl
@[simp] theorem raiseAsync_rAcct (g t : Nat) (o : Bool) (e : Event) : (raiseAsync s g t o e).rAcct = s.rAcct := rfl
@[simp] theorem raiseAsync_rTrace (g t : Nat) (o : Bool) (e : Event) : (raiseAsync s g t o e).rTrace = s.rTrace := rfl
@[simp] theorem raiseAsync_rSample (g t : Nat) (o : Bool) (e : Event) : (raiseAsync s g t o e).rSample = s.rSample := rfl
@[simp] theorem raiseAsync_lastFaults (g t : Nat) (o : Bool) (e : Event) : (raiseAsync s g t o e).lastFaults = s.lastFaults := rfl
@[simp] theorem raiseAsync_power (g t : Nat) (o : Bool) (e : Event) : (raiseAsync s g t o e).power = s.power := rfl
@[simp] theorem raiseAsync_fw (g t : Nat) (o : Bool) (e : Event) : (raiseAsync s g t o e).fw = s.fw := rfl
@[simp] theorem raiseAsync_dgauges (g t : Nat) (o : Bool) (e : Event) : (raiseAsync s g t o e).dgauges = s.dgauges := rfl
@[simp] theorem raiseAsync_msix (g t : Nat) (o : Bool) (e : Event) : (raiseAsync s g t o e).msix = s.msix := rfl
@[simp] theorem raiseAsync_hostOut (g t : Nat) (o : Bool) (e : Event) : (raiseAsync s g t o e).hostOut = s.hostOut := rfl
@[simp] theorem raiseAsync_cur (g t : Nat) (o : Bool) (e : Event) : (raiseAsync s g t o e).cur = s.cur := rfl
@[simp] theorem raiseAsync_agenda (g t : Nat) (o : Bool) (e : Event) : (raiseAsync s g t o e).agenda = s.agenda := rfl
@[simp] theorem raiseAsync_turn (g t : Nat) (o : Bool) (e : Event) : (raiseAsync s g t o e).turn = s.turn := rfl
@[simp] theorem raiseAsync_fresh (g t : Nat) (o : Bool) (e : Event) : (raiseAsync s g t o e).fresh = s.fresh := rfl
@[simp] theorem raiseAsync_gddr (g t : Nat) (o : Bool) (e : Event) : (raiseAsync s g t o e).gddr = s.gddr := rfl
@[simp] theorem raiseAsync_lpddr (g t : Nat) (o : Bool) (e : Event) : (raiseAsync s g t o e).lpddr = s.lpddr := rfl
@[simp] theorem raiseAsync_arrNext (g t : Nat) (o : Bool) (e : Event) : (raiseAsync s g t o e).arrNext = s.arrNext := rfl
@[simp] theorem raiseAsync_dirty (g t : Nat) (o : Bool) (e : Event) : (raiseAsync s g t o e).dirty = s.dirty := rfl
@[simp] theorem raiseAsync_repPend (g t : Nat) (o : Bool) (e : Event) : (raiseAsync s g t o e).repPend = s.repPend := rfl

@[simp] theorem writeS_mem (n : BitVec 6) (v : W64) : (writeS s n v).mem = s.mem := by
  unfold writeS
  split
  · rfl
  · split <;> rfl
@[simp] theorem writeS_fe (n : BitVec 6) (v : W64) : (writeS s n v).fe = s.fe := by
  unfold writeS
  split
  · rfl
  · split <;> rfl
@[simp] theorem writeS_bad (n : BitVec 6) (v : W64) : (writeS s n v).bad = s.bad := by
  unfold writeS
  split
  · rfl
  · split <;> rfl
@[simp] theorem writeS_wall (n : BitVec 6) (v : W64) : (writeS s n v).wall = s.wall := by
  unfold writeS
  split
  · rfl
  · split <;> rfl
@[simp] theorem writeS_absent (n : BitVec 6) (v : W64) : (writeS s n v).absent = s.absent := by
  unfold writeS
  split
  · rfl
  · split <;> rfl
@[simp] theorem writeS_clusters (n : BitVec 6) (v : W64) : (writeS s n v).clusters = s.clusters := by
  unfold writeS
  split
  · rfl
  · split <;> rfl
@[simp] theorem writeS_pairs (n : BitVec 6) (v : W64) : (writeS s n v).pairs = s.pairs := by
  unfold writeS
  split
  · rfl
  · split <;> rfl
@[simp] theorem writeS_stations (n : BitVec 6) (v : W64) : (writeS s n v).stations = s.stations := by
  unfold writeS
  split
  · rfl
  · split <;> rfl
@[simp] theorem writeS_ctxs (n : BitVec 6) (v : W64) : (writeS s n v).ctxs = s.ctxs := by
  unfold writeS
  split
  · rfl
  · split <;> rfl
@[simp] theorem writeS_quadMove (n : BitVec 6) (v : W64) : (writeS s n v).quadMove = s.quadMove := by
  unfold writeS
  split
  · rfl
  · split <;> rfl
@[simp] theorem writeS_lastCtx (n : BitVec 6) (v : W64) : (writeS s n v).lastCtx = s.lastCtx := by
  unfold writeS
  split
  · rfl
  · split <;> rfl
@[simp] theorem writeS_graphs (n : BitVec 6) (v : W64) : (writeS s n v).graphs = s.graphs := by
  unfold writeS
  split
  · rfl
  · split <;> rfl
@[simp] theorem writeS_posted (n : BitVec 6) (v : W64) : (writeS s n v).posted = s.posted := by
  unfold writeS
  split
  · rfl
  · split <;> rfl
@[simp] theorem writeS_copies (n : BitVec 6) (v : W64) : (writeS s n v).copies = s.copies := by
  unfold writeS
  split
  · rfl
  · split <;> rfl
@[simp] theorem writeS_copyNext (n : BitVec 6) (v : W64) : (writeS s n v).copyNext = s.copyNext := by
  unfold writeS
  split
  · rfl
  · split <;> rfl
@[simp] theorem writeS_transit (n : BitVec 6) (v : W64) : (writeS s n v).transit = s.transit := by
  unfold writeS
  split
  · rfl
  · split <;> rfl
@[simp] theorem writeS_marksT (n : BitVec 6) (v : W64) : (writeS s n v).marksT = s.marksT := by
  unfold writeS
  split
  · rfl
  · split <;> rfl
@[simp] theorem writeS_devPark (n : BitVec 6) (v : W64) : (writeS s n v).devPark = s.devPark := by
  unfold writeS
  split
  · rfl
  · split <;> rfl
@[simp] theorem writeS_heldMsgs (n : BitVec 6) (v : W64) : (writeS s n v).heldMsgs = s.heldMsgs := by
  unfold writeS
  split
  · rfl
  · split <;> rfl
@[simp] theorem writeS_asyncs (n : BitVec 6) (v : W64) : (writeS s n v).asyncs = s.asyncs := by
  unfold writeS
  split
  · rfl
  · split <;> rfl
@[simp] theorem writeS_fabric (n : BitVec 6) (v : W64) : (writeS s n v).fabric = s.fabric := by
  unfold writeS
  split
  · rfl
  · split <;> rfl
@[simp] theorem writeS_net (n : BitVec 6) (v : W64) : (writeS s n v).net = s.net := by
  unfold writeS
  split
  · rfl
  · split <;> rfl
@[simp] theorem writeS_flog (n : BitVec 6) (v : W64) : (writeS s n v).flog = s.flog := by
  unfold writeS
  split
  · rfl
  · split <;> rfl
@[simp] theorem writeS_rAcct (n : BitVec 6) (v : W64) : (writeS s n v).rAcct = s.rAcct := by
  unfold writeS
  split
  · rfl
  · split <;> rfl
@[simp] theorem writeS_rTrace (n : BitVec 6) (v : W64) : (writeS s n v).rTrace = s.rTrace := by
  unfold writeS
  split
  · rfl
  · split <;> rfl
@[simp] theorem writeS_rSample (n : BitVec 6) (v : W64) : (writeS s n v).rSample = s.rSample := by
  unfold writeS
  split
  · rfl
  · split <;> rfl
@[simp] theorem writeS_lastFaults (n : BitVec 6) (v : W64) : (writeS s n v).lastFaults = s.lastFaults := by
  unfold writeS
  split
  · rfl
  · split <;> rfl
@[simp] theorem writeS_power (n : BitVec 6) (v : W64) : (writeS s n v).power = s.power := by
  unfold writeS
  split
  · rfl
  · split <;> rfl
@[simp] theorem writeS_fw (n : BitVec 6) (v : W64) : (writeS s n v).fw = s.fw := by
  unfold writeS
  split
  · rfl
  · split <;> rfl
@[simp] theorem writeS_dgauges (n : BitVec 6) (v : W64) : (writeS s n v).dgauges = s.dgauges := by
  unfold writeS
  split
  · rfl
  · split <;> rfl
@[simp] theorem writeS_msix (n : BitVec 6) (v : W64) : (writeS s n v).msix = s.msix := by
  unfold writeS
  split
  · rfl
  · split <;> rfl
@[simp] theorem writeS_hostOut (n : BitVec 6) (v : W64) : (writeS s n v).hostOut = s.hostOut := by
  unfold writeS
  split
  · rfl
  · split <;> rfl
@[simp] theorem writeS_cur (n : BitVec 6) (v : W64) : (writeS s n v).cur = s.cur := by
  unfold writeS
  split
  · rfl
  · split <;> rfl
@[simp] theorem writeS_agenda (n : BitVec 6) (v : W64) : (writeS s n v).agenda = s.agenda := by
  unfold writeS
  split
  · rfl
  · split <;> rfl
@[simp] theorem writeS_turn (n : BitVec 6) (v : W64) : (writeS s n v).turn = s.turn := by
  unfold writeS
  split
  · rfl
  · split <;> rfl
@[simp] theorem writeS_fresh (n : BitVec 6) (v : W64) : (writeS s n v).fresh = s.fresh := by
  unfold writeS
  split
  · rfl
  · split <;> rfl
@[simp] theorem writeS_gddr (n : BitVec 6) (v : W64) : (writeS s n v).gddr = s.gddr := by
  unfold writeS
  split
  · rfl
  · split <;> rfl
@[simp] theorem writeS_lpddr (n : BitVec 6) (v : W64) : (writeS s n v).lpddr = s.lpddr := by
  unfold writeS
  split
  · rfl
  · split <;> rfl
@[simp] theorem writeS_arrNext (n : BitVec 6) (v : W64) : (writeS s n v).arrNext = s.arrNext := by
  unfold writeS
  split
  · rfl
  · split <;> rfl
@[simp] theorem writeS_dirty (n : BitVec 6) (v : W64) : (writeS s n v).dirty = s.dirty := by
  unfold writeS
  split
  · rfl
  · split <;> rfl
@[simp] theorem writeS_repPend (n : BitVec 6) (v : W64) : (writeS s n v).repPend = s.repPend := by
  unfold writeS
  split
  · rfl
  · split <;> rfl

@[simp] theorem writeK_mem (n : BitVec 3) (v : Bool) : (writeK s n v).mem = s.mem := by
  unfold writeK
  split
  · rfl
  · rfl
@[simp] theorem writeK_fe (n : BitVec 3) (v : Bool) : (writeK s n v).fe = s.fe := by
  unfold writeK
  split
  · rfl
  · rfl
@[simp] theorem writeK_bad (n : BitVec 3) (v : Bool) : (writeK s n v).bad = s.bad := by
  unfold writeK
  split
  · rfl
  · rfl
@[simp] theorem writeK_wall (n : BitVec 3) (v : Bool) : (writeK s n v).wall = s.wall := by
  unfold writeK
  split
  · rfl
  · rfl
@[simp] theorem writeK_absent (n : BitVec 3) (v : Bool) : (writeK s n v).absent = s.absent := by
  unfold writeK
  split
  · rfl
  · rfl
@[simp] theorem writeK_clusters (n : BitVec 3) (v : Bool) : (writeK s n v).clusters = s.clusters := by
  unfold writeK
  split
  · rfl
  · rfl
@[simp] theorem writeK_pairs (n : BitVec 3) (v : Bool) : (writeK s n v).pairs = s.pairs := by
  unfold writeK
  split
  · rfl
  · rfl
@[simp] theorem writeK_stations (n : BitVec 3) (v : Bool) : (writeK s n v).stations = s.stations := by
  unfold writeK
  split
  · rfl
  · rfl
@[simp] theorem writeK_ctxs (n : BitVec 3) (v : Bool) : (writeK s n v).ctxs = s.ctxs := by
  unfold writeK
  split
  · rfl
  · rfl
@[simp] theorem writeK_quadMove (n : BitVec 3) (v : Bool) : (writeK s n v).quadMove = s.quadMove := by
  unfold writeK
  split
  · rfl
  · rfl
@[simp] theorem writeK_lastCtx (n : BitVec 3) (v : Bool) : (writeK s n v).lastCtx = s.lastCtx := by
  unfold writeK
  split
  · rfl
  · rfl
@[simp] theorem writeK_graphs (n : BitVec 3) (v : Bool) : (writeK s n v).graphs = s.graphs := by
  unfold writeK
  split
  · rfl
  · rfl
@[simp] theorem writeK_posted (n : BitVec 3) (v : Bool) : (writeK s n v).posted = s.posted := by
  unfold writeK
  split
  · rfl
  · rfl
@[simp] theorem writeK_copies (n : BitVec 3) (v : Bool) : (writeK s n v).copies = s.copies := by
  unfold writeK
  split
  · rfl
  · rfl
@[simp] theorem writeK_copyNext (n : BitVec 3) (v : Bool) : (writeK s n v).copyNext = s.copyNext := by
  unfold writeK
  split
  · rfl
  · rfl
@[simp] theorem writeK_transit (n : BitVec 3) (v : Bool) : (writeK s n v).transit = s.transit := by
  unfold writeK
  split
  · rfl
  · rfl
@[simp] theorem writeK_marksT (n : BitVec 3) (v : Bool) : (writeK s n v).marksT = s.marksT := by
  unfold writeK
  split
  · rfl
  · rfl
@[simp] theorem writeK_devPark (n : BitVec 3) (v : Bool) : (writeK s n v).devPark = s.devPark := by
  unfold writeK
  split
  · rfl
  · rfl
@[simp] theorem writeK_heldMsgs (n : BitVec 3) (v : Bool) : (writeK s n v).heldMsgs = s.heldMsgs := by
  unfold writeK
  split
  · rfl
  · rfl
@[simp] theorem writeK_asyncs (n : BitVec 3) (v : Bool) : (writeK s n v).asyncs = s.asyncs := by
  unfold writeK
  split
  · rfl
  · rfl
@[simp] theorem writeK_fabric (n : BitVec 3) (v : Bool) : (writeK s n v).fabric = s.fabric := by
  unfold writeK
  split
  · rfl
  · rfl
@[simp] theorem writeK_net (n : BitVec 3) (v : Bool) : (writeK s n v).net = s.net := by
  unfold writeK
  split
  · rfl
  · rfl
@[simp] theorem writeK_flog (n : BitVec 3) (v : Bool) : (writeK s n v).flog = s.flog := by
  unfold writeK
  split
  · rfl
  · rfl
@[simp] theorem writeK_rAcct (n : BitVec 3) (v : Bool) : (writeK s n v).rAcct = s.rAcct := by
  unfold writeK
  split
  · rfl
  · rfl
@[simp] theorem writeK_rTrace (n : BitVec 3) (v : Bool) : (writeK s n v).rTrace = s.rTrace := by
  unfold writeK
  split
  · rfl
  · rfl
@[simp] theorem writeK_rSample (n : BitVec 3) (v : Bool) : (writeK s n v).rSample = s.rSample := by
  unfold writeK
  split
  · rfl
  · rfl
@[simp] theorem writeK_lastFaults (n : BitVec 3) (v : Bool) : (writeK s n v).lastFaults = s.lastFaults := by
  unfold writeK
  split
  · rfl
  · rfl
@[simp] theorem writeK_power (n : BitVec 3) (v : Bool) : (writeK s n v).power = s.power := by
  unfold writeK
  split
  · rfl
  · rfl
@[simp] theorem writeK_fw (n : BitVec 3) (v : Bool) : (writeK s n v).fw = s.fw := by
  unfold writeK
  split
  · rfl
  · rfl
@[simp] theorem writeK_dgauges (n : BitVec 3) (v : Bool) : (writeK s n v).dgauges = s.dgauges := by
  unfold writeK
  split
  · rfl
  · rfl
@[simp] theorem writeK_msix (n : BitVec 3) (v : Bool) : (writeK s n v).msix = s.msix := by
  unfold writeK
  split
  · rfl
  · rfl
@[simp] theorem writeK_hostOut (n : BitVec 3) (v : Bool) : (writeK s n v).hostOut = s.hostOut := by
  unfold writeK
  split
  · rfl
  · rfl
@[simp] theorem writeK_cur (n : BitVec 3) (v : Bool) : (writeK s n v).cur = s.cur := by
  unfold writeK
  split
  · rfl
  · rfl
@[simp] theorem writeK_agenda (n : BitVec 3) (v : Bool) : (writeK s n v).agenda = s.agenda := by
  unfold writeK
  split
  · rfl
  · rfl
@[simp] theorem writeK_turn (n : BitVec 3) (v : Bool) : (writeK s n v).turn = s.turn := by
  unfold writeK
  split
  · rfl
  · rfl
@[simp] theorem writeK_fresh (n : BitVec 3) (v : Bool) : (writeK s n v).fresh = s.fresh := by
  unfold writeK
  split
  · rfl
  · rfl
@[simp] theorem writeK_gddr (n : BitVec 3) (v : Bool) : (writeK s n v).gddr = s.gddr := by
  unfold writeK
  split
  · rfl
  · rfl
@[simp] theorem writeK_lpddr (n : BitVec 3) (v : Bool) : (writeK s n v).lpddr = s.lpddr := by
  unfold writeK
  split
  · rfl
  · rfl
@[simp] theorem writeK_arrNext (n : BitVec 3) (v : Bool) : (writeK s n v).arrNext = s.arrNext := by
  unfold writeK
  split
  · rfl
  · rfl
@[simp] theorem writeK_dirty (n : BitVec 3) (v : Bool) : (writeK s n v).dirty = s.dirty := by
  unfold writeK
  split
  · rfl
  · rfl
@[simp] theorem writeK_repPend (n : BitVec 3) (v : Bool) : (writeK s n v).repPend = s.repPend := by
  unfold writeK
  split
  · rfl
  · rfl

@[simp] theorem setPc_mem (v : W64) : (setPc s v).mem = s.mem := by
  unfold setPc
  split
  · rfl
  · rfl
@[simp] theorem setPc_fe (v : W64) : (setPc s v).fe = s.fe := by
  unfold setPc
  split
  · rfl
  · rfl
@[simp] theorem setPc_bad (v : W64) : (setPc s v).bad = s.bad := by
  unfold setPc
  split
  · rfl
  · rfl
@[simp] theorem setPc_wall (v : W64) : (setPc s v).wall = s.wall := by
  unfold setPc
  split
  · rfl
  · rfl
@[simp] theorem setPc_absent (v : W64) : (setPc s v).absent = s.absent := by
  unfold setPc
  split
  · rfl
  · rfl
@[simp] theorem setPc_clusters (v : W64) : (setPc s v).clusters = s.clusters := by
  unfold setPc
  split
  · rfl
  · rfl
@[simp] theorem setPc_pairs (v : W64) : (setPc s v).pairs = s.pairs := by
  unfold setPc
  split
  · rfl
  · rfl
@[simp] theorem setPc_stations (v : W64) : (setPc s v).stations = s.stations := by
  unfold setPc
  split
  · rfl
  · rfl
@[simp] theorem setPc_ctxs (v : W64) : (setPc s v).ctxs = s.ctxs := by
  unfold setPc
  split
  · rfl
  · rfl
@[simp] theorem setPc_quadMove (v : W64) : (setPc s v).quadMove = s.quadMove := by
  unfold setPc
  split
  · rfl
  · rfl
@[simp] theorem setPc_lastCtx (v : W64) : (setPc s v).lastCtx = s.lastCtx := by
  unfold setPc
  split
  · rfl
  · rfl
@[simp] theorem setPc_graphs (v : W64) : (setPc s v).graphs = s.graphs := by
  unfold setPc
  split
  · rfl
  · rfl
@[simp] theorem setPc_posted (v : W64) : (setPc s v).posted = s.posted := by
  unfold setPc
  split
  · rfl
  · rfl
@[simp] theorem setPc_copies (v : W64) : (setPc s v).copies = s.copies := by
  unfold setPc
  split
  · rfl
  · rfl
@[simp] theorem setPc_copyNext (v : W64) : (setPc s v).copyNext = s.copyNext := by
  unfold setPc
  split
  · rfl
  · rfl
@[simp] theorem setPc_transit (v : W64) : (setPc s v).transit = s.transit := by
  unfold setPc
  split
  · rfl
  · rfl
@[simp] theorem setPc_marksT (v : W64) : (setPc s v).marksT = s.marksT := by
  unfold setPc
  split
  · rfl
  · rfl
@[simp] theorem setPc_devPark (v : W64) : (setPc s v).devPark = s.devPark := by
  unfold setPc
  split
  · rfl
  · rfl
@[simp] theorem setPc_heldMsgs (v : W64) : (setPc s v).heldMsgs = s.heldMsgs := by
  unfold setPc
  split
  · rfl
  · rfl
@[simp] theorem setPc_asyncs (v : W64) : (setPc s v).asyncs = s.asyncs := by
  unfold setPc
  split
  · rfl
  · rfl
@[simp] theorem setPc_fabric (v : W64) : (setPc s v).fabric = s.fabric := by
  unfold setPc
  split
  · rfl
  · rfl
@[simp] theorem setPc_net (v : W64) : (setPc s v).net = s.net := by
  unfold setPc
  split
  · rfl
  · rfl
@[simp] theorem setPc_flog (v : W64) : (setPc s v).flog = s.flog := by
  unfold setPc
  split
  · rfl
  · rfl
@[simp] theorem setPc_rAcct (v : W64) : (setPc s v).rAcct = s.rAcct := by
  unfold setPc
  split
  · rfl
  · rfl
@[simp] theorem setPc_rTrace (v : W64) : (setPc s v).rTrace = s.rTrace := by
  unfold setPc
  split
  · rfl
  · rfl
@[simp] theorem setPc_rSample (v : W64) : (setPc s v).rSample = s.rSample := by
  unfold setPc
  split
  · rfl
  · rfl
@[simp] theorem setPc_lastFaults (v : W64) : (setPc s v).lastFaults = s.lastFaults := by
  unfold setPc
  split
  · rfl
  · rfl
@[simp] theorem setPc_power (v : W64) : (setPc s v).power = s.power := by
  unfold setPc
  split
  · rfl
  · rfl
@[simp] theorem setPc_fw (v : W64) : (setPc s v).fw = s.fw := by
  unfold setPc
  split
  · rfl
  · rfl
@[simp] theorem setPc_dgauges (v : W64) : (setPc s v).dgauges = s.dgauges := by
  unfold setPc
  split
  · rfl
  · rfl
@[simp] theorem setPc_msix (v : W64) : (setPc s v).msix = s.msix := by
  unfold setPc
  split
  · rfl
  · rfl
@[simp] theorem setPc_hostOut (v : W64) : (setPc s v).hostOut = s.hostOut := by
  unfold setPc
  split
  · rfl
  · rfl
@[simp] theorem setPc_cur (v : W64) : (setPc s v).cur = s.cur := by
  unfold setPc
  split
  · rfl
  · rfl
@[simp] theorem setPc_agenda (v : W64) : (setPc s v).agenda = s.agenda := by
  unfold setPc
  split
  · rfl
  · rfl
@[simp] theorem setPc_turn (v : W64) : (setPc s v).turn = s.turn := by
  unfold setPc
  split
  · rfl
  · rfl
@[simp] theorem setPc_fresh (v : W64) : (setPc s v).fresh = s.fresh := by
  unfold setPc
  split
  · rfl
  · rfl
@[simp] theorem setPc_gddr (v : W64) : (setPc s v).gddr = s.gddr := by
  unfold setPc
  split
  · rfl
  · rfl
@[simp] theorem setPc_lpddr (v : W64) : (setPc s v).lpddr = s.lpddr := by
  unfold setPc
  split
  · rfl
  · rfl
@[simp] theorem setPc_arrNext (v : W64) : (setPc s v).arrNext = s.arrNext := by
  unfold setPc
  split
  · rfl
  · rfl
@[simp] theorem setPc_dirty (v : W64) : (setPc s v).dirty = s.dirty := by
  unfold setPc
  split
  · rfl
  · rfl
@[simp] theorem setPc_repPend (v : W64) : (setPc s v).repPend = s.repPend := by
  unfold setPc
  split
  · rfl
  · rfl

@[simp] theorem setWait_mem (w : Option Wait) : (setWait s w).mem = s.mem := by
  unfold setWait
  split
  · rfl
  · rfl
@[simp] theorem setWait_fe (w : Option Wait) : (setWait s w).fe = s.fe := by
  unfold setWait
  split
  · rfl
  · rfl
@[simp] theorem setWait_bad (w : Option Wait) : (setWait s w).bad = s.bad := by
  unfold setWait
  split
  · rfl
  · rfl
@[simp] theorem setWait_wall (w : Option Wait) : (setWait s w).wall = s.wall := by
  unfold setWait
  split
  · rfl
  · rfl
@[simp] theorem setWait_absent (w : Option Wait) : (setWait s w).absent = s.absent := by
  unfold setWait
  split
  · rfl
  · rfl
@[simp] theorem setWait_clusters (w : Option Wait) : (setWait s w).clusters = s.clusters := by
  unfold setWait
  split
  · rfl
  · rfl
@[simp] theorem setWait_pairs (w : Option Wait) : (setWait s w).pairs = s.pairs := by
  unfold setWait
  split
  · rfl
  · rfl
@[simp] theorem setWait_stations (w : Option Wait) : (setWait s w).stations = s.stations := by
  unfold setWait
  split
  · rfl
  · rfl
@[simp] theorem setWait_ctxs (w : Option Wait) : (setWait s w).ctxs = s.ctxs := by
  unfold setWait
  split
  · rfl
  · rfl
@[simp] theorem setWait_quadMove (w : Option Wait) : (setWait s w).quadMove = s.quadMove := by
  unfold setWait
  split
  · rfl
  · rfl
@[simp] theorem setWait_lastCtx (w : Option Wait) : (setWait s w).lastCtx = s.lastCtx := by
  unfold setWait
  split
  · rfl
  · rfl
@[simp] theorem setWait_graphs (w : Option Wait) : (setWait s w).graphs = s.graphs := by
  unfold setWait
  split
  · rfl
  · rfl
@[simp] theorem setWait_posted (w : Option Wait) : (setWait s w).posted = s.posted := by
  unfold setWait
  split
  · rfl
  · rfl
@[simp] theorem setWait_copies (w : Option Wait) : (setWait s w).copies = s.copies := by
  unfold setWait
  split
  · rfl
  · rfl
@[simp] theorem setWait_copyNext (w : Option Wait) : (setWait s w).copyNext = s.copyNext := by
  unfold setWait
  split
  · rfl
  · rfl
@[simp] theorem setWait_transit (w : Option Wait) : (setWait s w).transit = s.transit := by
  unfold setWait
  split
  · rfl
  · rfl
@[simp] theorem setWait_marksT (w : Option Wait) : (setWait s w).marksT = s.marksT := by
  unfold setWait
  split
  · rfl
  · rfl
@[simp] theorem setWait_devPark (w : Option Wait) : (setWait s w).devPark = s.devPark := by
  unfold setWait
  split
  · rfl
  · rfl
@[simp] theorem setWait_heldMsgs (w : Option Wait) : (setWait s w).heldMsgs = s.heldMsgs := by
  unfold setWait
  split
  · rfl
  · rfl
@[simp] theorem setWait_asyncs (w : Option Wait) : (setWait s w).asyncs = s.asyncs := by
  unfold setWait
  split
  · rfl
  · rfl
@[simp] theorem setWait_fabric (w : Option Wait) : (setWait s w).fabric = s.fabric := by
  unfold setWait
  split
  · rfl
  · rfl
@[simp] theorem setWait_net (w : Option Wait) : (setWait s w).net = s.net := by
  unfold setWait
  split
  · rfl
  · rfl
@[simp] theorem setWait_flog (w : Option Wait) : (setWait s w).flog = s.flog := by
  unfold setWait
  split
  · rfl
  · rfl
@[simp] theorem setWait_rAcct (w : Option Wait) : (setWait s w).rAcct = s.rAcct := by
  unfold setWait
  split
  · rfl
  · rfl
@[simp] theorem setWait_rTrace (w : Option Wait) : (setWait s w).rTrace = s.rTrace := by
  unfold setWait
  split
  · rfl
  · rfl
@[simp] theorem setWait_rSample (w : Option Wait) : (setWait s w).rSample = s.rSample := by
  unfold setWait
  split
  · rfl
  · rfl
@[simp] theorem setWait_lastFaults (w : Option Wait) : (setWait s w).lastFaults = s.lastFaults := by
  unfold setWait
  split
  · rfl
  · rfl
@[simp] theorem setWait_power (w : Option Wait) : (setWait s w).power = s.power := by
  unfold setWait
  split
  · rfl
  · rfl
@[simp] theorem setWait_fw (w : Option Wait) : (setWait s w).fw = s.fw := by
  unfold setWait
  split
  · rfl
  · rfl
@[simp] theorem setWait_dgauges (w : Option Wait) : (setWait s w).dgauges = s.dgauges := by
  unfold setWait
  split
  · rfl
  · rfl
@[simp] theorem setWait_msix (w : Option Wait) : (setWait s w).msix = s.msix := by
  unfold setWait
  split
  · rfl
  · rfl
@[simp] theorem setWait_hostOut (w : Option Wait) : (setWait s w).hostOut = s.hostOut := by
  unfold setWait
  split
  · rfl
  · rfl
@[simp] theorem setWait_cur (w : Option Wait) : (setWait s w).cur = s.cur := by
  unfold setWait
  split
  · rfl
  · rfl
@[simp] theorem setWait_agenda (w : Option Wait) : (setWait s w).agenda = s.agenda := by
  unfold setWait
  split
  · rfl
  · rfl
@[simp] theorem setWait_turn (w : Option Wait) : (setWait s w).turn = s.turn := by
  unfold setWait
  split
  · rfl
  · rfl
@[simp] theorem setWait_fresh (w : Option Wait) : (setWait s w).fresh = s.fresh := by
  unfold setWait
  split
  · rfl
  · rfl
@[simp] theorem setWait_gddr (w : Option Wait) : (setWait s w).gddr = s.gddr := by
  unfold setWait
  split
  · rfl
  · rfl
@[simp] theorem setWait_lpddr (w : Option Wait) : (setWait s w).lpddr = s.lpddr := by
  unfold setWait
  split
  · rfl
  · rfl
@[simp] theorem setWait_arrNext (w : Option Wait) : (setWait s w).arrNext = s.arrNext := by
  unfold setWait
  split
  · rfl
  · rfl
@[simp] theorem setWait_dirty (w : Option Wait) : (setWait s w).dirty = s.dirty := by
  unfold setWait
  split
  · rfl
  · rfl
@[simp] theorem setWait_repPend (w : Option Wait) : (setWait s w).repPend = s.repPend := by
  unfold setWait
  split
  · rfl
  · rfl

/- Reads of a unit after a write of one. -/

@[simp] theorem coreOf_setCore_same (c : Nat) (x : Core) : coreOf (setCore s c x) c = x := amGet_amSet_same _ _ _ _
theorem coreOf_setCore_other {c d : Nat} (x : Core) (h : d ≠ c) : coreOf (setCore s c x) d = coreOf s d := amGet_amSet_other _ _ _ h
@[simp] theorem coreOf_updCore_same (c : Nat) (f : Core → Core) : coreOf (updCore s c f) c = f (coreOf s c) := amGet_amSet_same _ _ _ _
theorem coreOf_updCore_other {c d : Nat} (f : Core → Core) (h : d ≠ c) : coreOf (updCore s c f) d = coreOf s d := amGet_amSet_other _ _ _ h
@[simp] theorem clusterOf_setCluster_same (n : Nat) (x : Cluster) : clusterOf (setCluster s n x) n = x := amGet_amSet_same _ _ _ _
theorem clusterOf_setCluster_other {n j : Nat} (x : Cluster) (h : j ≠ n) : clusterOf (setCluster s n x) j = clusterOf s j := amGet_amSet_other _ _ _ h
@[simp] theorem pairOf_setPair_same (n : Nat) (x : Pair) : pairOf (setPair s n x) n = x := amGet_amSet_same _ _ _ _
theorem pairOf_setPair_other {n j : Nat} (x : Pair) (h : j ≠ n) : pairOf (setPair s n x) j = pairOf s j := amGet_amSet_other _ _ _ h
@[simp] theorem stationOf_setStation_same (n : Nat) (x : Station) : stationOf (setStation s n x) n = x := amGet_amSet_same _ _ _ _
theorem stationOf_setStation_other {n j : Nat} (x : Station) (h : j ≠ n) : stationOf (setStation s n x) j = stationOf s j := amGet_amSet_other _ _ _ h
@[simp] theorem ctxOf_setCtx_same (n : Nat) (x : LaunchCtx) : ctxOf (setCtx s n x) n = x := amGet_amSet_same _ _ _ _
theorem ctxOf_setCtx_other {n j : Nat} (x : LaunchCtx) (h : j ≠ n) : ctxOf (setCtx s n x) j = ctxOf s j := amGet_amSet_other _ _ _ h

/- Streams and berths of a core. -/

@[simp] theorem streamOf_setStream_same (k : Core) (p : Bool) (t : Stream) : streamOf (setStream k p t) p = t := by
  cases p <;> rfl
@[simp] theorem streamOf_setStream_not (k : Core) (p : Bool) (t : Stream) : streamOf (setStream k p t) (!p) = streamOf k (!p) := by
  cases p <;> rfl
@[simp] theorem berthAt_setBerth_same (k : Core) (b : BitVec 2) (x : Berth) : berthAt (setBerth k b x) b = x := by
  simp [berthAt, setBerth]
theorem berthAt_setBerth_other (k : Core) {b d : BitVec 2} (x : Berth) (h : d ≠ b) : berthAt (setBerth k b x) d = berthAt k d := by
  have : b.toNat ≠ d.toNat := fun e => h (BitVec.eq_of_toNat_eq e.symm)
  simp [berthAt, setBerth, this]

@[simp] theorem sGet_sSet_same (v : Vector W64 64) (n : BitVec 6) (x : W64) : sGet (sSet v n x) n = x := by
  simp [sGet, sSet]
theorem sGet_sSet_other (v : Vector W64 64) {n j : BitVec 6} (x : W64) (h : j ≠ n) : sGet (sSet v n x) j = sGet v j := by
  have : n.toNat ≠ j.toNat := fun e => h (BitVec.eq_of_toNat_eq e.symm)
  simp [sGet, sSet, this]

/-- k0 reads true whatever is written (R77). -/
@[simp] theorem kGet_zero (v : Vector Bool 8) : kGet v 0 = true := by simp [kGet]
@[simp] theorem kSet_zero (v : Vector Bool 8) (x : Bool) : kSet v 0 x = v := by simp [kSet]
theorem kGet_kSet_same (v : Vector Bool 8) {n : BitVec 3} (x : Bool) (h : n ≠ 0) : kGet (kSet v n x) n = x := by
  unfold kGet kSet
  rw [if_neg h, if_neg h]
  simp
theorem kGet_kSet_other (v : Vector Bool 8) {n j : BitVec 3} (x : Bool) (h : j ≠ n) : kGet (kSet v n x) j = kGet v j := by
  have : n.toNat ≠ j.toNat := fun e => h (BitVec.eq_of_toNat_eq e.symm)
  unfold kGet kSet
  split
  · rfl
  · split
    · rfl
    · simp [this]

end Sys2Proof.Machine
end

