-- ==== Sys2Proof/Laws/Words.lean ====
section
/-! SUPPORT. What issuing a word can come to (R72, R75, R106, R107), and that the meaning of every word is that one
operation over its record. -/

namespace Sys2Proof.Machine

/-- The meaning of a word is its record, issued. -/
theorem exec_word {i : Instr} {m : Meaning} (h : meaningOf i = some m) (s : State) :
    exec i s = issue i m.o m.perm m.dRead m.body s := by
  cases i <;> cases h <;> rfl

/-- Issuing always answers a next state. -/
theorem issue_next (i : Instr) (o : Ops) (p : Perm) (d : Bool) (b : Phase → State → Body) (s : State) :
    ∃ t, issue i o p d b s = .next t := ⟨_, rfl⟩

/-- A failing check of step 6 traps (R106). -/
theorem issue_denied {i : Instr} {o : Ops} {p : Perm} {d : Bool} {b : Phase → State → Body} {s : State} {code field : Nat}
    (h : check6 s o p d = some (code, field)) :
    issue i o p d b s = .next (trapNow s { code := code, addr := some (pcNow s), info := BitVec.ofNat 64 field }) := by
  simp [issue, h]

/-- A word whose guard is false passes (R72). -/
theorem issue_unguarded {i : Instr} {o : Ops} {p : Perm} {d : Bool} {b : Phase → State → Body} {s : State}
    (h : check6 s o p d = none) (hg : guardOk s o.g = false) :
    issue i o p d b s = .next (afterStep (goOn (updCur (usePrefix s s) (endMark s.wall 2)) o none (nextPc s o))) := by
  simp [issue, h, hg]

/-- A word that the checks let through runs its body. -/
theorem issue_runs {i : Instr} {o : Ops} {p : Perm} {d : Bool} {b : Phase → State → Body} {s : State}
    (h : check6 s o p d = none) (hg : guardOk s o.g = true) (hp : prefixBad s i = false) (ho : overflowWaits s = false)
    (he : engineWait s i o = false) :
    issue i o p d b s = .next (runBody i o d s (b .issue s)) := by
  simp [issue, h, hg, hp, bodyNow, ho, he]

/-- A body that has ended goes on at its program counter. -/
theorem runBody_fin (i : Instr) (o : Ops) (d : Bool) (s t : State) (npc : Option W64) :
    runBody i o d s (.fin t npc) = afterStep (goOn (usePrefix s (notePins i o d s t)) o npc (npc.getD (nextPc s o))) := rfl

/-- TRAPADDR holds the address that the rule of the trap gives. -/
theorem trapAddr_some {s : State} {t : TrapIn} {a : W64} (h : t.addr = some a) : trapAddr s t = a := by
  simp [trapAddr, h]

/-- A trap outside supervisor mode and outside a region ends the mark of a sampled instruction and enters the supervisor routine (R381,
R417). -/
theorem takeTrap_plain {s : State} {c : Nat} {pilot : Bool} {pc : W64} {t : TrapIn} (hs : (coreOf s c).sup = false)
    (hr : (coreOf s c).region = none) : takeTrap s c pilot pc t = enterSup (markTrap s c pilot t) c pilot pc pc t false := by
  simp [takeTrap, hs, hr]

/-- A trap in supervisor mode is a double trap (R383). -/
theorem takeTrap_double {s : State} {c : Nat} {pilot : Bool} {pc : W64} {t : TrapIn} (hs : (coreOf s c).sup = true) :
    takeTrap s c pilot pc t = doubleTrap s c t.code := by
  simp [takeTrap, hs]

/-- What the agenda names is taken first. -/
theorem step_agenda {s : State} {m : Move} {r : List Move} (h : s.agenda = m :: r) :
    step s = runMove m { s with agenda := r } := by
  simp [step, takeMove, h]

end Sys2Proof.Machine
end

