-- ==== Sys2Proof/Tests/Slice0.lean ====
section
/-! SUPPORT. Tests: ill-formed terms that the check refuses, words of the spec's tables decoded, single steps with results taken
from the spec, and for each statement a state that meets what it supposes. -/

namespace Sys2Proof.Tests

open Sys2Proof Sys2Proof.Machine Sys2Proof.Claims

/- Small states. -/

/-- Scalar registers with some of them set. -/
def regs (l : List (BitVec 6 × W64)) : Vector W64 64 := l.foldl (fun v p => sSet v p.1 p.2) (Vector.replicate 64 0)

/-- A berth that is live, with 64 rows of scratchpad and a view of the register store. -/
def berth0 : Berth := { gid := 1, state := .live, spN := 64, regN := 64, handlers := List.replicate 16 0 }

/-- A graph of one task, with its code at 0x10000. -/
def graph0 : Graph :=
  { gid := 1, code := 0x10000, codesize := 0x1000, active := true, tasks := [{ st := .bound }], remap := [(0, (0, 0))] }

/-- A core that runs an activation of its berth 0: s1 is 5, s2 is 6, s3 is 4, and the V view has 16 registers. -/
def core0 : Core :=
  { berths := (Vector.replicate 4 {}).set 0 berth0, act := some {},
    ex := { pc := 0x10000, stopped := false, s := regs [(1, 5), (2, 6), (3, 4)] },
    pi := { pc := 0x10100, stopped := false, s := regs [(1, 5)] }, viewV := 0x1000, viewT := 0x100, viewA := 0x200 }

/-- Core 0 alone, and a graph. -/
def with0 (k : Core) : State := { cores := [(0, k)], graphs := [graph0] }

/-- The execute stream of core 0 issues. -/
def demo : State := with0 core0

/-- The pilot stream of core 0 issues. -/
def demoPi : State := { demo with cur := (0, true) }


/- Well-formedness: one ill-formed term for each check. -/

/-- A slot of class SD holds a V register (R74). -/
theorem illFormed_operand : (Instr.add { d := .v 1, a := .s 2, b := .s 3 } {}).wf = false := by decide
/-- Two literals (R71). -/
theorem illFormed_literals : (Instr.add { d := .s 1, a := .l32 2, b := .l32 3 } {}).wf = false := by decide
/-- CMP has no SAT, and SHL none: a modifier field that an instruction does not use (R93, R97). -/
theorem illFormed_modifier : (Instr.shl { d := .s 1, a := .s 2, b := .s 3 } { sat := true }).wf = false := by decide
/-- A shape of type that VSHL does not take (R213). -/
theorem illFormed_type : (Instr.vshl { d := .v 1, a := .v 2, b := .v 3 } { ty := .f32 }).wf = false := by decide
/-- A launch context, a core, a station and a port that the device has not (R2). -/
theorem illFormed_units : (Instr.doorbell 16).wf = false ∧ (Instr.activationEnd 1024).wf = false ∧ (Instr.go 16).wf = false
    ∧ (Instr.maxw 32 0).wf = false ∧ (Instr.gearStop 64).wf = false ∧ (Instr.registerWrite 1 0 4 0).wf = false := by decide
theorem wellFormed_words : (Instr.add { d := .s 1, a := .l32 2, b := .q 0 } { sat := true }).wf = true ∧ Instr.udf.wf = true
    ∧ (Instr.vadd { d := .v 1, a := .v 2, b := .v 3 } { ty := .f32 }).wf = true ∧ (Instr.go 15).wf = true := by decide

/- Words of the tables of the spec, by opcode group. -/

theorem word_udf : decode (parcels [0, 0, 0]) = .ok (.udf, 12) := rfl
theorem word_unassigned : decode (parcels [0x000000F5, 0x00000000, 0x30000000]) = .error .opcode := rfl
theorem word_reserved_mod : decode (parcels [0x21001021, 0x81003100, 0x00000000]) = .error (.encoding 5) := rfl
theorem word_lit_mismatch : decode (parcels [0x21001020, 0x0A000100, 0x00000000]) = .error (.encoding 6) := rfl
theorem word_steer : decode (parcels [0x3600C107, 0x00000900, 0x00000000]) = .ok (.steer { g := { prd := 1 }, d := .q 12, a := .i 3 }, 12) := rfl
theorem word_follow : decode (parcels [0xC0000008, 0x00000600, 0x00000000]) = .ok (.follow { a := .q 12 }, 12) := rfl
theorem word_brdec : decode (parcels [0xF100E006, 0x000009FD, 0x00000000]) = .ok (.brdec { d := .s 14, a := .i 0xFDF }, 12) := rfl
theorem word_pfx : decode (parcels [0x0000000D, 0x00000000, 0x00000050]) = .ok (.pfx {} { width := 5 }, 12) := rfl
theorem word_waitw : decode (parcels [0x00000411, 0x00000A00, 0x10000000, 0x0000C350])
    = .ok (.waitw { g := { prd := 4 }, a := .l32 50000 }, 16) := rfl
theorem word_dlset : decode (parcels [0x30000013, 0xE0000102, 0x00000000]) = .ok (.dlset { a := .s 35 } { slot := 2, base := true, abs := true }, 12) := rfl
theorem word_add_yld : decode (parcels [0xB100AB20, 0x5A000100, 0x10010000, 0x000186A0])
    = .ok (.add { g := { neg := true, prd := 3 }, h := { yld := true }, d := .s 10, a := .s 11, b := .l32 100000 } { w := true, sat := true }, 16) := rfl
theorem word_mov : decode (parcels [0x11002037, 0x00000A00, 0x20000000, 0x9ABCDEF0, 0x12345678])
    = .ok (.mov { d := .s 2, a := .l64 0x123456789ABCDEF0 }, 20) := rfl
theorem word_bfx : decode (parcels [0x21001033, 0x00000100, 0x000002C8]) = .ok (.bfx { d := .s 1, a := .s 2 } { pos := 8, widm1 := 11 }, 12) := rfl
theorem word_mtx : decode (parcels [0x1802603E, 0x00000900, 0x00000000]) = .ok (.mtx { d := .x .seed, a := .i 1 }, 12) := rfl
theorem word_mfx : decode (parcels [0x2100703D, 0x00000800, 0x00000000]) = .ok (.mfx { d := .s 7, a := .x .ratio }, 12) := rfl
theorem word_cmp : decode (parcels [0x65003240, 0x57001100, 0x00000005])
    = .ok (.cmp { g := { prd := 2 }, d := .k 3, a := .s 6, b := .c 1 } { rel := .ge, w := true, comb := .or }, 12) := rfl
theorem word_ptos : decode (parcels [0x21004047, 0x00000500, 0x00000000]) = .ok (.ptos { d := .s 4, a := .k 2 }, 12) := rfl
theorem word_lds : decode (parcels [0x41009050, 0xB9040100, 0x00000026])
    = .ok (.lds { d := .s 9, a := .s 4, b := .i 0x40 } { size := .d, sync := .take, trio := { tb := true, tres := true, pred := 2 } }, 12) := rfl
theorem word_stx : decode (parcels [0x11009059, 0x31002B00, 0x00000180]) = .ok (.stx { d := .s 9, a := .b 1, b := .s 2 } { size := .d, scale := 3 }, 12) := rfl
theorem word_ldg : decode (parcels [0x4100C060, 0x79000100, 0x00000026])
    = .ok (.ldg { d := .s 12, a := .s 4, b := .i 0 } { size := .d, sync := .waitf, trio := { tb := true, tres := true, pred := 2 } }, 12) := rfl
theorem word_rst : decode (parcels [0x61008065, 0x39000100, 0x00000809])
    = .ok (.rst { d := .s 8, a := .s 6, b := .i 0 } { size := .d, sync := .fill, carry := 3 }, 12) := rfl
theorem word_aadd : decode (parcels [0x11016B70, 0x39000B00, 0x00000007])
    = .ok (.aadd { g := { neg := true, prd := 3 }, d := .s 22, a := .b 1, b := .i 0 } { size := .d, ret := true, scope := .device }, 12) := rfl
theorem word_areg : decode (parcels [0xB100107A, 0x00000901, 0x00000000]) = .ok (.areg { d := .s 1, a := .i 27 }, 12) := rfl
theorem word_tspawn : decode (parcels [0xA100C07D, 0x09010100, 0x00000000]) = .ok (.tspawn { d := .s 12, a := .s 10, b := .i 16 }, 12) := rfl
theorem word_fence : decode (parcels [0x00000080, 0xB0000000, 0x00000001]) = .ok (.fence {} { scope := .device, kind := .sc }, 12) := rfl
theorem word_hbar : decode (parcels [0x00000081, 0x20000000, 0x00000036])
    = .ok (.hbar {} { shape := .quad, trio := { tb := true, tres := true, pred := 3 } }, 12) := rfl
theorem word_cpy : decode (parcels [0x31002090, 0x21005100, 0x00000004]) = .ok (.cpy { d := .s 2, a := .s 3, b := .s 5 } { src := .glb, fill := true }, 12) := rfl
theorem word_vcmp : decode (parcels [0xB200A0AD, 0x6A000200, 0x10000200, 0x3F800000])
    = .ok (.vcmp { d := .v 10, a := .v 11, b := .l32 0x3F800000 } { ty := .f32, func := 2 }, 16) := rfl
theorem word_vcvt : decode (parcels [0x920080C0, 0x60000200, 0x00000175])
    = .ok (.vcvt { d := .v 8, a := .v 9 } { ty := .f32, ty2 := .bf16, rnd := .rsr, func := 1 }, 12) := rfl
theorem word_padd : decode (parcels [0x120040C4, 0x02002200, 0x00000008]) = .ok (.padd { d := .v 4, a := .v 1, b := .v 2 } { sat := true }, 12) := rfl
theorem word_mma : decode (parcels [0x740020D3, 0xF3003100, 0x0000000C])
    = .ok (.mmas { d := .a 2, a := .s 7, b := .t 3 } { apl := 7, asg := true, bsg := true, accf := true }, 12) := rfl
theorem word_gang : decode (parcels [0x410090D0, 0x0100A900, 0x00000000]) = .ok (.gang { d := .s 9, a := .i 4, b := .s 10 }, 12) := rfl
theorem word_sclsend : decode (parcels [0x400000D7, 0x0100B200, 0x00000000]) = .ok (.sclsend { a := .v 4, b := .s 11 }, 12) := rfl

/- Results of single steps, from the tables of R150, R152 and R158. -/

/-- The state that a step leaves. -/
def after (o : Host.Outcome State Fault Refusal) : State :=
  match o with
  | .next t => t
  | _ => {}

/-- The execute stream of core 0, with s2 and s3. -/
def given (a b : W64) : State := with0 { core0 with ex := { core0.ex with s := regs [(2, a), (3, b)] } }

/-- What an instruction leaves in s1. -/
def out (i : Ops → Instr) (a b : W64) : W64 := readS (after (exec (i { d := .s 1, a := .s 2, b := .s 3 }) (given a b))) 1

theorem test_add : out (.add · { sgn := true, sat := true }) 0x7FFFFFFFFFFFFFF0 0x20 = 0x7FFFFFFFFFFFFFFF
    ∧ out (.add · { w := true, sat := true }) 0xFFFFFFFF 1 = 0xFFFFFFFFFFFFFFFF := by decide
theorem test_sub : out (.sub · { sat := true }) 5 9 = 0 := by decide
theorem test_div : out (.div · { sgn := true }) (-7) 0 = -1 ∧ out (.div · { sgn := true }) (-7) 2 = -3
    ∧ out (.div · { sgn := true }) 0x8000000000000000 (-1) = 0x8000000000000000 := by decide
theorem test_rem : out (.rem · { sgn := true }) (-7) 0 = -7 ∧ out (.rem · { sgn := true }) (-7) 2 = -1
    ∧ out (.rem · { sgn := true }) 0x8000000000000000 (-1) = 0 := by decide
theorem test_mulh : out (.mulh · {}) (-1) 2 = 1 ∧ out (.mulh · { sgn := true }) (-1) 2 = -1 := by decide
theorem test_shl : out (.shl · {}) 1 65 = 2 := by decide
theorem test_sar : out (.sar · { w := true }) 0x80000000 4 = 0xFFFFFFFFF8000000 := by decide
theorem test_shr : out (.shr · { w := true }) 0x80000000 4 = 0x08000000 := by decide
theorem test_rot : out (.rot · { w := true }) 0x80000001 8 = 0x180 := by decide
theorem test_clz : out (.clz · { w := true }) 0 0 = 32 := by decide
theorem test_bfx : out (.bfx · { pos := 8, widm1 := 11 }) 0x123456 0 = 0x234 := by decide
theorem test_bfi : out (.bfi · { pos := 4, widm1 := 7 }) 0xAB 0x1234 = 0x1AB4 := by decide
theorem test_sext : out (.sext · { swid := 1 }) 0x8001 0 = 0xFFFFFFFFFFFF8001 := by decide
theorem test_abs : out (.abs · {}) 0x8000000000000000 0 = 0x8000000000000000 := by decide
theorem test_bswap : out (.bswap · { w := true }) 0xFFFFFFFF11223344 0 = 0x44332211 := by decide
theorem test_lea : out (.lea · { scale := 3 }) 0x1000 3 = 0x1018 := by decide
theorem test_cmp : readK (after (exec (.cmp { d := .k 2, a := .s 2, b := .i 10 } { rel := .gt, sgn := true }) (given 42 0))) 2 = true := by decide
theorem test_tst : readK (after (exec (.tst { d := .k 3, a := .s 2, b := .i 1 } { rel := .eq, comb := .or }) (given 42 0))) 3 = true := by decide
theorem test_call : readS (after (exec (.call { d := .s 31, a := .i 59 }) demo)) 31 = 0x1000C ∧ pcNow (after (exec (.call { d := .s 31, a := .i 59 }) demo)) = 0x100EC := by decide
theorem test_trap : (coreOf (after (exec (.trap { a := .i 7 }) demo)) 0).tcause = 0x112 ∧ (coreOf (after (exec (.trap { a := .i 7 }) demo)) 0).tinfo = 7 := by decide
theorem test_udf : (coreOf (after (exec .udf demo)) 0).tcause = 0x101 := by decide

/- What the statements suppose, met by concrete states: words that issue. -/

def demoWith (f : Core → Core) : State := with0 (f core0)

/-- Core 0 in supervisor mode. -/
def demoSup : State := demoWith (fun k => { k with sup := true, supPc := 0x40, tpc := 0x10000 })

theorem wit_DecodeOfEncode : (encode (.add { d := .s 4, a := .s 5, b := .i 0xFF4 } {})) = some (parcels [0x51004020, 0x09FF4100, 0]) := by decide
theorem wit_DecodingIsExact : (12 ≤ (parcels [0, 0, 0]).length ∧ ((parcels [0, 0, 0]).getD 0 0).toNat = 0)
    ∧ (((parcels [0xF5, 0, 0]).getD 0 0).toNat ≠ 0 ∧ ∀ c, (opcCode c).toNat ≠ ((parcels [0xF5, 0, 0]).getD 0 0).toNat) :=
  ⟨by decide, by decide, fun c => by cases c <;> decide⟩

/-- The execute stream of core 0 with NOP in the lines it was served. -/
def fed : State :=
  { demoWith (fun k => { k with ex := { k.ex with buf := [{ line := 0x400, bytes := parcels [1, 0, 0] ++ List.replicate 52 0 }] } })
      with agenda := [.issue 0 false] }

theorem wit_StepRunsDecoded : canIssue fed 0 false = true ∧ stepDue (coreOf fed 0) = none ∧ eventDue fed 0 = none ∧ (coreOf fed 0).sup = false
    ∧ decode (parcels [1, 0, 0]) = .ok (.nop {}, 12)
    ∧ gather (streamOf (coreOf fed 0) false) (actBerth (coreOf fed 0)).pasid (streamOf (coreOf fed 0) false).pc.toNat 12 = .bytes (parcels [1, 0, 0])
    ∧ inCode (graphOf fed (actBerth (coreOf fed 0)).gid) (streamOf (coreOf fed 0) false).pc.toNat 12 = true :=
  ⟨by decide, by decide, by decide, by decide, rfl, rfl, by decide⟩
/-- The pilot stream of core 0 with NOP in its lines. -/
def fedPi : State :=
  { demoWith (fun k => { k with pi := { k.pi with buf := [{ line := 0x404, bytes := parcels [1, 0, 0] ++ List.replicate 52 0 }] } })
      with agenda := [.issue 0 true] }
theorem wit_StepRunsDecoded_pilot : canIssue fedPi 0 true = true ∧ stepDue (coreOf fedPi 0) = none ∧ eventStream fedPi 0 = false ∧ (coreOf fedPi 0).sup = false
    ∧ gather (streamOf (coreOf fedPi 0) true) (actBerth (coreOf fedPi 0)).pasid (streamOf (coreOf fedPi 0) true).pc.toNat 12 = .bytes (parcels [1, 0, 0])
    ∧ inCode (graphOf fedPi (actBerth (coreOf fedPi 0)).gid) (streamOf (coreOf fedPi 0) true).pc.toNat 12 = true
    ∧ (canIssue { fedPi with agenda := [] } 0 false && leavesTurn { fedPi with agenda := [] } 0 (.nop {})) = false :=
  ⟨by decide, by decide, by decide, by decide, rfl, by decide, by decide⟩
/-- Both streams of core 0 stand at the DLWAIT of R134's example. -/
def fedBoth : State :=
  let w := parcels [0x31009015, 0x00000900, 0x00000026] ++ List.replicate 52 0
  { demoWith (fun k => { k with pi := { k.pi with buf := [{ line := 0x404, bytes := w }] }, ex := { k.ex with buf := [{ line := 0x400, bytes := w }] } })
      with agenda := [.issue 0 true] }
theorem wit_StepRunsDecoded_second :
    let s1 : State := { fedBoth with agenda := [] }
    canIssue fedBoth 0 true = true ∧ stepDue (coreOf fedBoth 0) = none ∧ eventStream fedBoth 0 = false
    ∧ (canIssue s1 0 false && leavesTurn s1 0 (.dlwait { d := .s 9, a := .i 3 } { tb := true, tres := true, pred := 2 })) = true
    ∧ ∃ t, issueNow s1 0 false = .next t :=
  ⟨by decide, by decide, by decide, by decide, _, rfl⟩
theorem wit_StepKeepsCanonicalMemory : Safety.CanonicalMemory fed ∧ ∃ t, step fed = .next t := ⟨⟨by decide, by decide, by decide⟩, _, rfl⟩
theorem wit_FalseGuard : ∃ m, meaningOf (.add { g := { neg := true, prd := 0 }, d := .s 1, a := .s 2, b := .s 3 } {}) = some m
    ∧ check6 demo m.o m.perm m.dRead = none ∧ guardOk demo m.o.g = false
    ∧ (supNow demo || decide ((curCore demo).stepping &&& stepBit demo.cur.2 = 0)) = true :=
  ⟨_, rfl, by decide, by decide, by decide⟩
theorem wit_traps : (coreOf demo 0).sup = false ∧ (coreOf demo 0).region = none ∧ ready (.trap { a := .i 7 }) demo = true
    ∧ ready (.syscall { a := .i 2, b := .s 1 }) demo = true := by decide
theorem wit_Denied : (∃ m, meaningOf (.tret {}) = some m ∧ m.perm = .supervisor ∧ check6 demo m.o m.perm m.dRead = some (0x0105, 11))
    ∧ (∃ m, meaningOf (.vabs { d := .v 1, a := .v 2 } {}) = some m ∧ m.perm = .execute ∧ check6 demoPi m.o m.perm m.dRead = some (0x0104, 10))
    ∧ (∃ m, meaningOf (.follow { a := .q 12 }) = some m ∧ m.perm = .pilot ∧ check6 demo m.o m.perm m.dRead = some (0x0104, 10))
    ∧ (∃ m, meaningOf (.ctxld { a := .q 12, b := .i 1 }) = some m ∧ m.perm = .supervisor ∧ srcDenied false false m.o.a = true
        ∧ check6 demo m.o m.perm m.dRead = some (0x0104, 10)) :=
  ⟨⟨_, rfl, rfl, by decide⟩, ⟨_, rfl, rfl, by decide⟩, ⟨_, rfl, rfl, by decide⟩, ⟨_, rfl, rfl, by decide, by decide⟩⟩
theorem wit_TrapReturn : issues (.tret {}) demoSup = true ∧ (curCore demoSup).tpc.toNat % 4 = 0 := by decide
theorem wit_TwoSource : (twoSource (.add { d := .s 1, a := .s 2, b := .i 3 } {})).isSome = true
    ∧ ready (.add { d := .s 1, a := .s 2, b := .i 3 } {}) demo = true ∧ ready (.sub { d := .q 4, a := .c 0, b := .l64 3 } {}) demo = true := by decide
theorem wit_OneSource : (oneSource (.mov { d := .s 1, a := .l32 5 })).isSome = true ∧ ready (.mov { d := .s 1, a := .l32 5 }) demo = true
    ∧ ready (.sel { d := .s 1, a := .s 2, b := .i 3 }) demo = true := by decide
theorem wit_Predicates : ready (.cmp { d := .k 1, a := .s 2, b := .i 3 } {}) demo = true ∧ cmpOverflow { d := .k 1, a := .s 2, b := .i 3 } demo = false
    ∧ ready (.tst { d := .k 0, a := .s 2, b := .i 3 } { rel := .ne }) demo = true ∧ issues (.pand { d := .k 1, a := .k 0, b := .k 2 }) demo = true
    ∧ (predValue (.pand { d := .k 1, a := .k 0, b := .k 2 })).isSome = true ∧ ready (.ptos { d := .s 4, a := .k 2 }) demo = true := by decide
theorem wit_Control : issues (.nop {}) demo = true ∧ ready (.br { a := .i 3 }) demo = true ∧ ready (.call { d := .s 31, a := .i 3 }) demo = true
    ∧ ready (.brx { a := .s 3 }) demo = true ∧ (readSrc (.s 3) demo).1.toNat % 4 = 0 ∧ ready (.ret { a := .s 1 }) demo = true
    ∧ (readSrc (.s 1) demo).1.toNat % 4 ≠ 0 ∧ ready (.brdec { d := .s 1, a := .i 2 }) demo = true := by decide
theorem wit_Steer : ready (.steer { d := .q 12, a := .i 3 }) demo = true
    ∧ (let s := { demoWith (fun k => qSet k 12 [.token 0x10010]) with cur := (0, true) }
       qGet (curCore s) 12 = [.token 0x10010] ∧ qReady (curCore s) 12 ≠ 0 ∧ pusherStores s = false ∧ issues (.follow { a := .q 12 }) s = true) := by decide
theorem wit_PrefixAndEnds : issues (.pfx {} { width := 5 }) demo = true ∧ issues (.retire {}) demo = true ∧ issues (.finish {}) demo = true
    ∧ supNow demo = false ∧ explicitOpen demo = false ∧ enginesIdle demo = true ∧ sendsDone demo 0 = true ∧ (curCore demo).mat.failed = none := by decide
/-- Cores 0 and 1 of a cluster run activations of one graph. -/
def demo2 : State := { demo with cores := [(0, core0), (1, core0)] }
theorem wit_CountedWaits : ready (.waitc { a := .i 0 }) demo = true ∧ ready (.realign { a := .i 64 }) demo = true ∧ realignPeers demo 0 false = []
    ∧ ready (.waitw { a := .i 5 }) demo = true ∧ waitNow demo = none ∧ ready (.realign { a := .i 64 }) demo2 = true ∧ realignPeers demo2 0 false ≠ []
    ∧ waitNow demo2 = none := by decide
/-- Slot 1 has fired. -/
def fired : State := demoWith (fun k => dlSet k 1 (dlWord 5 false false true true))
theorem wit_Time : issues (.rdts { d := .s 4 }) demo = true ∧ ready (.dlset { a := .i 1000 } { slot := 1, base := true }) demo = true
    ∧ issues (.dltest {} { slot := 1, pred := 2 }) demo = true ∧ ready (.dlwait { d := .s 9, a := .i 3 } {}) demo = true
    ∧ dlOf (curCore demo) 3 = []
    ∧ ready (.dlwait { d := .s 9, a := .i 3 } {}) fired = true ∧ dlFirst (curCore fired) (dlHit (curCore fired) 3) = some 1
    ∧ (let s := { fired with cur := (0, true) }; ready (.dlwait { d := .s 9, a := .i 3 } {}) s = true ∧ exTakes s 1 = false) := by decide
theorem wit_ControlRegisters : ready (.mfx { d := .s 1, a := .x .ratio }) demo = true ∧ accessOf .ratio ≠ .none ∧ ctlWaits demo .ratio = false
    ∧ ready (.mtx { d := .x .tow, a := .s 1 }) demo = true ∧ accessOf .tow = .rw ∧ ctlValueOk .tow 5 = true
    ∧ accessOf .fpflags = .w1c ∧ ctlValueOk .fpflags 5 = true ∧ ctlWaits demo .fpflags = false
    ∧ ready (.mfx { d := .s 1, a := .x .trapCause }) demo = true ∧ accessOf .trapCause = .none ∧ accessOf .lcore = .ro
    ∧ ready (.mtx { d := .x .rmode, a := .i 7 }) demo = true ∧ accessOf .rmode = .rw ∧ ctlValueOk .rmode 7 = false := by decide

/- Memory. -/

/-- Scalar loads, stores and blocks of SP. -/
def ldsPlain : Instr := .lds { d := .s 1, a := .s 2, b := .i 10 } { size := .d }
def ldsWaite : Instr := .lds { d := .s 1, a := .i 0, b := .i 0x40 } { size := .d, sync := .waite }
theorem wit_Loads :
    (∃ g ps, Reaches demo { d := .s 1, a := .s 2, b := .i 10 } { size := .d } .sp 8 8 true false g ps ∧ SyncMet demo { size := .d } ps
      ∧ (granules ps).all (fun x => !isBad demo x) = true)
    ∧ (∃ g ps, Reaches demo { d := .s 1, a := .i 0, b := .i 0x40 } { size := .d, sync := .waite } .sp 8 8 true false g ps
        ∧ SyncMet demo { size := .d, sync := .waite } ps ∧ (granules ps).all (fun x => !isBad demo x) = true)
    ∧ ldsPlain.wf = true ∧ ldsWaite.wf = true ∧ ready ldsPlain demo = true ∧ ready ldsWaite demo = true ∧ Safety.CanonicalMemory demo :=
  ⟨⟨_, _, ⟨rfl, rfl, rfl, rfl, rfl⟩, rfl, by decide⟩, ⟨_, _, ⟨rfl, rfl, rfl, rfl, rfl⟩, ⟨by decide, by decide⟩, by decide⟩,
   by decide, by decide, by decide, by decide, by decide, by decide, by decide⟩
theorem wit_BlockLoads :
    (∃ g ps, Reaches demo { d := .v 1, a := .s 1, b := .i 0xB } {} .sp 256 16 true true g ps ∧ SyncMet demo {} ps
      ∧ (granules ps).all (fun x => !isBad demo x) = true)
    ∧ (Instr.vlds { d := .v 1, a := .s 1, b := .i 0xB } {}).wf = true ∧ ready (.vlds { d := .v 1, a := .s 1, b := .i 0xB } {}) demo = true
    ∧ ViewReady demo { d := .v 1, a := .s 1, b := .i 0xB } :=
  ⟨⟨_, _, ⟨rfl, rfl, rfl, rfl, rfl⟩, rfl, by decide⟩, by decide, by decide, by decide, fun _ _ => by decide⟩
def stsPlain : Instr := .sts { d := .s 1, a := .s 2, b := .i 10 } { size := .d }
def stsPut : Instr := .sts { d := .s 1, a := .i 0, b := .i 0x40 } { size := .d, sync := .put }
theorem wit_Stores :
    (∃ g ps, Reaches demo { d := .s 1, a := .s 2, b := .i 10 } { size := .d } .sp 8 8 false false g ps ∧ isRegionAcc demo g.x = false)
    ∧ (∃ g ps, Reaches demo { d := .s 1, a := .i 0, b := .i 0x40 } { size := .d, sync := .put } .sp 8 8 false false g ps ∧ ps ≠ []
        ∧ syncTurn demo .put (granules ps) = true ∧ (granules ps).all (fun x => !isBad demo x) = true)
    ∧ stsPlain.wf = true ∧ stsPut.wf = true ∧ ready stsPlain demo = true ∧ ready stsPut demo = true ∧ ownPosted demo 0 false = []
    ∧ ViewReady demo { d := .s 1, a := .s 2, b := .i 10 } ∧ ViewReady demo { d := .s 1, a := .i 0, b := .i 0x40 } :=
  ⟨⟨_, _, ⟨rfl, rfl, rfl, rfl, rfl⟩, rfl⟩, ⟨_, _, ⟨rfl, rfl, rfl, rfl, rfl⟩, by decide, by decide, by decide⟩,
   by decide, by decide, by decide, by decide, by decide, ⟨by decide, nofun⟩, ⟨by decide, nofun⟩⟩

/-- Two stores to one granule are under way. -/
def demoPosted : State := { demo with posted := [{ pieces := [(0x100, [1, 2])], gid := 1, fill := true, rel := true }, { pieces := [(0x108, [3])], gid := 1 }] }
theorem wit_StoresLand : mayLand demoPosted 0 { pieces := [(0x100, [1, 2])], gid := 1, fill := true, rel := true } = true
    ∧ mayLand demoPosted 1 { pieces := [(0x108, [3])], gid := 1 } = false
    ∧ (granules [(0x100, 2)]).all (fun x => !isBad demoPosted x) = true ∧ Safety.CanonicalMemory demoPosted :=
  ⟨by decide, by decide, by decide, by decide, by decide, by decide⟩
theorem test_fill : feGet (after (exec (.storeLanding 0) demoPosted)) 0x10 = true ∧ rdBytes (after (exec (.storeLanding 0) demoPosted)).mem 0x100 2 = [1, 2] := by decide
def ldsOdd : Instr := .lds { d := .s 1, a := .s 1, b := .i 0 } { size := .d }
theorem wit_AccessTraps : ∃ g e, (target demo { d := .s 1, a := .s 1, b := .i 0 } .sp 1 8 .ld .plain (loadEng demo false)).1 = .ok g
    ∧ accChecks demo g 8 = some e ∧ g.x.addr.toNat % 8 ≠ 0 ∧ heldRop demo = none ∧ ldsOdd.wf = true ∧ ready ldsOdd demo = true
    ∧ (curCore demo).sup = false ∧ (curCore demo).region = none :=
  ⟨_, _, rfl, rfl, by decide, by decide, by decide, by decide, by decide, rfl⟩
theorem test_misaligned : (coreOf (after (exec (.lds { d := .s 1, a := .s 1, b := .i 0 } { size := .d }) demo)) 0).tcause = 0x206
    ∧ (coreOf (after (exec (.lds { d := .s 1, a := .s 1, b := .i 0 } { size := .d }) demo)) 0).taddr = 5 := by decide
theorem wit_FullEmpty : Safety.CanonicalMemory demo ∧ ready (.feget { d := .s 1, a := .i 16 }) demo = true ∧ inAlloc demo 16 1024 = true
    ∧ ownTouches demo 0 false false [(spHome demo 16, 1024)] = false ∧ ready (.feset { a := .i 16, b := .s 1 }) demo = true
    ∧ windowCheck demo { curAcc demo .sp 16 1024 .st with kind := .st } = none ∧ ready (.fewait { a := .i 16 } { want := true }) demo = true
    ∧ spCheck demo 16 16 = none ∧ ownTouches demo 0 false false [(spHome demo 16, 16)] = false ∧ syncTurn demo .waite [spHome demo 16 / 16] = true
    ∧ ownPosted demo 0 false = [] ∧ ready (.pref { a := .s 1, b := .i 0 }) demo = true :=
  ⟨⟨by decide, by decide, by decide⟩, by decide⟩

/-- The first GiB is mapped to GDDR at station 0, a record of 4 KiB of GLB at 0x2000 stands first in the pool, and v2 is zero. -/
def demoG : State :=
  { demo with
    stations := [(0, { tlb := [{ vpage := 0, pte := 0x1F, level := 1 }] })], graphs := [{ graph0 with pool := 0x1000, pooln := 1 }],
    mem := wrBytes {} (gddrBase + 0x1000) (leBytes 8 0x2000 ++ leBytes 8 0x1000 ++ [2, 0, 0, 3, 0xFF, 0xFF, 0xFF, 0xFF] ++ leBytes 8 0) }
def gath : Ops := { d := .v 1, a := .b 0, b := .v 2 }
/-- The elements of v2 as 64 lanes of GLB at 0x2000. -/
def lanesAt (k : AKind) : List Target := match laneTargets demoG gath { size := .w } (elemsOf 4 (srcBytes demoG (readVS (.v 2) demoG).1 4)) k with
  | .ok l => l
  | .error _ => []
def places : List (List (Nat × Nat)) := List.replicate 64 [(gddrBase + 0x2000, 4)]
theorem wit_GathersAndScatters :
    Safety.CanonicalMemory demoG ∧ vBad demoG (.v 1) = false ∧ vBad demoG (.v 2) = false ∧ enginesIdle demoG = true
    ∧ (ready (.vgath gath { size := .w }) demoG = true
      ∧ laneTargets demoG gath { size := .w } (elemsOf 4 (srcBytes demoG (readVS (.v 2) demoG).1 4)) .ld = .ok (lanesAt .ld)
      ∧ laneChecks demoG 4 (lanesAt .ld) = none ∧ laneHomes demoG 0 (lanesAt .ld) 0 = .ok (places.map Loc.here)
      ∧ ownTouches demoG 0 false true places.flatten = false ∧ (granules places.flatten).all (fun x => !isBad demoG x) = true
      ∧ (lanesAt .ld).all (fun t => (specRegion demoG t.x).isNone) = true)
    ∧ (ready (.vscat gath { size := .w }) demoG = true
      ∧ laneTargets demoG gath { size := .w } (elemsOf 4 (srcBytes demoG (readVS (.v 2) demoG).1 4)) .st = .ok (lanesAt .st)
      ∧ laneChecks demoG 4 (lanesAt .st) = none ∧ laneHomes demoG 1 (lanesAt .st) 0 = .ok (places.map Loc.here)
      ∧ (lanesAt .st).any (fun t => isRegionAcc demoG t.x) = false) :=
  ⟨⟨by decide, by decide, by decide⟩, by decide, by decide, by decide, ⟨by decide, rfl, rfl, rfl, by decide +kernel, by decide +kernel, by decide +kernel⟩,
   by decide, rfl, rfl, rfl, by decide +kernel⟩

/- Atomics. -/

theorem wit_AtomicArithmetic : (8 : Nat) ∈ [1, 2, 4, 8] := by decide
def aaddRet : Instr := .aadd { d := .s 4, a := .b 0, b := .i 0 } { size := .d, ret := true, scope := .device }
theorem wit_AtomicsReturn : ∃ o m mk g ps, aaddRet.wf = true ∧ atomicOf aaddRet = some (o, m, mk) ∧ ready aaddRet demoG = true
    ∧ ViewReady demoG o ∧ AtomReaches aaddRet demoG o m (mk demoG) g ps ∧ (m.ret = true ∨ g.x.space = .spx) ∧ ownPosted demoG demoG.cur.1 demoG.cur.2 = []
    ∧ m.scope ≠ .fabric ∧ (!(atomicRegions demoG g.x).isEmpty && atomHeldBack demoG (curBerth demoG).gid demoG.cur.1) = false
    ∧ (granules ps).all (fun x => !isBad demoG x) = true ∧ Safety.CanonicalMemory demoG :=
  ⟨_, _, _, _, _, by decide, rfl, by decide, ⟨rfl, nofun⟩, ⟨rfl, rfl, rfl, rfl, rfl, rfl, rfl, rfl, rfl⟩, .inl rfl, rfl, by decide, by decide, by decide,
   by decide, by decide, by decide⟩
theorem test_aadd : readS (after (exec aaddRet { demoG with mem := wrBytes demoG.mem (gddrBase + 0x2000) [7] })) 4 = 7 := by decide

def aaddPost : Instr := .aadd { d := .s 1, a := .b 0, b := .i 0 } { size := .d }
theorem wit_AtomicsPosted : ∃ o m mk g ps, aaddPost.wf = true ∧ atomicOf aaddPost = some (o, m, mk) ∧ ready aaddPost demoG = true
    ∧ ViewReady demoG o ∧ AtomReaches aaddPost demoG o m (mk demoG) g ps ∧ m.ret = false ∧ g.x.space ≠ .spx ∧ m.scope ≠ .fabric :=
  ⟨_, _, _, _, _, by decide, rfl, by decide, ⟨rfl, nofun⟩, ⟨rfl, rfl, rfl, rfl, rfl, rfl, rfl, rfl, rfl⟩, rfl, by decide, by decide⟩

/-- One posted atomic, which adds 5 to eight bytes of GDDR-7. -/
def adds (r : Option Nat) : Posted :=
  { gid := 1, pieces := [(gddrBase + 0x2000, List.replicate 8 0)], rel := true, atom := some { op := .add, e := 8, x := 5 }, ordred := r }
theorem wit_PostedAtomics : Safety.CanonicalMemory { demo with posted := [adds none] } ∧ mayLand { demo with posted := [adds none] } 0 (adds none) = true
    ∧ mayLand { demo with posted := [adds (some 0)] } 0 (adds (some 0)) = true ∧ (adds none).region = false ∧ (findGraph demo 1).isSome = true
    ∧ (granules [(gddrBase + 0x2000, 8)]).all (fun x => !isBad demo x) = true :=
  ⟨⟨by decide, by decide, by decide⟩, by decide⟩
theorem test_atomicPerform : rdBytes (after (exec (.atomicPerform 0) { demo with posted := [adds none] })).mem (gddrBase + 0x2000) 2 = [5, 0] := by decide

/- Regions and ordered tasks. -/

/-- A region of the graph, with a store of one byte, whose AREG stands at 0x10000. -/
def region0 : Region := { gid := 1, target := 0x10040, restart := 0x1000C, opd := .s 8, stores := [{ addr := gddrBase, bytes := [9] }] }
def inRegion (r : Region) : State := demoWith (fun k => { k with region := some r })
/-- What the region of this one read has changed since. -/
def stale : Region := { region0 with reads := [{ addr := gddrBase + 64, val := 1 }] }
theorem wit_RegionInstructions :
    (ready (.areg { d := .s 8, a := .i 16 }) demo = true ∧ regionCount demo < 512 ∧ (curBerth demo).det = false)
    ∧ (issues (.acommit {} { pred := 1 }) (inRegion { region0 with irrevocable := true }) = true
        ∧ ownPosted (inRegion { region0 with irrevocable := true }) 0 false = [])
    ∧ (issues (.acommit {} { pred := 1 }) (inRegion region0) = true ∧ commitFree (inRegion region0) 1 0 = true
        ∧ ownPosted (inRegion region0) 0 false = [] ∧ ready (.aabort { a := .i 3 }) (inRegion region0) = true)
    ∧ (∃ l, validate (inRegion region0) 0 (curBerth (inRegion region0)) region0 = .ok l
        ∧ ∀ x ∈ l, (granules [(x.addr, x.bytes.length)]).all (fun y => !isBad (inRegion region0) y) = true)
    ∧ validate (inRegion stale) 0 (curBerth (inRegion stale)) stale = .error 1 :=
  ⟨by decide, by decide, by decide, ⟨_, rfl, by decide⟩, rfl⟩
theorem test_acommit : rdByte (after (exec (.acommit {} { pred := 1 }) (inRegion region0))).mem gddrBase = 9
    ∧ readK (after (exec (.acommit {} { pred := 1 }) (inRegion region0))) 1 = true := by decide
theorem test_aabort : readS (after (exec (.aabort { a := .i 3 }) (inRegion region0))) 8 = 0x305
    ∧ pcNow (after (exec (.aabort { a := .i 3 }) (inRegion region0))) = 0x10040 := by decide

/-- The graph takes ordered tasks; its kernel is task 1, whose descriptor lies in the pool of zeros at 0x4000. -/
def demoOrd : State :=
  { demoG with graphs := [{ graph0 with hasOrd := true, otask := 1, ocap := 4, tasks := [{ st := .bound }, { tdesc := 0x4000 }],
                                        ords := [{ ts := 3 }] }] }
theorem wit_SpawnsTasks : ready (.tspawn { d := .i 16, a := .i 7, b := .i 32 }) demoOrd = true ∧ inAlloc demoOrd 16 32 = true
    ∧ (curGraph demoOrd).hasOrd = true ∧ explicitOpen demoOrd = false ∧ (curBerth demoOrd).ordered = false ∧ spBad demoOrd 16 32 = none
    ∧ (curCore demoOrd).act.isSome = true ∧ (curBerth demoOrd).lastSpawn = none := by decide

def idleCore : State := { demoOrd with cores := [] }
/-- An ordered task awaits its commit. -/
def awaiting : OTask := { st := .awaiting, region := some { region0 with implicit := true } }
def demoAwait : State := { demo with graphs := [{ graph0 with hasOrd := true, ords := [awaiting] }] }
/-- Its ACOMMIT waits for the commit point. -/
def commitHeld : State :=
  inRegion region0 |> fun s => updCore s 0 (fun k => { k with ex := { k.ex with wait := some { instr := .acommit {} { pred := 1 }, why := .commit } } })
theorem wit_CommitCompletes : ∃ w l, waitAt commitHeld 0 false = some w ∧ w.instr = .acommit {} { pred := 1 } ∧ w.why = .commit
    ∧ (coreOf commitHeld 0).sup = false ∧ (coreOf commitHeld 0).stepping &&& 1 = 0 ∧ eventDue commitHeld 0 = none
    ∧ engineWait (asStream commitHeld 0 false) w.instr {} = false ∧ (coreOf commitHeld 0).region = some region0 ∧ region0.implicit = false
    ∧ region0.irrevocable = false ∧ region0.overflow = false ∧ region0.aborting = none ∧ ownPosted commitHeld 0 false = []
    ∧ commitFree commitHeld (actBerth (coreOf commitHeld 0)).gid 0 = true ∧ validate commitHeld 0 (actBerth (coreOf commitHeld 0)) region0 = .ok l
    ∧ ∀ x ∈ l, (granules [(x.addr, x.bytes.length)]).all (fun y => !isBad commitHeld y) = true :=
  ⟨_, _, rfl, rfl, rfl, by decide, by decide, by decide, by decide, rfl, rfl, rfl, rfl, rfl, by decide, by decide, rfl, by decide⟩
theorem wit_HeldMessageLeaves : let s := demoWith (fun k => { k with handoff := [{ gid := 1 }] })
    (coreOf s 0).handoff = [{ gid := 1 }] ∧ hasSlot s { gid := 1 } = true := by decide
def oldRegion : State := { inRegion stale with clusters := [(0, { cyc := 70000 })] }
theorem wit_OldRegionAborts : (coreOf oldRegion 0).region = some stale ∧ stale.implicit = false ∧ stale.irrevocable = false ∧ stale.overflow = false
    ∧ stale.commit = false ∧ stale.aborting = none ∧ (coreOf oldRegion 0).sup = false ∧ geared oldRegion 0 = false
    ∧ 65536 ≤ cycOf oldRegion 0 - stale.startCyc ∧ readsHold oldRegion stale = false ∧ CauseFits (coreOf oldRegion 0) stale :=
  ⟨by decide, by decide, by decide, by decide, by decide, by decide, by decide, by decide, by decide, by decide, nofun⟩
/-- The region of that AREG, with a queue for its causes, has overflowed. -/
def overflowed : Region := { region0 with opd := .q 4, overflow := true }
theorem wit_OverflowedRegionRestarts : (coreOf (inRegion overflowed) 0).region = some overflowed ∧ overflowed.overflow = true ∧ overflowed.aborting = none
    ∧ (coreOf (inRegion overflowed) 0).sup = false ∧ (graphOf (inRegion overflowed) 1).commitPt = none ∧ (findGraph (inRegion overflowed) 1).isSome = true
    ∧ geared (inRegion overflowed) 0 = false ∧ CauseFits (coreOf (inRegion overflowed) 0) overflowed :=
  ⟨by decide, by decide, by decide, by decide, by decide, by decide, by decide, fun q h => by cases h; decide⟩
theorem test_irrevocableRestart : (let k := coreOf (after (exec (.irrevocableRestart 0) (inRegion overflowed))) 0
    (k.ex.pc, qGet k 4, k.region.map (·.irrevocable))) = (0x1000C, [.word 7], some true) := by decide
theorem wit_OrderedTaskCommits : ∃ g l, findGraph demoAwait 1 = some g ∧ commitFront g = some 0 ∧ g.ords[0]? = some awaiting
    ∧ awaiting.region = some { region0 with implicit := true } ∧ awaiting.st = .awaiting ∧ frontHeld demoAwait g awaiting.ts = false ∧ g.commitPt = none
    ∧ demoAwait.posted.any (fun p => p.ord && p.gid == 1 && p.task == 0) = false
    ∧ validate demoAwait awaiting.core { gid := 1, task := 0, lcore := 0xFFFF, pasid := g.pasid, ordered := true } { region0 with implicit := true } = .ok l
    ∧ ∀ x ∈ l, (granules [(x.addr, x.bytes.length)]).all (fun y => !isBad demoAwait y) = true :=
  ⟨{ graph0 with hasOrd := true, ords := [awaiting] }, region0.stores, rfl, by decide, rfl, rfl, rfl, by decide, rfl, by decide, rfl, by decide⟩
theorem test_orderedTaskCommit : (let t := after (exec (.orderedTaskCommit 1) demoAwait)
    (rdByte t.mem gddrBase, t.graphs.map (fun g => g.ords.map (fun o => o.st)))) = (9, [[.committed]]) := by decide
theorem wit_OrderedTaskStarts : ∃ g o d room, findGraph idleCore 1 = some g ∧ nextOrd idleCore g = some 0 ∧ g.ords[0]? = some o ∧ g.tasks[g.otask]? = some d
    ∧ (coreOf idleCore 0).act = none ∧ geared idleCore 0 = false ∧ berthHeld idleCore 0 0 = false
    ∧ roomAt idleCore 0 (regKiB d.regreq) (spRows d.spreq) = some room ∧ ∃ t, readTask idleCore g.pasid d.tdesc.toNat = some t :=
  ⟨_, _, _, _, rfl, by decide, rfl, rfl, by decide, by decide, by decide, rfl, Option.isSome_iff_exists.mp (by decide +kernel)⟩
theorem test_orderedTaskStart : (let t := after (exec (.orderedTaskStart 1 0 0 0) idleCore)
    ((coreOf t 0).act.isSome, (berthAt (coreOf t 0) 0).state, (coreOf t 0).ex.pc)) = (true, .live, 0x10000) := by decide +kernel


/- Fences and barriers. -/

theorem wit_FenceGoesOn : issues (.fence {} { scope := .fabric, kind := .acqrel, eng := true }) demo = true ∧ engineJoined demo = true
    ∧ storesVisible demo true = true := by decide

/-- A core alone in its row, whose graph has a grid of one core. -/
def atBar (f : Berth → Berth) (g : Core → Core) : State :=
  demoWith (fun k => g { k with berths := k.berths.set 0 (f berth0) })
/-- It has arrived at phase 1. -/
def arrived (f : Berth → Berth) (g : Core → Core) : State := atBar (fun b => f { b with hbar := hSet b.hbar .row 1 }) g
def phaseDone (b : Berth) : Berth := { b with hdone := hSet b.hdone .row 1 }
/-- Its HBAR is held. -/
def atHbar : State :=
  arrived phaseDone (fun k => { k with ex := { k.ex with wait := some { instr := .hbar {} {}, why := .timed, aux := 1 } } })
theorem wit_HardwareBarriers :
    ((curCore demo).act.isSome = true ∧ (curBerth demo).ordered = false ∧ regionOpen demo = false
      ∧ ready (.hbara { d := .s 4 } {}) demo = true ∧ mayEnter demo .row = true)
    ∧ (issues (.hbar {} {}) demo = true ∧ standing demo .row = false)
    ∧ (let s := arrived phaseDone (fun k => { k with marks := 1 })
       issues (.hbar {} {}) s = true ∧ standing s .row = true ∧ supNow s = false ∧ phaseGe (hGet (curBerth s).hdone .row) (hGet (curBerth s).hbar .row) = true)
    ∧ (issues (.hbar {} {}) atHbar = true ∧ geared atHbar 0 = false ∧ eventDue atHbar 0 = none ∧ waitNow atHbar = some { instr := .hbar {} {}, why := .timed, aux := 1 }
        ∧ standing atHbar .row = false ∧ phaseGe (hGet (curBerth atHbar).hdone .row) (hGet (curBerth atHbar).hbar .row) = true)
    ∧ (ready (.hbarw { a := .i 1 } {}) (arrived phaseDone id) = true ∧ phaseGe (hGet (curBerth (arrived phaseDone id)).hdone .row) 1 = true)
    ∧ (let s := arrived id id
       findGraph s 1 = some graph0 ∧ (berthAt (coreOf s 0) 0).state = .live ∧ phaseGe (hGet (berthAt (coreOf s 0) 0).hbar .row) 1 = true
         ∧ barGroup graph0 .row 0 = [0] ∧ hasReached s graph0 .row 1 0 = true) := by decide
theorem test_hbarPhaseComplete :
    hGet (berthAt (coreOf (after (exec (.hbarPhaseComplete 0 0 .row) (arrived id id))) 0) 0).hdone .row = 1 := by decide

/-- Scratchpad of core 0, by address. -/
def demoMem (l : List (Nat × List Byte)) : State := { demo with mem := l.foldl (fun m p => wrBytes m (spBase + p.1) p.2) {} }
/-- A barrier at 0x100 that waits for n bytes. -/
def barrier (n : Nat) : Nat × List Byte := (0x100, leBytes 16 (barWord n true false false 0 0 1))
def demoDet : State := demoWith (fun k => { k with berths := k.berths.set 0 { berth0 with det := true } })
theorem wit_AsyncBarriers :
    (Safety.CanonicalMemory demo ∧ Safety.CanonicalMemory (demoMem [barrier 0]) ∧ Safety.CanonicalMemory demoDet)
    ∧ (ready (.abarm { a := .i 256, b := .i 512 }) demo = true ∧ spCheck demo 256 16 = none ∧ barBusy demo 256 = false ∧ isBad demo (spHome demo 256 / 16) = false
        ∧ ownTouches demo 0 false false [(spHome demo 256, 16)] = false ∧ regionOpen demo = false)
    ∧ (ready (.abwait { a := .i 256 } {}) (demoMem [barrier 0]) = true ∧ spCheck (demoMem [barrier 0]) 256 16 = none
        ∧ spBad (demoMem [barrier 0]) 256 16 = none ∧ barDone (barAt (demoMem [barrier 0]) 256) = true
        ∧ barFail (barAt (demoMem [barrier 0]) 256) = false ∧ ownTouches (demoMem [barrier 0]) 0 false true [(spHome (demoMem [barrier 0]) 256, 16)] = false)
    ∧ (ready (.abtest { d := .s 4, a := .i 256 } { pred := 1 }) demo = true ∧ (curBerth demo).det = false ∧ spBad demo 256 16 = none
        ∧ spCheck demo 256 16 = none ∧ ownTouches demo 0 false true [(spHome demo 256, 16)] = false ∧ ready (.wmark { a := .i 8 }) demo = true)
    ∧ (ready (.wmark { a := .i 8 }) demoDet = true ∧ (curBerth demoDet).det = true ∧ storesVisible demoDet false = true) :=
  ⟨⟨⟨by decide, by decide, by decide⟩, ⟨by decide, by decide, by decide⟩, ⟨by decide, by decide, by decide⟩⟩, by decide, by decide, by decide, by decide⟩
theorem test_abarm : rdBytes (after (exec (.abarm { a := .i 256, b := .i 0x210 }) (demoMem [barrier 0]))).mem (spBase + 0x100) 16
    = [0x10, 2, 0, 0, 0, 0, 0, 1, 0, 0, 0, 0, 0, 0, 0, 2] := by decide

/- Copies. -/

theorem wit_CopiesIssue :
    (let o : Ops := { a := .i 0, b := .l64 0x20000000100, d := .i 0x400 }
     ready (.cpy o {}) demo = true ∧ regionOpen demo = false ∧ ownPosted demo 0 false = [] ∧ ready (.pce o {}) demo = true ∧ permitsUsed demo false < 64 ∧ permitsUsed demo true < 4
       ∧ copyChecks demo 5 false 0x100 [0x100, 512] [{ space := .sp, addr := 0, n := 512, write := false }]
           [{ space := .sp, addr := 0x400, n := 512, write := true }] false = none
       ∧ copyChecks demo 6 false 0x100 [0x100, 512] [{ space := .sp, addr := 0, n := 512, write := false }]
           [{ space := .sp, addr := 0x400, n := 512, write := true }] false = none)
    ∧ (ready (.cpy { a := .i 0, b := .i 0x100, d := .i 0x400 } {}) demo = true
       ∧ copyChecks demo 5 false 0x100 [0x100, 0] [{ space := .sp, addr := 0, n := 0, write := false }]
           [{ space := .sp, addr := 0x400, n := 0, write := true }] false = none) := by decide
theorem test_cpy : (after (exec (.cpy { a := .i 0, b := .l64 0x20100000100, d := .i 0x400 } {}) demo)).copies.map (fun k => k.chunks.map (fun c => (c.src, c.dst, c.len)))
    = [] ∧ (coreOf (after (exec (.cpy { a := .i 0, b := .l64 0x20100000100, d := .i 0x400 } {}) demo)) 0).tcause = 0x206
    ∧ (after (exec (.cpy { a := .i 0, b := .l64 0x21000000100, d := .i 0x400 } {}) demo)).copies.map (fun k => k.chunks.map (fun c => (c.src, c.dst, c.len)))
    = [[(0, 0x400, 256), (256, 0x500, 256), (512, 0x600, 16)]] := by decide

/-- A tensor map of one element of record 0, and the record: 4 KiB of GLB at 0x2000. -/
def mapB : List Byte := [0, 0, 1, 0, 0, 0, 0, 0] ++ (List.replicate 5 (leBytes 8 1)).flatten ++ List.replicate 16 0
def recB : List Byte := leBytes 8 0x2000 ++ leBytes 8 0x1000 ++ [2, 0, 0, 3, 0xFF, 0xFF, 0xFF, 0xFF] ++ leBytes 8 0
/-- Blocks for CPY2, MCAST and CPYT at 0x200, 0x240 and 0x280, and the map staged. -/
def demoBlocks : State :=
  { demoWith (fun k => { k with maps := [{ gid := 1, idx := 0, map := mapB, trec := recB }] }) with
    mem := [(0x200, leBytes 4 256 ++ leBytes 4 2 ++ leBytes 4 256 ++ leBytes 4 256 ++ leBytes 4 0x100),
            (0x240, leBytes 4 256 ++ leBytes 4 0x100 ++ leBytes 2 1 ++ [0, 0] ++ leBytes 4 0x2C0), (0x294, leBytes 4 0x100)].foldl
              (fun m p => wrBytes m (spBase + p.1) p.2) {} }
/-- The map in memory. -/
def demoMap : State :=
  { demoG with graphs := [{ graph0 with pool := 0x1000, pooln := 1, tmaptab := 0x3000, tmapn := 1 }], mem := wrBytes demoG.mem (gddrBase + 0x3000) mapB }
theorem wit_StridedCastAndMappedCopies :
    (regionOpen demoBlocks = false ∧ ownPosted demoBlocks 0 false = [] ∧ permitsUsed demoBlocks false < 64
      ∧ ready (.cpy2 { a := .i 0, b := .i 0x200, d := .i 0x400 } {}) demoBlocks = true ∧ spCheck demoBlocks 0x200 32 = none ∧ spBad demoBlocks 0x200 32 = none
      ∧ leAt (spSeen demoBlocks 0x200 32) 4 4 = 2 ∧ leAt (spSeen demoBlocks 0x200 32) 20 12 = 0
      ∧ copyChecks demoBlocks 5 false 0x100 [0x100, 256, 256, 256]
          [{ space := .sp, addr := 0, n := 256, write := false }, { space := .sp, addr := 0x100, n := 256, write := false }]
          [{ space := .sp, addr := 0x400, n := 256, write := true }, { space := .sp, addr := 0x500, n := 256, write := true }] false = none)
    ∧ (ready (.mcast { a := .i 0, b := .i 0x240, d := .i 0x400 } {}) demoBlocks = true ∧ spCheck demoBlocks 0x240 32 = none ∧ spBad demoBlocks 0x240 32 = none
        ∧ leAt (spSeen demoBlocks 0x240 32) 8 2 = 1 ∧ inAlloc demoBlocks 0x2C0 2 = true ∧ leAt (spSeen demoBlocks 0x2C0 2) 0 2 = 0
        ∧ copyChecks demoBlocks 5 false 0x100 [0x100, 256, 0x400] [{ space := .sp, addr := 0, n := 256, write := false }]
            [{ space := .spx, addr := BitVec.ofNat 64 (castAddr 0x400 0), n := 256, write := true }] false = none)
    ∧ (∃ e rc, stagedMap demoBlocks 0 = some e ∧ rcdOf e.trec = some rc ∧ ready (.cpyt { a := .i 0, b := .i 0x280, d := .i 0x400 } {}) demoBlocks = true
        ∧ spCheck demoBlocks 0x280 32 = none ∧ spBad demoBlocks 0x280 32 = none ∧ leAt (spSeen demoBlocks 0x280 32) 0x18 8 = 0
        ∧ walkBad (tmapOf e.map) [0, 0, 0, 0, 0] = false ∧ rcdCheck (curBerth demoBlocks).sects (some rc) (BitVec.ofNat 64 rc.base) 0 0 true false .plain 5 = none
        ∧ 0 < tmapOut (tmapOf e.map)
        ∧ copyChecks demoBlocks 5 false 0x100 []
            [{ space := rc.space, addr := BitVec.ofNat 64 (granFrom rc.base), n := rc.ext + rc.base % 16, write := false, only := rc.ilreg }]
            [{ space := .sp, addr := 0x400, n := tmapOut (tmapOf e.map), write := true }] false = none)
    ∧ (∃ mb rb, stagedMap demoMap 0 = none ∧ fetchMap demoMap 0 = .ok (mb, rb) ∧ ready (.tmaps { a := .i 0 }) demoMap = true
        ∧ regionOpen demoMap = false ∧ ownPosted demoMap 0 false = [] ∧ permitsUsed demoMap false < 64
        ∧ spCheck demoMap (readSrc .none demoMap).1 32 = none ∧ spBad demoMap (readSrc .none demoMap).1.toNat 32 = none) :=
  ⟨by decide, by decide, ⟨_, _, rfl, rfl, by decide, by decide, by decide, by decide, by decide, by decide, by decide, by decide⟩,
   ⟨_, _, by decide, rfl, by decide⟩⟩

/-- A copy of one chunk. -/
def copy1 (spc : Space) (dst : Nat) : Copy :=
  { gid := 1, dstSp := spc, bar := 0x100, chunks := [{ src := 0, dst := dst, len := 16 }], rd := [(0, 16)], wr := [(dst, 16)] }
def copying (k : Copy) : State := { demoMem [barrier 16, (0, [1, 2, 3])] with copies := [k], copyNext := 1 }
/-- The page table of PASID 0 is empty. -/
def copyStalls : State := { demo with mem := wrBytes {} gddrBase (leBytes 16 0x1001), copies := [copy1 .glb 0x400], copyNext := 1 }
theorem wit_CopySteps_land : ∃ k c bs l, openChunk (copying (copy1 .sp 0x400)) 0 0 = some (k, c)
    ∧ chunkRun (copying (copy1 .sp 0x400)) k c = .land bs l ∧ k.fill = false
    ∧ barArmed (barGet (landChunk (copying (copy1 .sp 0x400)) k bs l) k) = true
    ∧ c.len ≤ barPend (barGet (landChunk (copying (copy1 .sp 0x400)) k bs l) k) :=
  ⟨_, _, placeBytes (copying (copy1 .sp 0x400)) [(0, spBase, 16)], [(0, spBase + 0x400, 16)], rfl, rfl, rfl, by decide, by decide⟩
theorem wit_CopySteps_stall : ∃ k c kind p v a, openChunk copyStalls 0 0 = some (k, c) ∧ k.st = .running ∧ chunkRun copyStalls k c = .stall kind p v a :=
  ⟨_, _, 4, 0, 0, 0x400, rfl, rfl, rfl⟩
/-- GLB from 0 on lies on peers' pages, and every device of the grid may be addressed. -/
def copySends : State :=
  { copying (copy1 .glb 0x400) with stations := [(0, { tlb := [{ vpage := 0, pte := 0x18F, level := 1 }] })], fabric := { gxm1 := 15, gym1 := 15 } }
theorem wit_CopySteps_send : ∃ k c bs l, openChunk copySends 0 0 = some (k, c) ∧ chunkRun copySends k c = .send bs l := by
  refine ⟨copy1 .glb 0x400, { src := 0, dst := 0x400, len := 16 }, placeBytes copySends [(0, spBase, 16)], [(3, 0x400, 16)], rfl, ?_⟩
  have near : ∀ n, n < 256 → devBad copySends n = false := by decide +kernel
  show (if farBad copySends [(3, 0x400, 16)] then _ else _) = _
  rw [show farBad copySends [(3, 0x400, 16)] = false by
    rw [farBad, List.any_cons, List.any_nil, pieceDev, near _ (Nat.mod_lt _ (by decide))]; rfl]
  rfl
theorem wit_CopySteps_fail : ∃ k c code a, openChunk (copying (copy1 .glb 0x400)) 0 0 = some (k, c)
    ∧ chunkRun (copying (copy1 .glb 0x400)) k c = .fail code a none :=
  ⟨_, _, 0x204, 0x400, rfl, rfl⟩
theorem test_chunkLanding : (let t := after (exec (.chunkLanding 0 0) (copying (copy1 .sp 0x400)))
    rdBytes t.mem (spBase + 0x400) 4 = [1, 2, 3, 0] ∧ rdBytes t.mem (spBase + 0x100) 8 = leBytes 8 (2 ^ 56) ∧ t.copies = []) := by decide

/- Messages and the network. -/

/-- Launch context 0 is enabled. -/
def demoCtx (q : List LaunchPkt) : State := { demo with ctxs := [(0, { enable := true, queue := q })] }
theorem wit_MessagesLeave :
    (regionOpen demo = false ∧ ready (.send { d := .i 8, a := .s 1, b := .s 2 } {}) demo = true
      ∧ hasSlot demo (formMsg (curBerth demo) 8 (leBytes 8 5 ++ leBytes 8 6)) = true ∧ (curCore demo).handoff = [] ∧ ownPosted demo 0 false = [] ∧ heldData demo = none)
    ∧ (ready (.sends { d := .i 8, a := .i 16, b := .i 32 } {}) demo = true ∧ inAlloc demo 16 32 = true ∧ spBad demo 16 32 = none
        ∧ hasSlot demo (formMsg (curBerth demo) 8 (spSeen demo 16 32)) = true)
    ∧ (∃ ps, ready (.launch { d := .s 4, a := .i 64 }) (demoCtx []) = true ∧ accChecks (demoCtx []) { x := curAcc (demoCtx []) .sp 64 64 .ld } 16 = none
        ∧ locate (demoCtx []) (curAcc (demoCtx []) .sp 64 64 .ld) 0 = .ok (.here ps) ∧ ownTouches (demoCtx []) 0 false true ps = false
        ∧ (granules ps).all (fun x => !isBad (demoCtx []) x) = true ∧ (ctxOf (demoCtx []) 0).enable = true ∧ heldRop (demoCtx []) = none)
    ∧ (let s := demoCtx (List.replicate 256 {}); ready (.launch { d := .s 4, a := .i 64 }) s = true ∧ (ctxOf s 0).queue.length = 256)
    ∧ (ready (.launch { d := .s 4, a := .i 64 }) demo = true ∧ (ctxOf demo 0).enable = false) :=
  ⟨by decide, by decide, ⟨_, by decide, rfl, rfl, by decide, by decide, by decide, by decide⟩, by decide +kernel, by decide⟩
theorem test_send : (let t := after (exec (.send { d := .i 8, a := .s 1, b := .s 2 } {}) demo)
    t.transit.map (fun m => (m.payload, m.seq, m.sender)) = [([5, 0, 0, 0, 0, 0, 0, 0, 6, 0, 0, 0, 0, 0, 0, 0], 1, 0)]) := by decide

/-- A WRITE of 16 bytes from SP, counted at 0x200. -/
def reqB : List Byte := [1] ++ List.replicate 31 0 ++ leBytes 4 16 ++ leBytes 4 0 ++ leBytes 8 0x200 ++ List.replicate 16 0
/-- A window of the first 4 KiB of vault 0, with key 7. -/
def winB : List Byte := leBytes 8 0 ++ leBytes 4 4096 ++ leBytes 4 7 ++ leBytes 8 0 ++ [1, 7, 0, 0, 0, 0, 0, 0]
def demoNet : State :=
  { demoMem [(0x40, reqB)] with net := { reqs := [{ gid := 1, bytes := reqB }], eps := [(0, [1])], wins := [(0, winB)] } }
theorem wit_NetworkEngine :
    Safety.CanonicalMemory demoNet
    ∧ (ready (.netpost { d := .s 4, a := .i 64, b := .i 1 }) demoNet = true ∧ (curCore demoNet).act.isSome = true ∧ inAlloc demoNet 64 64 = true
        ∧ spBad demoNet 64 64 = none
        ∧ postChecks demoNet 0 (reqBlocks (spSeen demoNet 64 64) 1) (windowsOf demoNet 0 (actBerthNo (curCore demoNet))) = none
        ∧ postedReqs demoNet 0 0 = 1 ∧ ownPosted demoNet 0 false = [] ∧ regionOpen demoNet = false)
    ∧ (ready (.netpoll { d := .s 4, a := .i 0x200, b := .i 0 } {}) demoNet = true ∧ locTrap demoNet 0x200 = none
        ∧ isBad demoNet (locHome demoNet 0 0 0x200 / 16) = false ∧ ownTouches demoNet 0 false true [(locHome demoNet 0 0 0x200, 8)] = false)
    ∧ (epValid (epEntry demoNet (leAt reqB 2 2)) = true ∧ reqReads reqB = false ∧ reqPlaces demoNet { gid := 1, bytes := reqB } = some [(0, spBase, 16)]
        ∧ locHome demoNet 0 0 (leAt reqB 0x28 8) % 16 = 0)
    ∧ (winAdmits (winEntry demoNet 0) 6 0 16 true = false ∧ winAdmits (winEntry demoNet 0) 7 4090 16 false = false
        ∧ winAdmits (winEntry demoNet 0) 7 0 16 true = true ∧ winAdmits (winEntry demoNet 0) 7 4080 16 false = true
        ∧ winPlaces demoNet (winEntry demoNet 0) 0 16 true = some [(vaultBase, 16)]
        ∧ winPlaces demoNet (winEntry demoNet 0) 4080 16 false = some [(vaultBase + 4080, 16)])
    ∧ (let s := { demoNet with net := { demoNet.net with iwin := true, iidx := 1023 } }; s.net.iall = false ∧ s.net.iwin = true ∧ s.net.iidx.toNat < 1024) :=
  ⟨⟨by decide, by decide, by decide⟩, by decide, by decide, by decide, by decide, by decide⟩
theorem test_networkFailed : (let t := after (exec (.workRequestComplete 0 (.failed 3)) demoNet)
    rdBytes t.mem (spBase + 0x200) 8 = [0, 0, 0, 0, 0, 0, 1, 0] ∧ t.asyncs.map (fun x => x.ev.code) = [0x507]) := by decide

/- Other devices. -/

/-- Device 0 of a row of four; operations under way. -/
def demoFab (l : List ROp) : State := { demo with fabric := { gxm1 := 3, rops := l } }
/-- The execute stream of core 0 is held for an operation that has its answer. -/
def answered (r : Reply) : State := demoFab [{ dev := 1, held := true, done := true, rep := some r }]
def far : Ops := { d := .s 4, a := .l64 0x0100000000001000, b := .i 0 }
theorem wit_RemoteInstructions :
    (ready (.rld far { size := .d }) (demoFab []) = true ∧ heldRop (demoFab []) = none
      ∧ remoteChecks (demoFab []) 0x0100000000001000 8 = none ∧ fabDev 0x0100000000001000 ≠ selfId (demoFab []))
    ∧ (ready (.rld far { size := .d }) (answered (.data [1, 2, 3, 4, 5, 6, 7, 8])) = true ∧ heldRops (answered (.data [1, 2, 3, 4, 5, 6, 7, 8])) = [{ dev := 1, held := true, done := true, rep := some (.data [1, 2, 3, 4, 5, 6, 7, 8]) }])
    ∧ (ready (.rst far { size := .d }) (demoFab []) = true ∧ carried (curStream (demoFab [])) 0 = [] ∧ ready (.rst far { size := .d, tab := true }) (demoFab []) = true)
    ∧ freeRack (demoFab []) = some 0
    ∧ (ready (.tabwait { a := .i 0 } {}) (demoFab []) = true ∧ regionOpen (demoFab []) = false ∧ tabDev 0 = selfId (demoFab []) ∧ rackStatus (demoFab []) 0 = 1)
    ∧ (ready (.tabwait { a := .l64 0x01000000 } {}) (answered (.tablet 1)) = true ∧ tabDev 0x01000000 ≠ selfId (answered (.tablet 1))
        ∧ heldRops (answered (.tablet 1)) = [{ dev := 1, held := true, done := true, rep := some (.tablet 1) }])
    ∧ (ready (.tabtest { d := .s 4, a := .i 0 } { pred := 1 }) (demoFab []) = true
        ∧ ready (.tabtest { d := .s 4, a := .l64 0x01000000 } { pred := 1 }) (answered (.tablet 2)) = true
        ∧ heldRops (answered (.tablet 2)) = [{ dev := 1, held := true, done := true, rep := some (.tablet 2) }]) :=
  ⟨by decide, by decide, by decide, by decide +kernel, by decide, by decide, by decide⟩
theorem test_rld : readS (after (exec (.rld { far with a := .l64 0x0100000000001000 } { size := .h, sx := true }) (answered (.data [0xFE, 0xFF])))) 4
    = 0xFFFFFFFFFFFFFFFE := by decide
theorem test_rst : (after (exec (.rst far { size := .d }) (demoFab []))).fabric.rops.map (fun r => (r.kind, r.dev, r.va)) = [(.store, 1, 0x0100000000001000)] := by decide

/- The vector engine. -/

def vaddF : Instr := .vadd { d := .v 1, a := .v 2, b := .v 3 } { ty := .f32 }
def demoFpTrap : State := demoWith (fun k => { k with ex := { k.ex with fptrap := 31 } })
theorem wit_VectorInstructionsIssue : ∃ o m, vectorOf vaddF = some (o, m) ∧ ready vaddF demo = true ∧ VectorOk vaddF demo o m ∧ (curCore demo).vq = []
    ∧ (vecCmd vaddF o m (vecOps vaddF).2.1 (vecOps vaddF).2.2 (isVrand vaddF) demo).1.en = 0
    ∧ ready vaddF demoFpTrap = true ∧ VectorOk vaddF demoFpTrap o m
    ∧ mayRaise (vecCmd vaddF o m (vecOps vaddF).2.1 (vecOps vaddF).2.2 (isVrand vaddF) demoFpTrap).1.m (neverRaises vaddF) = true
    ∧ (vecCmd vaddF o m (vecOps vaddF).2.1 (vecOps vaddF).2.2 (isVrand vaddF) demoFpTrap).1.en ≠ 0 :=
  ⟨_, _, rfl, by decide, ⟨by decide, by decide, by decide, fun _ _ _ h => by cases h; decide⟩, by decide, by decide, by decide,
   ⟨by decide, by decide, by decide, fun _ _ _ h => by cases h; decide⟩, by decide, by decide⟩

/-- A command at the head of the vector queue, with v1 to write. -/
def queued (v : VCmd) : State := demoWith (fun k => { k with vq := [v], ex := { k.ex with fptrap := v.en } })
def vCmd (i : Instr) (ty : VType) (d : VDst) (win : Bool) (en : BitVec 5) : VCmd :=
  { instr := i, pc := 0x10000, m := { ty := ty }, a := .reg (rsAddr 0 512), b := .reg (rsAddr 0 768), d := d, win := win, en := en }
def vaddI : VCmd := vCmd (.vadd { d := .v 1, a := .v 2, b := .v 3 } { ty := .s32 }) .s32 (.reg (rsAddr 0 256)) false 0
def vrcpZero : VCmd := vCmd (.vrcp { d := .v 1, a := .v 2 } { ty := .f32 }) .f32 (.reg (rsAddr 0 256)) true 31
def vaddZero : VCmd := vCmd (.vadd { a := .v 2, b := .v 3 } { ty := .f32 }) .f32 .none true 31
theorem wit_VectorCommandsComplete :
    (geared (queued vaddI) 0 = false ∧ vecBlocked (coreOf (queued vaddI) 0) vaddI = false ∧ vaddI.win = false)
    ∧ (vecBlocked (coreOf (queued vrcpZero) 0) vrcpZero = false ∧ vrcpZero.win = true
        ∧ vrcpZero.en.toNat &&& vecRaised vrcpZero (vecResult (queued vrcpZero) vrcpZero) ≠ 0
        ∧ (coreOf (queued vrcpZero) 0).sup = false ∧ (coreOf (queued vrcpZero) 0).region = none)
    ∧ (vaddZero.win = true ∧ vaddZero.en.toNat &&& vecRaised vaddZero (vecResult (queued vaddZero) vaddZero) = 0
        ∧ (coreOf (queued vaddZero) 0).stepping = 0) := by decide +kernel
theorem test_vrcp : (coreOf (after (exec (.vectorComplete 0) (queued vrcpZero))) 0).tcause = 0x120 := by decide +kernel

/- The matrix engine. -/

/-- ABASE 0, N 8. -/
def desc8 : W64 := 0x800000000
def mma8 : Instr := .mma { d := .a 0, a := .l64 desc8, b := .t 0 } {}
theorem wit_MatrixInstructions : MatrixReady demo
    ∧ (∃ o m kind tile acc, productOf mma8 = some (o, m, kind) ∧ ready mma8 demo = true ∧ tileHome demo o.b = some tile ∧ descOk desc8 m (kind == .mmas) = true
        ∧ accHome demo o.d (accRegs (descN desc8)) = some acc ∧ matSp demo 0 512 false = none ∧ (readSrc o.a demo).1 = desc8)
    ∧ (ready (.mzero { d := .a 0, a := .i 2 }) demo = true ∧ (accHome demo (.a 0) 2).isSome = true)
    ∧ (ready (.mdrain { d := .i 0x400, a := .a 0, b := .i 64 }) demo = true ∧ (accHome demo (.a 0) 1).isSome = true ∧ matSp demo 0x400 128 true = none)
    ∧ (ready (.sclsend { a := .v 1, b := .i 256 }) demo = true ∧ vBad demo (.v 1) = false ∧ (curCore demo).mat.width = 1)
    ∧ (issues (.mwait {}) demo = true ∧ (curCore demo).mat.queue = [] ∧ sendsDone demo 0 = true)
    ∧ (ready (.gang { d := .s 4, a := .i 1 }) demo = true ∧ (curCore demo).mat.formed = false ∧ ready (.gang { d := .s 4, a := .i 2 }) demo = true) :=
  ⟨⟨by decide, by decide, by decide⟩, ⟨_, _, _, _, _, rfl, by decide, rfl, by decide, rfl, by decide, by decide⟩, by decide, by decide, by decide, by decide, by decide⟩
theorem test_mma : (after (exec mma8 demo)).cores.map (fun p => p.2.mat.queue.map (fun x => (x.kind, x.desc))) = [[(.mma, desc8)]] := by decide

/-- An operation at the head of the matrix queue. -/
def matAt (x : MOp) : State := { demoWith (fun k => { k with mat := { k.mat with queue := [x] } }) with wall := 200000 }
def product : MOp := { kind := .mma, desc := desc8, acc := rsAddr 0 32768, tile := rsAddr 0 0, headWall := some 0, lim := 100000 }
def drainOp : MOp := { kind := .mdrain, desc := 64, acc := rsAddr 0 32768, sp := 0x400, count := 1 }
def delivery : State := demoWith (fun k => { k with mat := { k.mat with deliver := [{ slot := 1, bytes := [1] }] } })
theorem wit_MatrixSteps :
    (Safety.CanonicalMemory (matAt product) ∧ geared (matAt product) 0 = false ∧ readyHead (matAt product) 0 = some product ∧ isProduct product = true
      ∧ slotsMissing (coreOf (matAt product) 0).mat product = false)
    ∧ (let x := { product with started := true }; matBlocked (coreOf (matAt x) 0) x = false ∧ leaderWaits (matAt x) 0 x = false)
    ∧ (matBlocked (coreOf (matAt { kind := .mzero, count := 1 }) 0) { kind := .mzero, count := 1 } = false)
    ∧ (matBlocked (coreOf (matAt drainOp) 0) drainOp = false ∧ drainOp.desc.getLsbD 13 = false
        ∧ (granules [(spAddr 0 0x400, 128)]).all (fun g => !isBad (matAt drainOp) g) = true)
    ∧ (matBlocked (coreOf (matAt { kind := .sclsend, desc := 256, peers := [0] }) 0) { kind := .sclsend, desc := 256, peers := [0] } = false)
    ∧ ((coreOf delivery 0).mat.deliver[0]? = some { slot := 1, bytes := [1] } ∧ slotEmpty (coreOf delivery 0).mat 1 = true)
    ∧ (let x := { product with kind := .mmas }; slotsMissing (coreOf (matAt x) 0).mat x = true ∧ x.lim ≤ (matAt x).wall) :=
  ⟨⟨⟨by decide, by decide, by decide⟩, by decide, by decide, by decide, by decide⟩, by decide, by decide, by decide, by decide, by decide, by decide⟩

/-- Cores 0 and 1 are the logical cores 0 and 1 of a row. -/
def demoGang (f : Core → Core) : State :=
  { demo with cores := [(0, f core0), (1, f { core0 with berths := core0.berths.set 0 { berth0 with lcore := 1 } })],
              graphs := [{ graph0 with gridw := 2 }], wall := 200000 }
def joins : State :=
  demoGang (fun k => { k with mat := { k.mat with arrive := some 2 }, ex := { k.ex with wait := some { instr := .gang { d := .s 4, a := .i 2 }, why := .gang } } })
/-- Core 1 has not arrived. -/
def joinsLate : State := { joins with cores := [(0, coreOf joins 0), (1, core0)] }
def inGang : State :=
  demoGang (fun k => { k with mat := { k.mat with formed := true, width := 2, queue := [{ product with gang := 2 }] } })
theorem wit_GangSteps :
    (joining (coreOf joins 0) = some 2 ∧ allArrived joins 0 2 = some [0, 1] ∧ [0, 1].any (geared joins) = false ∧ coResident [0, 1] = true)
    ∧ (joining (coreOf joinsLate 0) = some 2 ∧ allArrived joinsLate 0 2 = none ∧ geared joinsLate 0 = false
        ∧ (coreOf joinsLate 0).mat.glim ≤ joinsLate.wall - (coreOf joinsLate 0).mat.arriveWall)
    ∧ (gangMembers inGang 0 = [0, 1] ∧ [0, 1].filterMap (readyHead inGang) = [{ product with gang := 2 }, { product with gang := 2 }]
        ∧ (coreOf inGang 0).mat.width = 2 ∧ [0, 1].any (geared inGang) = false
        ∧ [0, 1].any (fun d => match readyHead inGang d with | some p => slotsMissing (coreOf inGang d).mat p | none => true) = false)
    ∧ (100000 ≤ inGang.wall ∧ 0 ∈ gangMembers inGang 0 ∧ (coreOf inGang 0).mat.failed = none) := by decide
theorem test_gangFormed : (after (exec (.gangFormed 1) joins)).cores.map (fun p => (p.2.mat.width, sGet p.2.ex.s 4)) = [(2, 2), (2, 2)] := by decide
theorem test_gangJoinTimeout : sGet (coreOf (after (exec (.gangJoinTimeout 0) joinsLate)) 0).ex.s 4 = 0 := by decide

/- The system group. -/

/-- Core 0 in the supervisor routine; its bank is that of the execute stream, with s1 as in user mode. -/
def sup0 (f : Core → Core) : State :=
  demoWith (fun k => f { k with sup := true, supPc := 0x40, tpc := 0x10000, supS := regs [(1, 5)] })
theorem wit_ContextItems : ready (.ctxsv { d := .s 4, a := .i 7 }) (sup0 id) = true ∧ ctxOk 7 = true
    ∧ ready (.ctxld { a := .i 7, b := .i 12 }) (sup0 id) = true := by decide
/-- A fault image at 0x40: code 0x0800, action RESUME of the severity that goes with it. -/
def imageAt (n : Nat) : State :=
  { sup0 id with mem := wrBytes {} (spBase + 0x40) ([0, BitVec.ofNat 8 (severityOf n * 16 + n)] ++ leBytes 2 0x800) }
theorem wit_SystemInstructions :
    (ready (.gauge { a := .i 1, b := .l64 0x00010000000000C1 }) (sup0 id) = true ∧ gaugeCfgOk false 0x00010000000000C1 = true)
    ∧ (ready (.gread { d := .s 4, a := .i 1, b := .i 2 }) demo = true ∧ gaugeOk 1 = true)
    ∧ (let s := { demo with rTrace := { param := 2 } }; ready (.tmark { a := .i 1, b := .i 2 }) s = true ∧ traced s 1 = false)
    ∧ (ready (.idle { d := .s 4, a := .i 0 }) (sup0 id) = true)
    ∧ (let s := sup0 (fun k => { k with supWait := some { instr := .idle { d := .s 4, a := .i 0 }, why := .idle, aux := 2 } })
       (curCore s).sup = true ∧ geared s 0 = false ∧ (waitNow s).isSome = true ∧ ready (.idle { d := .s 4, a := .i 0 }) s = true)
    ∧ (ready (.faultrpt { d := .s 4, a := .i 64 }) (imageAt 0) = true ∧ inAlloc (imageAt 0) 64 64 = true ∧ spBad (imageAt 0) 64 64 = none
        ∧ reportOk (spSeen (imageAt 0) 64 64) = true ∧ leAt (spSeen (imageAt 0) 64 64) 1 1 % 16 ≤ 1)
    ∧ (ready (.supstep { a := .i 3 }) (sup0 id) = true) := by decide +kernel
theorem test_ctxsv : sGet (coreOf (after (exec (.ctxsv { d := .s 4, a := .i 1 }) (sup0 id))) 0).supS 4 = 5 := by decide
theorem test_supstep : (coreOf (after (exec (.supstep { a := .i 3 }) (sup0 id))) 0).step = 3 := by decide

/- Launch and placement. -/

/-- A graph descriptor of one task at 0x3000, and its task descriptor at 0x4000, the first GiB mapped at station 0 as in demoG. -/
def launchable : State :=
  { stations := [(0, { tlb := [{ vpage := 0, pte := 0x1F, level := 1 }] })],
    mem := [(0x3000, [1, 0, 128, 0, 0, 0, 0, 0, 1, 0, 1, 0, 1, 0, 0, 0] ++ leBytes 8 0x4000 ++ leBytes 8 0x10000), (0x3048, [0xFF, 0xFF, 0xFF, 0xFF]),
            (0x3050, leBytes 8 0x1000), (0x4046, [0x40, 0x80])].foldl (fun m p => wrBytes m (gddrBase + p.1) p.2) {},
    fw := { phase := 5 } }
def packet : LaunchPkt := { bytes := leBytes 8 0x3000 ++ leBytes 4 7 ++ List.replicate 52 0 }
def packetOdd : LaunchPkt := { bytes := [1] ++ List.replicate 63 0 }
def inContext (k : LaunchPkt) : State := { launchable with ctxs := [(3, { queue := [k] })] }
/-- It waits for graph 2. -/
def waiting (l : List Graph) : State := { demo with graphs := { graph0 with active := false, prereq := [2] } :: l }
theorem wit_LaunchSteps :
    (let s := { launchable with ctxs := [(3, { enable := true })] }; s.fw.phase = 5 ∧ (ctxOf s 3).enable = true ∧ (ctxOf s 3).queue = [])
    ∧ (let s := { launchable with ctxs := [(15, { enable := true })], fw := { launchable.fw with allow := [(0, 9)] } }
       s.fw.allow.any (fun x => x.2 == 9) = true ∧ (ctxOf s s.fw.rackctx).enable = true ∧ s.fw.allow.any (fun x => x.2 == 8) = false)
    ∧ (((List.range 16).map (fun i => ((inContext packetOdd).lastCtx + 1 + i) % 16)).find? (fun c => !(ctxOf (inContext packetOdd) c).queue.isEmpty) = some 3
        ∧ packetBad (inContext packetOdd) 3 packetOdd = true ∧ pkCaddr packetOdd.bytes = 0)
    ∧ (packetBad launchable 3 packet = false ∧ gidBad launchable packet = false ∧ pkPre packet.bytes = [] ∧ (dispBytes launchable 0 0x3000 128).isSome = true)
    ∧ (((dispBytes launchable 0 0x3000 128).bind (readGraph launchable 0)).map (fun g => (graphReason g false, placementBad launchable g)) = some (none, false))
    ∧ (findGraph (waiting []) 1 = some { graph0 with active := false, prereq := [2] } ∧ prePending (waiting []) 2 = false ∧ preFailed (waiting []) 2 = false)
    ∧ (preFailed (waiting [{ gid := 2 }]) 2 = false ∧ prePending (waiting [{ gid := 2 }]) 2 = true) := by decide +kernel
theorem test_dispatcher : (after (exec .dispatcherTakePacket (inContext packet))).graphs.map (fun g => (g.gid, g.active, g.tasks.map (fun t => t.st)))
    = [(7, true, [.eligible])] := by decide +kernel
theorem test_dispatcher_rejects : (after (exec .dispatcherTakePacket (inContext packetOdd))).graphs = []
    ∧ (after (exec .dispatcherTakePacket (inContext packetOdd))).fw.done = [(0, 0x604)] := by decide +kernel

/-- The graph of that descriptor, with its task in a state; it is to be bound. -/
def toBind (t : Task) : State :=
  { launchable with graphs := [{ graph0 with tasks := [{ t with tdesc := 0x4000 }], pre := true, save := 0x8000 }] }
def loading : State :=
  { toBind { st := .bound } with cores := [(0, { berths := (Vector.replicate 4 {}).set 0 { gid := 1, state := .loading, tdesc := 0x4000 } })] }
/-- Berth 0 of core 0 is in some state, and runs nothing. -/
def berthIn (f : Berth → Berth) : State := { toBind { st := .bound } with cores := [(0, { berths := (Vector.replicate 4 {}).set 0 (f berth0) })] }
theorem wit_BerthLifecycle :
    ((firstBind (toBind { st := .eligible })).map (fun x => (x.1.gid, x.1.task, x.2.2.core, x.2.2.berth)) = some (1, 0, 0, 0)
      ∧ (firstBind (toBind { st := .saved, slot := some 0 })).map (fun x => (x.1.gid, x.1.task, x.2.2.core, x.2.2.berth)) = some (1, 0, 0, 0))
    ∧ ((berthAt (coreOf loading 0) 0).state = .loading ∧ (coreOf loading 0).mat.queue = [] ∧ (readTask loading 0 0x4000).map (fun d => leAt d.td 0x1E 2) = some 0
        ∧ chanGet (berthAt (coreOf loading 0) 0) 0 = [] ∧ storesLeft loading 0 0 = false ∧ (berthAt (coreOf loading 0) 0).winStore = [])
    ∧ ((berthAt (coreOf (berthIn (fun k => { k with stopFor := some .failGraph })) 0) 0).stopFor = some .failGraph)
    ∧ (let s := berthIn (fun k => { k with state := .stopping, stopFor := some .failGraph })
       berthRuns s 0 0 = false ∧ (berthAt (coreOf s 0) 0).pend = []) := by decide +kernel
theorem test_bind : (after (exec (.bindTask 1 0) (toBind { st := .eligible }))).cores.map (fun p => (p.1, (berthAt p.2 0).state)) = [(0, .loading)] := by decide +kernel
theorem test_loadingDone : (let k := berthAt (coreOf (after (exec (.loadingDone 0 0) loading)) 0) 0
    (k.state, k.handlers.getD 0 0, (chanGet k 0).map (fun m => (m.sender, m.len)))) = (.live, 0x8040000000000000, [(0xFFFF, 0)]) := by decide +kernel

/-- The berth with a stop to make; the graph has save slots at 0x8000, of which the area holds n. -/
def stopping (n : Nat) : State :=
  let s := berthIn (fun k => { k with state := .stopping, stopFor := some .preempt, pre := true, regN := 0, spN := 0 })
  { s with mem := wrBytes s.mem (gddrBase + 0x8000) (leBytes 4 n) }
/-- Task 0 is live at low priority, and task 1 waits, with no room on any core of its quadrant. -/
def crowded : State :=
  let s := berthIn (fun k => { k with pre := true, prio := 3 })
  { s with
    mem := wrBytes s.mem (gddrBase + 0x8000) (leBytes 4 1)
    graphs := [{ graph0 with tasks := [{ st := .bound, tdesc := 0x4000 }, { st := .eligible, tdesc := 0x4000, regreq := 2 ^ 20, prio := 2, lcore := 1 }],
                             pre := true, save := 0x8000, gridw := 2, homes := [(0, 0)] }] }
/-- The cluster of the live berth is hot. -/
def hot : State := { crowded with power := { temps := [(0, 960)] } }
/-- A task that waits, and a berth with a message, for a millisecond. -/
def ageing : State :=
  { berthIn (fun k => { k with prio := 2, chans := k.chans.set 0 [{ arr := 5 }] }) with
    wall := 1000005, graphs := [{ graph0 with tasks := [{ st := .eligible, prio := 2 }] }] }
def heldMsg (g : List Graph) : State := { demo with graphs := g, heldMsgs := [{ gid := 1 }] }
/-- Channel 0 of the live berth is full. -/
def fullChan : State :=
  { heldMsg [graph0] with cores := [(0, { core0 with berths := core0.berths.set 0 { berth0 with handlers := List.replicate 16 (BitVec.ofNat 64 (2 ^ 63 + 255 * 2 ^ 54)), chans := berth0.chans.set 0 (List.replicate 8 { gid := 1 }) } })] }
theorem wit_PrioritiesAndMoves :
    ((findGraph ageing 1).map (fun g => g.tasks.map (fun t => (t.st, t.prio, t.aged))) = some [(.eligible, 2, 0)])
    ∧ (oldestMsg (berthAt (coreOf ageing 0) 0) = some 5 ∧ (berthAt (coreOf ageing 0) 0).state = .live ∧ (berthAt (coreOf ageing 0) 0).prio = 2
         ∧ (berthAt (coreOf ageing 0) 0).raised = 0 ∧ (berthAt (coreOf ageing 0) 0).actWall.getD (berthAt (coreOf ageing 0) 0).bindWall = 0)
    ∧ ((findGraph crowded 1).map (fun g => (g.tasks[1]?).map (fun t => (taskWaits g 1 t, (placeTask crowded g t).isSome, (victims crowded t.prio.toNat))))
        = some (some (true, false, [(0, 0)])))
    ∧ (migrates hot 0 0 = true ∧ (migrateTo hot 0 (berthAt (coreOf hot 0) 0)).isSome = true ∧ amFind hot.quadMove (quadNo 0) = none
        ∧ ((hot.cores.flatMap (fun e => allBerthNos.map (fun x => (e.1, x)))).filter (fun x => quadNo x.1 == quadNo 0 && migrates hot x.1 x.2)) = [(0, 0)])
    := by decide +kernel
theorem wit_PrioritiesAndMoves_saves :
    ((berthAt (coreOf (stopping 1) 0) 0).state = .stopping ∧ berthRuns (stopping 1) 0 0 = false ∧ engineBusy (stopping 1) 0 0 = false ∧ storesLeft (stopping 1) 0 0 = false
        ∧ (berthAt (coreOf (stopping 0) 0) 0).winStore = [] ∧ (coreOf (stopping 1) 0).mat.queue = [] ∧ (saveBerth (stopping 1) 0 0).isSome = true ∧ (saveBerth (stopping 0) 0 0).isNone = true)
    ∧ (liveAt (heldMsg []) 1 0 = none ∧ movingAt (heldMsg []) 1 0 = false ∧ findGraph (heldMsg []) 1 = none ∧ liveAt (heldMsg [graph0]) 1 0 = some (0, 0)
        ∧ roomFor { heldMsg [graph0] with heldMsgs := [] } 0 0 { gid := 1 } = true
        ∧ roomFor { fullChan with heldMsgs := [] } 0 0 { gid := 1 } = false ∧ liveAt fullChan 1 0 = some (0, 0)) := by
  decide +kernel
theorem test_preempt : (berthAt (coreOf (after (exec (.preempt 1 1) crowded)) 0) 0).stopFor = some .preempt := by decide +kernel

/-- A graph whose one task has finished. -/
def finished : Graph := { graph0 with tasks := [{ st := .finished }], remap := [] }
/-- Its completion area is on a page of this device, or of device 1. -/
def mapped : State := { graphs := [{ finished with complete := true }], stations := [(0, { tlb := [{ vpage := 0, pte := 0x1F, level := 1 }] })] }
def mappedFar : State :=
  { graphs := [{ finished with complete := true }], fabric := { gxm1 := 15, gym1 := 15 },
    stations := [(0, { tlb := [{ vpage := 0, pte := 0x18F, level := 1 }] })] }
theorem wit_GraphsEnd_far : graphQuiet mappedFar 1 = true ∧ dispPieces mappedFar 0 0x20 32 { wr := true } = some [(3, 0x20, 32)] := by
  refine ⟨by decide, ?_⟩
  have near : ∀ n, n < 256 → devBad mappedFar n = false := by decide +kernel
  show (if farBad mappedFar [(3, 0x20, 32)] then none else some [(3, 0x20, 32)]) = _
  rw [farBad, List.any_cons, List.any_nil, pieceDev, near _ (Nat.mod_lt _ (by decide))]; rfl
theorem wit_GraphsEnd :
    (let s : State := { graphs := [finished] }; findGraph s 1 = some finished ∧ isComplete s finished = true ∧ leftOver s 1 = [])
    ∧ (let s : State := { graphs := [{ finished with complete := true }] }; findGraph s 1 = some { finished with complete := true } ∧ graphQuiet s 1 = true
        ∧ dispPieces s 0 0x20 32 { wr := true } = none)
    ∧ (dispPieces mapped 0 0x20 32 { wr := true } = some [(0, gddrBase + 0x20, 32)]) := by
  decide +kernel
theorem test_graphs_end : (after (exec (.completionRecord 1) { graphs := [{ finished with complete := true }] })).fw.done = [(1, 0)]
    ∧ (after (exec (.graphComplete 1) { graphs := [finished] })).graphs.map (fun g => (g.complete, g.failCode)) = [(true, 0)] := by decide +kernel

/- Activations and messages. -/

/-- The cluster of core 0 holds a line that its execute stream has asked for. -/
def asked : State :=
  { demo with clusters := [(0, { icache := [{ addr := 0x400, bytes := List.replicate 64 1 }], reqs := [{ fs := 0, line := 0x400, made := 3 }] })] }
/-- A message for handler 2, channel 1, waits at core 0, which runs nothing; both entries start at CODE + 64 and CODE + 128. -/
def hand2 : W64 := BitVec.ofNat 64 (2 ^ 63 + 2 ^ 62 + 2 ^ 55 + 16 + 32 * 2 ^ 26)
def msg1 : Msg := { gid := 1, route := BitVec.ofNat 32 (2 * 2 ^ 12 + 0 * 2 ^ 8), sender := 3, len := 16, payload := List.replicate 16 7 }
def runnable : State :=
  demoWith (fun k => { k with act := none, berths := k.berths.set 0 { berth0 with handlers := List.replicate 16 hand2, chans := berth0.chans.set 1 [msg1] } })
def ended (f : Core → Core) : State := demoWith (fun k => f { k with ex := { k.ex with stopped := true }, pi := { k.pi with stopped := true } })
/-- Both streams wait on queues: the execute stream on q0 and the pilot on q5. -/
def deadlocked : State :=
  let waits := fun (q : BitVec 4) => some { instr := Instr.add { d := .s 1, a := .q q, b := .s 2 } {}, why := WaitWhy.queue q : Wait }
  demoWith (fun k => { k with ex := { k.ex with wait := waits 0 }, pi := { k.pi with wait := waits 5 } })
theorem wit_ActivationSteps :
    (oldestReq (clusterOf asked 0).reqs = some { fs := 0, line := 0x400, made := 3 } ∧ (pairOf asked 0).stopped = false)
    ∧ ((coreOf runnable 0).act = none ∧ geared runnable 0 = false ∧ (chooseNext (resetUsed runnable 0) 0).map (fun x => (x.b, x.chan, x.msg)) = some (0, 1, msg1)
        ∧ (berthAt (coreOf runnable 0) 0).winStore = [])
    ∧ ((coreOf (ended id) 0).act = some {} ∧ (coreOf (ended id) 0).ex.stopped = true ∧ (coreOf (ended id) 0).pi.stopped = true ∧ geared (ended id) 0 = false ∧ storesLeft (ended id) 0 0 = false
        ∧ (berthAt (coreOf (ended id) 0) 0).pend = [])
    ∧ ((berthAt (coreOf runnable 0) 0).state ≠ .free ∧ (2 : Nat) < (berthAt (coreOf runnable 0) 0).handlers.length
        ∧ (berthAt (coreOf runnable 0) 0).handlers.getD 2 0 ≠ 5)
    ∧ (stuck (coreOf deadlocked 0) false = true ∧ stuck (coreOf deadlocked 0) true = true ∧ (waitsOnQueue (coreOf deadlocked 0).ex).isSome = true
        ∧ (coreOf deadlocked 0).vq = [] ∧ (coreOf deadlocked 0).mat.queue = [] ∧ deadlocked.copies = [] ∧ geared deadlocked 0 = false) := by decide +kernel
theorem wit_ActivationSteps_line : ∃ bs, fetchLine asked 0 0 0x400 = .line bs := ⟨_, rfl⟩
theorem test_activationStart : (let k := coreOf (after (exec (.activationStart 0) runnable)) 0
    (k.ex.pc, k.pi.pc, sGet k.ex.s 1, sGet k.ex.s 2, k.pi.stopped)) = (0x10040, 0x10080, 16, 3, false) := by decide +kernel
theorem test_queueDeadlock : (coreOf (after (exec (.queueDeadlock 0) deadlocked)) 0).tinfo = 0x500 := by decide +kernel

def handAll : W64 := BitVec.ofNat 64 (2 ^ 63 + 255 * 2 ^ 54)
/-- The berth takes every message. -/
def taking (f : Berth → Berth) : State :=
  demoWith (fun k => { k with berths := k.berths.set 0 (f { berth0 with handlers := List.replicate 16 handAll }) })
def arriving : State := { taking id with transit := [{ gid := 1, arr := 7, slot := true }] }
def parkedHere : State := taking (fun k => { k with park := [{ msg := { gid := 1 } }] })
def parkedDev : State := { demo with wall := 200000, devPark := [{ msg := { gid := 1 }, since := 3 }] }
def marking : State :=
  { demo with graphs := [{ graph0 with remap := [], tasks := [{ st := .saved }] }], marksT := [{ gid := 1, sender := 2 }] }
def event1 : Event := { code := 0x507, addr := 9 }
def eventComing : State := { demo with asyncs := [{ gid := 1, task := 0, ev := event1 }] }
def eventHere : State := taking (fun k => { k with pend := [event1] })
theorem wit_MessageSteps :
    (mayArrive arriving 0 = true ∧ liveAt arriving 1 0 = some (0, 0) ∧ (coreOf arriving 0).supWait = none
      ∧ inWindow arriving (berthAt (coreOf arriving 0) 0) 0 { gid := 1, arr := 7, slot := true } = false
      ∧ findsHandler (berthAt (coreOf arriving 0) 0) { gid := 1, arr := 7, slot := true } = true)
    ∧ (findsHandler (berthAt (coreOf parkedHere 0) 0) { gid := 1 } = true ∧ chanFree parkedHere (berthAt (coreOf parkedHere 0) 0) 0 = true)
    ∧ (parkedDev.fw.ubtow ≤ parkedDev.wall - 3 ∧ (findGraph parkedDev 1).isSome = true)
    ∧ (markTask marking { gid := 1, sender := 2 } = some 0 ∧ liveAt marking 1 0 = none ∧ marking.transit = [])
    ∧ ((berthsOf eventComing 1).find? (fun p => let x := berthAt (coreOf eventComing p.1) p.2; decide (x.task = 0 ∧ x.ordered = false)) = some (0, 0)
        ∧ berthRuns eventComing 0 0 = true ∧ (berthAt (coreOf eventComing 0) 0).pend = [])
    ∧ ((coreOf eventHere 0).act = some {} ∧ (berthAt (coreOf eventHere 0) 0).pend = [event1] ∧ geared eventHere 0 = false ∧ (coreOf eventHere 0).ex.wait = none) := by
  decide +kernel
theorem test_asyncEvent : (coreOf (after (exec (.asyncEventTaken 0) eventHere)) 0).tcause = 0x10507
    ∧ (coreOf (after (exec (.asyncEventTaken 0) eventHere)) 0).tpc = 0x10000 := by decide +kernel

/- Waits, time and measurement. -/

/-- The execute stream of core 0 is held at an instruction; 100 cyc and 100 ns have passed. -/
def heldAt (i : Instr) (why : WaitWhy) : State :=
  { demoWith (fun k => { k with ex := { k.ex with wait := some { instr := i, why := why, viewV := 0x1000 } } }) with
    wall := 100, clusters := [(0, { cyc := 100 })] }
def takeIt : Instr := .lds { d := .s 4, a := .i 0, b := .i 0x40 } { size := .d, sync := .take, trio := { tb := true, tres := true, pred := 1 } }
/-- It takes an empty granule, under a limit that is due. -/
def takeLate : State :=
  { demoWith (fun k => { k with ex := { k.ex with toc := 50, tow := 50, wait := some { instr := takeIt, why := .timed, viewV := 0x1000 } } }) with
    wall := 100, clusters := [(0, { cyc := 100, edgeWall := 100 })] }
def realigns : Instr := .realign { a := .i 5000 }
/-- Cores 0 and 1 are held at one REALIGN. -/
def bothRealign : State :=
  let k : Core := { core0 with ex := { core0.ex with wait := some { instr := realigns, why := .count, viewV := 0x1000 } } }
  { demo with cores := [(0, k), (1, k)] }
/-- The wait of the execute stream. -/
def theWait (s : State) : Wait := (waitAt s 0 false).getD {}
theorem goesOn (i : Instr) (why : WaitWhy) : MayGoOn (heldAt i why) 0 false (theWait (heldAt i why)) :=
  ⟨.inl (by cases why <;> rfl), fun _ _ _ h => (nomatch (show (none : Option Region) = some _ from h)), fun _ => rfl, fun _ h => (nomatch h), fun h => (nomatch h)⟩
theorem wit_HeldStreams_counts :
    (let i : Instr := .waitc { a := .i 50 }; (waitAt (heldAt i .count) 0 false).map (fun w => (w.instr, w.why, w.c0)) = some (i, .count, 0)
      ∧ ready i (asStream (heldAt i .count) 0 false) = true ∧ i.wf = true ∧ (readSrc (.i 50) (asStream (heldAt i .count) 0 false)).1.toNat ≤ cycOf (heldAt i .count) 0)
    ∧ (let i : Instr := .waitw { a := .i 50 }; (waitAt (heldAt i .count) 0 false).map (fun w => (w.instr, w.why, w.w0)) = some (i, .count, 0)
      ∧ ready i (asStream (heldAt i .count) 0 false) = true ∧ i.wf = true)
    ∧ (let i : Instr := .add { d := .s 1, a := .s 2, b := .s 3 } {}
       ready i (asStream (heldAt i (.queue 4)) 0 false) = true ∧ i.wf = true ∧ (twoSource i).isSome = true
         ∧ (waitAt (heldAt i (.queue 4)) 0 false).map (fun w => (byCondition w, hasIssued w)) = some (true, false)) := by decide
def ldsIt : Instr := .lds { d := .s 4, a := .i 0, b := .i 0x40 } { size := .d }
theorem wit_HeldStreams_load : ∃ g ps, ready ldsIt (asStream (heldAt ldsIt .timed) 0 false) = true ∧ ldsIt.wf = true ∧ Safety.CanonicalMemory (heldAt ldsIt .timed)
    ∧ byCondition (theWait (heldAt ldsIt .timed)) = true
    ∧ Reaches (asStream (heldAt ldsIt .timed) 0 false) { d := .s 4, a := .i 0, b := .i 0x40 } { size := .d } .sp 8 8 true false g ps
    ∧ SyncMet (asStream (heldAt ldsIt .timed) 0 false) { size := .d } ps ∧ (granules ps).all (fun x => !isBad (heldAt ldsIt .timed) x) = true :=
  ⟨_, _, by decide, by decide, ⟨by decide, by decide, by decide⟩, by decide, ⟨rfl, rfl, rfl, rfl, rfl⟩, rfl, by decide⟩
theorem wit_HeldStreams_limit : ∃ g ps, ready takeIt (asStream takeLate 0 false) = true ∧ takeIt.wf = true ∧ MayGoOn takeLate 0 false (theWait takeLate)
    ∧ Reaches (asStream takeLate 0 false) { d := .s 4, a := .i 0, b := .i 0x40 }
      { size := .d, sync := .take, trio := { tb := true, tres := true, pred := 1 } } .sp 8 8 true false g ps
    ∧ ¬SyncMet (asStream takeLate 0 false) { size := .d, sync := .take, trio := { tb := true, tres := true, pred := 1 } } ps
    ∧ limitDue (asStream takeLate 0 false) { tb := true, tres := true, pred := 1 } = true :=
  ⟨_, _, by decide, by decide, ⟨.inl rfl, fun _ _ _ h => (nomatch (show (none : Option Region) = some _ from h)), fun _ => rfl, fun _ h => (nomatch h), fun h => (nomatch h)⟩,
   ⟨rfl, rfl, rfl, rfl, rfl⟩, fun h => absurd h.2 (by decide), by decide⟩
theorem wit_HeldStreams_realign :
    (let i : Instr := .realign { a := .i 50 }
     ready i (asStream (heldAt i .count) 0 false) = true ∧ i.wf = true ∧ realignDue (asStream (heldAt i .count) 0 false) { a := .i 50 } = true)
    ∧ (realignPeers bothRealign 0 false = [1] ∧ realignDue (asStream bothRealign 0 false) { a := .i 5000 } = false
        ∧ heldAtRealign bothRealign 1 false (pcNow (asStream bothRealign 0 false)) = true ∧ ready realigns (asStream bothRealign 1 false) = true
        ∧ ready realigns (asStream bothRealign 0 false) = true ∧ realigns.wf = true)
    ∧ MayGoOn bothRealign 0 false (theWait bothRealign) :=
  ⟨by decide, by decide, .inl rfl, fun _ _ _ h => (nomatch (show (none : Option Region) = some _ from h)), fun _ => rfl, fun _ h => (nomatch h), fun h => (nomatch h)⟩
theorem test_timeout : readK (after (exec (.timedWaitTimeout 0 false) takeLate)) 1 = false
    ∧ pcNow (after (exec (.timedWaitTimeout 0 false) takeLate)) = 0x1000C := by decide

/-- Slot 1 of core 0 has base CYC and target 50, and 100 cyc have passed. -/
def deadline : State := { demoWith (fun k => { k with dl := k.dl.set 1 (dlWord 50 false false false true) }) with clusters := [(0, { cyc := 100 })] }
def window : State := { demo with wall := 2048, clusters := [(0, { winCyc := 700, win := 1 })] }
def gauged : State := { demo with wall := 5000, dgauges := [(3, { cfg := 0x48 })], pairs := [(0, { upMA := 7 })] }
def marked : State :=
  { demoWith (fun k => { k with ex := { k.ex with marked := true, markDone := true, markPc := 0x10000, markGid := 1 } }) with
    rSample := { en := true, log := 4, base := 0x100000, param := 10 } }
theorem wit_Measurements :
    (dlArmed (dlGet (coreOf deadline 0) 1) = true ∧ dlFired (dlGet (coreOf deadline 0) 1) = false
      ∧ dlReached (cycOf deadline 0) (clusterOf deadline 0).edgeWall (dlGet (coreOf deadline 0) 1) = true ∧ geared deadline 0 = false
      ∧ (coreOf deadline 0).dlNew.getLsbD 1 = false)
    ∧ windowOver window.wall (clusterOf window 0) = true
    ∧ sampleDue gauged (amGet {} gauged.dgauges 3) 7 = true
    ∧ (let s := { demo with rSample := { param := 10 } }
       s.rSample.param ≠ 0 ∧ (coreOf s 0).act.isSome = true ∧ (coreOf s 0).sup = false ∧ (coreOf s 0).ex.stopped = false ∧ (coreOf s 0).ex.wait = none
         ∧ (coreOf s 0).ex.sampleArmed = false)
    ∧ (let s := { demoWith (fun k => { k with ex := { k.ex with sampleArmed := true } }) with rSample := { param := 10 } }
       (coreOf s 0).ex.sampleArmed = true ∧ (coreOf s 0).ex.sampleLeft = 0 ∧ (coreOf s 0).ex.marked = false)
    ∧ ((streamOf (coreOf marked 0) false).marked = true ∧ (streamOf (coreOf marked 0) false).markDone = true
        ∧ fieldAt (BitVec.toNat (1 : BitVec 8)) 1 3 = (streamOf (coreOf marked 0) false).markFlags.toNat / 2 ∧ marked.rSample.en = true ∧ Safety.CanonicalMemory marked
        ∧ (marked.rSample.head - marked.rSample.tail).toNat < 2 ^ marked.rSample.log.toNat) := by
  refine ⟨by decide, by decide, by decide, by decide, by decide, by decide, by decide, by decide, by decide, ⟨by decide, by decide, by decide⟩, by decide +kernel⟩
theorem test_deadlineFire : dlFired (dlGet (coreOf (after (exec (.deadlineFire 0 1) deadline)) 0) 1) = true := by decide
theorem test_window : (clusterOf (after (exec (.ratioWindowComplete 0) window)) 0).ratio = 0x1000002BC := by decide +kernel

/- Power. -/

def gearStopped : State := { demo with wall := 5000000, pairs := [(0, { stopped := true, stopWall := 4000000, imbSince := some 4000000 })] }
def powered : State := { demo with wall := 5000000, power := { outSince := some 4000000, temps := [(0, 960)], tickWall := some 4990000 } }
theorem wit_PowerAndGears :
    (mayStop demo 0 = true ∧ mayStop gearStopped 0 = false ∧ (pairOf gearStopped 0).stopLong = false ∧ 2000 < gearStopped.wall - (pairOf gearStopped 0).stopWall)
    ∧ (passed powered.power.tickWall powered.wall 1000 = true ∧ passed (some 4999500) 5000000 1000 = false)
    ∧ ((pairOf gearStopped 0).noBind = false ∧ 100000 ≤ gearStopped.wall - 4000000 ∧ powered.power.outRaised = false)
    ∧ (passed powered.power.thermWall powered.wall 100000 = true ∧ ((10 * powered.fw.tmig : Nat) : Int) < hottestOf powered ∧ anyMigrates powered = false
        ∧ hottestOf demo ≤ ((10 * demo.fw.tmig : Nat) : Int) - 20
        ∧ (let s := { powered with power := { powered.power with cooling := true } }; ((10 * s.fw.tmig : Nat) : Int) - 20 < hottestOf s ∧ s.power.cooling = true))
    ∧ (passed powered.power.slackWall powered.wall 1000000 = true ∧ collLive powered = false
        ∧ collLive (demoWith (fun k => { k with berths := k.berths.set 0 { berth0 with coll := true } })) = true) := by decide +kernel
theorem test_gearStop : (coreOf (after (exec (.gearStopStart 0) demo)) 0).ex.gear = true := by decide
theorem test_pairTick : (pairTick 0 0 1000 500 { measure := 1 }).shuntMA = 500 ∧ (pairTick 0 0 1000 950 { measure := 3 }).measure = 0 := by decide

/- Translation stations. -/

def loadsIt : Instr := .lds { d := .s 4, a := .i 0, b := .i 0x40 } { size := .d }
/-- The execute stream of core 0 is parked at station 0 with a load. -/
def parkedLoad : State :=
  { demoWith (fun k => { k with ex := { k.ex with wait := some { instr := loadsIt, why := .replay, viewV := 0x1000 } } }) with
    stations := [(0, { parked := [{ who := .stream 0 false }], faults := [{}] })] }
/-- Its station replays, and the stream makes its access again. -/
def replayed : State :=
  let v := setStation parkedLoad 0 { stationOf parkedLoad 0 with faults := [], dropped := false, parked := [] }
  updStream v 0 false (fun y => { y with wait := some (replayWait v 0 ((waitAt parkedLoad 0 false).getD {})) })
theorem wit_StationCommands : ∃ g ps,
    (stationOf demo 0).parked = [] ∧ (stationOf parkedLoad 0).parked = [{ who := .stream 0 false }]
    ∧ (waitAt parkedLoad 0 false).map (fun w => (w.instr, w.why)) = some (loadsIt, .replay) ∧ (coreOf parkedLoad 0).region = none ∧ (coreOf parkedLoad 0).sup = false
    ∧ updCore replayed 0 (fun k => { k with viewV := 0x1000 }) = replayed ∧ loadsIt.wf = true ∧ ready loadsIt (asStream replayed 0 false) = true
    ∧ Safety.CanonicalMemory parkedLoad
    ∧ Reaches (asStream replayed 0 false) { d := .s 4, a := .i 0, b := .i 0x40 } { size := .d } .sp 8 8 true false g ps
    ∧ SyncMet (asStream replayed 0 false) { size := .d } ps ∧ (granules ps).all (fun y => !isBad parkedLoad y) = true :=
  ⟨_, _, by decide, by decide, by decide, by decide, by decide, rfl, by decide, by decide, ⟨by decide, by decide, by decide⟩,
   ⟨rfl, rfl, rfl, rfl, rfl⟩, rfl, by decide⟩
theorem test_go : (stationOf (after (exec (.go 0) parkedLoad)) 0).faults = [] ∧ (coreOf (after (exec (.go 0) parkedLoad)) 0).ex.pc = 0x1000C := by decide +kernel

/- The fabric. -/

/-- Port 3 of this device. -/
def linked (k : Port) : State := { demo with fabric := { gxm1 := 3, gym1 := 3, ports := [(3, k)] } }
def upPort : Port := { up := true, width := 4, lanes := 4 }
def toDev (d : Nat) : Pkt := { dst := d }
theorem wit_LinkSteps :
    (portOf (linked upPort) 3 = upPort ∧ usableLanes 2 upPort.maxw < upPort.width)
    ∧ (let k := { upPort with retrain := true, queue := [toDev 1] }; (portOf (linked k) 3).queue = [toDev 1] ∧ (linked k).fabric.out = [])
    ∧ usableLanes upPort.lanes (1 : BitVec 2).toNat < upPort.width
    ∧ (portOf (linked { upPort with planned := some 2 }) 3).planned = some 2
    ∧ (portOf (linked { upPort with partway := some (toDev 1) }) 3).partway ≠ none
    ∧ ((toDev 1).src = selfId (linked { upPort with queue := [toDev 1] }) ∧ stalePkt (linked upPort) { toDev 1 with src := 2 } = false)
    ∧ ((toDev 1).dst ≠ selfId (linked upPort) ∧ (toDev 1).hops < 3) := by decide
theorem test_lanes : (portOf (after (exec (.laneFailure 3 3) (linked upPort))) 3).width = 2 := by decide +kernel

def acked : Pkt := { dst := 1, seq := 4 }
/-- Device 1 has a packet of this device unacknowledged since WALL 0. -/
def sending (r : List ROp) : State :=
  { demo with fw := { phase := 5 }, wall := 300000, fabric := { gxm1 := 3, rops := r, ropNext := 9, out := [{ dst := 1, next := 5, unacked := [{ pkt := acked }] }] } }
def asks : ROp := { id := 8, dev := 1 }
def idleCtx : State := { demo with wall := 300000, fabric := { gxm1 := 3, out := [{ dst := 1 }], unreach := [1], inn := [{ src := 1, closed := some 0 }] } }
/-- A load of device 1 waits in retry list 0. -/
def retrying : State :=
  { demo with fw := { phase := 5 }, wall := 2000000, fabric := { gxm1 := 3, retry := [(0, [{ src := 1, pkt := { src := 1, body := .rld 7 0 0x1000 8 .waitf } }])] } }
def fromDev (q : BitVec 24) (b : PktBody) : Pkt := { src := 1, dst := 0, seq := q, body := b }
/-- The device is up. -/
def upFab (l : List ROp) : State := { demoFab l with fw := { phase := 5 } }
theorem wit_DeliveryContexts :
    ((∃ c, findOut (sending []) 1 = some c ∧ (∃ e ∈ c.unacked, ((4 : BitVec 24) - e.pkt.seq).toNat < 2 ^ 23) ∧ c.unacked.find? (fun x => x.pkt.seq == 4) = some { pkt := acked }
        ∧ c.ackWall = 0 ∧ inQueues (sending []) acked = false))
    ∧ ((∃ c, findOut idleCtx 1 = some c ∧ c.unacked = [] ∧ c.closed = none ∧ 4000 ≤ idleCtx.wall - c.traffic) ∧ 1 ≠ selfId idleCtx)
    ∧ ((sending [asks]).fabric.reachto.toNat ≤ (sending [asks]).wall ∧ openRop 1 asks = true)
    ∧ ((sending [asks]).fw.phase = 5 ∧ (upFab [asks]).fw.phase = 5 ∧ retrying.fw.phase = 5)
    ∧ (retrying.fabric.siding = [] ∧ retrying.fabric.inn = [] ∧ 1 ≠ selfId retrying)
    ∧ (1 ∈ idleCtx.fabric.unreach ∧ idleCtx.fabric.rack = [] ∧ (∃ c, findIn idleCtx 1 = some c ∧ c.closed = some 0))
    ∧ (findRop (sending [asks]) 8 = some asks ∧ asks.kind = .load)
    ∧ (∃ e x, (amGet [] retrying.fabric.retry 0)[0]? = some e ∧ pktAcc e.pkt.body = some x ∧ retrying.fw.rllim ≤ retrying.wall - e.arr ∧ e.src ≠ selfId retrying ∧ x.op = 7)
    ∧ (stalePkt (upFab [asks]) (fromDev 0 (.reply 8 (.data [1]))) = false ∧ inGrid (upFab [asks]) 1 = true
        ∧ (fromDev 0 (.reply 8 (.data [1]))).ctx = (inOf (upFab [asks]) 1).born ∧ (fromDev 0 (.reply 8 (.data [1]))).seq = (inOf (upFab [asks]) 1).next ∧ (inOf (upFab [asks]) 1).window = []
        ∧ findRop (upFab [asks]) 8 = some asks ∧ asks.done = false)
    ∧ ((joinCtx (upFab [asks]) (fromDev (-1) (.reply 8 (.data [1])))).born ≤ (fromDev (-1) (.reply 8 (.data [1]))).ctx
        ∧ seqBefore (-1) (joinCtx (upFab [asks]) (fromDev (-1) (.reply 8 (.data [1])))).next = true) :=
  ⟨⟨_, rfl, ⟨_, .head _, by decide⟩, rfl, rfl, by decide⟩, ⟨⟨_, rfl, by decide, by decide, by decide⟩, by decide⟩, by decide, by decide, by decide,
   ⟨by decide, by decide, _, rfl, by decide⟩, by decide, ⟨_, _, rfl, rfl, by decide, by decide, rfl⟩, by decide, by decide⟩
theorem test_packetReceive : ((after (exec (.packetReceive (fromDev 0 (.reply 8 (.data [1])))) (upFab [asks]))).fabric.rops.map (fun r => r.rep)) = [some (.data [1])] := by decide +kernel

/-- A store of device 1 that carries tablet 5 of device 2 waits in the siding. -/
def sided (w : Nat) : State :=
  { demo with fw := { phase := 5 }, wall := w, fabric := { gxm1 := 3, siding := [{ src := 1, pkt := { src := 1, body := .rst 7 0 0x1000 [1] .plain [0x02000005] 50000 } }] } }
def racked (e : RackEnt) : State := { demo with fw := { phase := 5 }, wall := 20000000, fabric := { gxm1 := 3, rack := [(0, e)] } }
def storing : State := { racked { st := .pending } with fabric := { gxm1 := 3, rack := [(0, { st := .pending })], rops := [{ id := 8, kind := .store, dev := 1, seq := 4, tab := some 0 }], out := [{ dst := 1, next := 5, unacked := [{ pkt := acked }] }] } }
theorem wit_TabletSteps :
    (rackStatus (racked { st := .pending }) 0 = 0 ∧ 1 ∉ (rackOf (racked { st := .pending }) 0).holders ∧ 1 ≠ selfId (racked { st := .pending })
      ∧ rackStatus (racked {}) 0 = 1 ∧ (racked {}).fabric.siding = [] ∧ tabDev 0x02000005 ≠ selfId (racked {}))
    ∧ (pktTabs (PktBody.rst 7 0 0x1000 [1] .plain [0x02000005] 50000) = [0x02000005] ∧ (pktAcc (.rst 7 0 0x1000 [1] .plain [0x02000005] 50000)).isSome = true
        ∧ (sided 0).fabric.inn = [] ∧ pktExp (.rst 7 0 0x1000 [1] .plain [0x02000005] 50000) < (sided 60000).wall)
    ∧ (rackOf (racked { st := .landed, acks := [1] }) 0).st = .landed
    ∧ ((rackOf storing 0).st = .pending ∧ (rackOf storing 0).holders = [] ∧ storing.fw.phase = 5
        ∧ (findOut storing 1).map (fun c => c.unacked.map (fun e => e.pkt.seq)) = some [4])
    ∧ ((rackOf (racked { st := .dead }) 0).st = .dead ∧ 10000000 ≤ (racked { st := .dead }).wall - (rackOf (racked { st := .dead }) 0).deadWall) := by decide
/-- A rack in which every entry is pending. -/
def fullRack : AMap RackEnt := (List.range 4096).map (fun i => (i, { st := .pending }))
theorem fullRack_pending (i : Nat) (h : i < 4096) : amGet {} fullRack i = { st := .pending } := by
  have at_key (l : List Nat) (h : i ∈ l) : amGet {} (l.map (fun j => (j, ({ st := .pending } : RackEnt)))) i = { st := .pending } := by
    induction l with
    | nil => cases h
    | cons a t ih =>
      rw [List.map_cons, amGet]
      split
      · rfl
      · exact ih ((List.mem_cons.mp h).resolve_left (fun e => absurd e.symm ‹_›))
  exact at_key _ (List.mem_range.mpr h)
/-- An RST.TAB of core 0 has waited 100 µs for an entry. -/
def rackFull : State :=
  { demoWith (fun k => { k with ex := { k.ex with wait := some { instr := .rst far { size := .d, tab := true }, why := .room, aux := 2 } } }) with
    wall := 200000, fabric := { gxm1 := 3, rack := fullRack } }
theorem wit_TabletSteps_full : (∃ w, waitAt rackFull 0 false = some w ∧ w.instr = .rst far { size := .d, tab := true } ∧ w.why = .room ∧ w.aux = 2
    ∧ 100000 ≤ rackFull.wall - w.w0) ∧ freeRack rackFull = none :=
  ⟨⟨_, rfl, rfl, rfl, rfl, by decide⟩, List.find?_eq_none.mpr (fun i h => by
    obtain ⟨j, -, rfl⟩ := List.mem_map.mp h
    rw [rackOf, show rackFull.fabric.rack = fullRack by simp only [rackFull], fullRack_pending _ (Nat.mod_lt _ (by decide))]; decide)⟩

/- Firmware, host and resets. -/

theorem wit_HostAccesses : Safety.CanonicalMemory demo ∧ hostRange demo false 0x1000 3 = true ∧ (granules [(tierFlat 0 0x1000, 3)]).all (fun g => !isBad demo g) = true
    ∧ (granules [(tierFlat 0 0x1000, 3)]).any (isBad { demo with bad := wrBytes {} 0x100 [1] }) = true :=
  ⟨⟨by decide, by decide, by decide⟩, by decide, by decide, by decide⟩
theorem test_registerWrite : (ctxOf (after (exec (.registerWrite 2 0x3044 4 0x80000000) demo)) 3).enable = true := by decide +kernel
theorem test_cxlMemWrite : rdBytes (after (exec (.cxlMemWrite true 0x10 [7, 8]) demo)).mem (lpddrBase + 0x10) 2 = [7, 8] := by decide

/-- The mailbox is busy with a command. -/
def commanded (op : BitVec 16) (args : List W64) (s : State) : State := { s with fw := { s.fw with busy := true, op := op, arg := args } }
/-- The berth of logical core 0 of graph 1 is stopped for the debugger; save slots at 0x8000. -/
def debugged : State :=
  let s := berthIn (fun k => { k with state := .stopping, stopFor := some .debug, regN := 0, spN := 0 })
  { s with mem := wrBytes s.mem (gddrBase + 0x8000) (leBytes 4 1) }
theorem wit_MailboxCommands :
    (runs (commanded 1 [2] demo) 0x0001 = true ∧ paramOf (commanded 1 [2] demo) 2 = some 95 ∧ paramOf (commanded 1 [99] demo) 99 = none)
    ∧ (runs (commanded 2 [2, 100] demo) 0x0002 = true ∧ paramOk demo 2 100 = true ∧ paramOk demo 2 84 = false)
    ∧ (runs (commanded 0x10 [1, 0] demo) 0x0010 = true ∧ namedBerth (commanded 0x10 [1, 0] demo) = some (0, 0)
        ∧ (berthAt (coreOf demo 0) 0).state = .live ∧ (berthAt (coreOf demo 0) 0).stopFor = none)
    ∧ (namedBerth (commanded 0x11 [1, 0, 0] debugged) = some (0, 0) ∧ debugStop (berthAt (coreOf debugged 0) 0) = true ∧ (graphOf debugged 1).pre = true
        ∧ storesLeft debugged 0 0 = false ∧ (berthAt (coreOf debugged 0) 0).winStore = []
        ∧ runs (commanded 0x11 [1, 0, 0] debugged) 0x0011 = true
        ∧ (writeSlot (writeAcct (commanded 0x11 [1, 0, 0] debugged) 0 0 2) 0 (berthAt (coreOf debugged 0) 0) (graphOf debugged 1) 0).isSome = true)
    ∧ (runs (commanded 0x12 [1, 0] debugged) 0x0012 = true ∧ runs (commanded 0x20 [3, 0x1005] demo) 0x0020 = true
        ∧ runs (commanded 0x31 [0x1000, 64] demo) 0x0031 = true ∧ 0x1000 + 64 ≤ usable demo.gddr ∧ runs (commanded 0x32 [] demo) 0x0032 = true) := by decide +kernel
theorem test_setparam : (after (exec .setparam (commanded 2 [2, 100] demo))).fw.tmig = 100
    ∧ (after (exec .setparam (commanded 2 [2, 84] demo))).fw.result = 2 := by decide +kernel

/-- The device is up, and it is to be reset. -/
def upAndHot : State :=
  { demo with fw := { phase := 5 }, wall := 2 ^ 40, power := { railMV := 1000, temps := [(7, 1150)] } }
theorem wit_ResetsAndBringUp :
    (upAndHot.fw.phase = 5 ∧ 10 * reportNs ≤ upAndHot.wall - upAndHot.fw.reportWall ∧ 1150 ≤ amGet 0 upAndHot.power.temps 7 ∧ upAndHot.power.railMV < 1100
      ∧ runs (commanded 0x30 [] upAndHot) 0x0030 = true)
    ∧ (let s := { demoFab [] with fw := { phase := 4, train := true } }; s.fw.phase = 4 ∧ s.fw.train = true ∧ usedPort s 0 = true)
    ∧ (State.reset.fw.phase = 1 ∧ usedPort (demoFab []) 0 = true ∧ (portOf (demoFab []) 0).lanes = 4) := by decide +kernel
theorem test_bootPhase : (after (exec .bootPhaseAdvance State.reset)).fw.phase = 2 := by decide

/- Fetches that fail, and the supervisor routine. -/

/-- The execute stream of core 0 at an address, with a line that it was served. -/
def fetching (pc : W64) (l : List FetchLine) : State :=
  { demoWith (fun k => { k with ex := { k.ex with pc := pc, buf := l } }) with agenda := [.issue 0 false] }
/-- The line at 0x10000 with words in it. -/
def lineOf (l : List Nat) : List FetchLine := [{ line := 0x400, bytes := parcels l ++ List.replicate (64 - 4 * l.length) 0 }]
def gets (s : State) (n : Nat) : Got := gather (coreOf s 0).ex (actBerth (coreOf s 0)).pasid (coreOf s 0).ex.pc.toNat n
def insideCode (s : State) (n : Nat) : Bool := inCode (graphOf s (actBerth (coreOf s 0)).gid) (coreOf s 0).ex.pc.toNat n
/-- A word with a literal parcel at the end of the code of its graph. -/
def cutShort : State :=
  { fetching 0x10FF4 [{ line := 0x43F, bytes := List.replicate 52 0 ++ parcels [0x00000411, 0x00000A00, 0x10000000] }] with agenda := [.issue 0 false] }
theorem wit_FetchFailuresTrap :
    (∀ s ∈ [fetching 0x20000 [], fetching 0x10000 [], fetching 0x10000 [{ line := 0x400, fault := some 0x0204 }], fetching 0x10000 (lineOf [0xF5, 0, 0]), cutShort],
      canIssue s 0 false = true ∧ stepDue (coreOf s 0) = none ∧ eventDue s 0 = none ∧ (coreOf s 0).sup = false ∧ (coreOf s 0).region = none)
    ∧ insideCode (fetching 0x20000 []) 12 = false
    ∧ (let s := fetching 0x10000 []; insideCode s 12 = true ∧ (match gets s 12 with | .missing l => l == 0x400 | _ => false) = true ∧ (stationOf s 0).parked = [])
    ∧ (let s := fetching 0x10000 [{ line := 0x400, fault := some 0x0204 }]; insideCode s 12 = true ∧ (match gets s 12 with | .trap e a => e == 0x0204 && a == 0x10000 | _ => false) = true)
    ∧ (let s := fetching 0x10000 (lineOf [0xF5, 0, 0]); insideCode s 12 = true ∧ (match gets s 12 with | .bytes w => w == parcels [0xF5, 0, 0] | _ => false) = true
        ∧ (match decode (parcels [0xF5, 0, 0]) with | .error e => e == .opcode | _ => false) = true)
    ∧ (let w := parcels [0x00000411, 0x00000A00, 0x10000000]
       (match gets cutShort 12 with | .bytes b => b == w | _ => false) = true ∧ (match decode w with | .error e => e == .short | _ => false) = true
        ∧ (match decodeHead (leNat w) with | .ok (_, _, n) => lenOf n == 16 && insideCode cutShort 12 && !insideCode cutShort (lenOf n) | _ => false) = true) := by
  decide +kernel
theorem test_fetch_outside : (coreOf (after (step (fetching 0x20000 []))) 0).tcause = 0x205 ∧ (coreOf (after (step (fetching 0x20000 []))) 0).tpc = 0x20000 := by
  decide +kernel
theorem test_fetch_opcode : (coreOf (after (step (fetching 0x10000 (lineOf [0xF5, 0, 0])))) 0).tcause = 0x101 := by decide +kernel

/-- The supervisor routine of core 0 lies on a page of GDDR-7 at 0x40. -/
def routine (l : List Nat) : State :=
  { demoSup with stations := [(0, { tlb := [{ vpage := 0, pte := 0x1F, level := 1 }] })], mem := wrBytes {} (gddrBase + 0x40) (parcels l), agenda := [.issue 0 false] }
theorem wit_SupervisorSteps :
    (∀ l ∈ [[1, 0, 0], [0xF5, 0, 0]], canIssue (routine l) 0 false = true ∧ (coreOf (routine l) 0).sup = true ∧ (findGraph (routine l) 1).isSome = true
      ∧ (match supCodes (routine l) 0 0x40 12 with | .ok w => w == parcels l | _ => false) = true)
    ∧ (match decode (parcels [1, 0, 0]) with | .ok (i, n) => i == .nop {} && n == 12 | _ => false) = true
    ∧ (match decode (parcels [0xF5, 0, 0]) with | .error e => e == .opcode | _ => false) = true
    ∧ (let s := { routine [1, 0, 0] with bad := wrBytes {} ((gddrBase + 0x40) / 16) [1] }
       (match supCodes s 0 0x40 12 with | .error _ => true | _ => false) = true) := by decide +kernel
theorem test_supervisor_nop : (coreOf (after (step (routine [1, 0, 0]))) 0).supPc = 0x4C := by decide +kernel
theorem test_double_trap : (graphOf (after (step (routine [0xF5, 0, 0]))) 1).failing = true := by decide +kernel

/- The later checks of a load. -/

/-- A load of GLB at 0x2000, through record 0 of the pool; page 1, where the pool lies, is mapped, page 2 as given, and a granule is
uncorrectable. -/
def ldxIt : Instr := .ldx { d := .s 1, a := .b 0, b := .i 0 } { size := .d }
def glb (l : List Tlb) (g : List Nat) : State :=
  { demoG with
    mem := wrBytes demoG.mem gddrBase (leBytes 16 0x5001), stations := [(0, { tlb := { vpage := 1, pte := 0x101F } :: l })],
    bad := g.foldl (fun m x => wrBytes m x [1]) {} }
def page2 (pte : W64) : List Tlb := [{ vpage := 2, pte := pte }]
/-- What the operand of the load comes to, and, where it passes steps 1 to 3 of R185, the load. -/
def operandOf (s : State) : Except Stop Target := (target s { d := .s 1, a := .b 0, b := .i 0 } .sp 1 8 .ld .plain (loadEng s false)).1
def late (s : State) (p : Except Stop Loc → Bool) : Bool :=
  match operandOf s with
  | .ok g => (accChecks s g 8).isNone && p (locate s g.x 0)
  | .error _ => false
theorem wit_LateChecksTrap :
    ldxIt.wf = true
    ∧ (∀ s ∈ [glb (page2 0x201B) [], glb [] [], glb [] [(gddrBase + 0x1000) / 16], glb (page2 0x201F) [(gddrBase + 0x2000) / 16]],
        ready ldxIt s = true ∧ (curCore s).sup = false ∧ (curCore s).region = none ∧ vBad s (.s 1) = false ∧ heldRop s = none)
    ∧ late (glb (page2 0x201B) []) (fun h => match h with | .error (.trap e) => e.code == 0x205 | _ => false) = true
    ∧ late (glb [] []) (fun h => match h with | .error (.stall _ _ v) => v == 2 | _ => false) = true
    ∧ late (glb (page2 0x201F) [(gddrBase + 0x2000) / 16]) (fun h => match h with
        | .ok (.here ps) => ps == [(gddrBase + 0x2000, 8)] && (granules ps).findIdx? (isBad (glb (page2 0x201F) [(gddrBase + 0x2000) / 16])) == some 0
        | _ => false) = true
    ∧ (match operandOf (glb [] [(gddrBase + 0x1000) / 16]) with | .error (.unc _ a) => a == 0x1000 | _ => false) = true
    ∧ (match operandOf { glb [] [] with graphs := [graph0] } with | .error (.trap e) => e.code == 0x203 | _ => false) = true := by decide +kernel
theorem test_late_checks : (coreOf (after (exec ldxIt (glb (page2 0x201B) []))) 0).tcause = 0x205
    ∧ (stationOf (after (exec ldxIt (glb [] []))) 0).parked.map (fun r => r.vpage) = [2]
    ∧ (let k := coreOf (after (exec ldxIt (glb (page2 0x201F) [(gddrBase + 0x2000) / 16]))) 0; k.tcause = 0x207 ∧ k.taddr = 0x2000) := by decide +kernel
/-- A load that takes an empty granule, under a limit that is due, without TRES. -/
def takeDue : State :=
  { demoWith (fun k => { k with ex := { k.ex with toc := 50, tow := 50, wait := some { instr := .lds { d := .s 4, a := .i 0, b := .i 0x40 } { size := .d, sync := .take, trio := { tb := true } }, why := .timed, viewV := 0x1000 } } }) with
    wall := 100, clusters := [(0, { cyc := 100, edgeWall := 100 })] }
theorem wit_LimitsTrap : ∃ w g ps, waitAt takeDue 0 false = some w ∧ (coreOf takeDue 0).sup = false ∧ (coreOf takeDue 0).region = none
    ∧ w.instr.wf = true ∧ ready w.instr (asStream takeDue 0 false) = true ∧ eventDue takeDue 0 = none
    ∧ updCore takeDue 0 (fun k => { k with viewV := w.viewV }) = takeDue
    ∧ scalarLoad w.instr = some ({ d := .s 4, a := .i 0, b := .i 0x40 }, { size := .d, sync := .take, trio := { tb := true } }, .sp) ∧ w.why = .timed
    ∧ Reaches (asStream takeDue 0 false) { d := .s 4, a := .i 0, b := .i 0x40 } { size := .d, sync := .take, trio := { tb := true } } .sp 8 8 true false g ps
    ∧ ¬SyncMet (asStream takeDue 0 false) { size := .d, sync := .take, trio := { tb := true } } ps
    ∧ limitDue (asStream takeDue 0 false) { tb := true } = true :=
  ⟨_, _, _, rfl, rfl, rfl, by decide, by decide, by decide, rfl, rfl, rfl, ⟨rfl, rfl, rfl, rfl, rfl⟩, fun h => absurd h.2 (by decide), by decide⟩
theorem test_sync_timeout : (coreOf (after (exec (.timedWaitTimeout 0 false) takeDue)) 0).tcause = 0x208 := by decide

/- Copies that land. -/

def fills : Copy := { copy1 .sp 0x400 with fill := true }
def landing (k : Copy) (m : List (Nat × List Byte)) : State := { demoMem m with copies := [k], copyNext := 1 }
def landBytes3 : List Byte := [1, 2, 3] ++ List.replicate 13 0
theorem wit_CopySteps_landing :
    (∀ k ∈ [copy1 .sp 0x400, fills], ∀ m ∈ [[barrier 16, (0, [1, 2, 3])], [barrier 8, (0, [1, 2, 3])], [(0, [1, 2, 3])]],
      (match openChunk (landing k m) 0 0 with
        | some (q, c) => q == k && (match chunkRun (landing k m) k c with | .land b p => b == landBytes3 && p == [(0, spBase + 0x400, 16)] | _ => false)
        | none => false) = true
      ∧ (landing k m).mem.wf = true ∧ (landing k m).fe.wf = true ∧ (landing k m).bad.wf = true
      ∧ (granules [(spBase + 0x400, 16)]).all (fun g => !isBad (landing k m) g) = true
      ∧ [(copyBar (landing k m) k, leBytes 16 0), (spBase + 0x400, landBytes3)].Pairwise (fun x y => x.1 + x.2.length ≤ y.1 ∨ y.1 + y.2.length ≤ x.1))
    ∧ (let x := rdNat (demoMem [barrier 16]).mem (spBase + 0x100) 16; barArmed x = true ∧ 16 ≤ barPend x)
    ∧ (let x := rdNat (demoMem [barrier 8]).mem (spBase + 0x100) 16; barArmed x = true ∧ barPend x < 16)
    ∧ barArmed (rdNat (demoMem []).mem (spBase + 0x100) 16) = false := by decide +kernel
theorem test_barrier_overflow : (let t := after (exec (.chunkLanding 0 0) { demoMem [barrier 8] with copies := [fills], copyNext := 1 })
    (feGet t ((spBase + 0x400) / 16), barFail (rdNat t.mem (spBase + 0x100) 16), t.asyncs.map (fun x => x.ev.code)) = (true, true, [0x403])) := by decide +kernel

/- The vector engine. -/

/-- A vector addition of an entry of q2. -/
def vaddQ : Instr := .vadd { d := .v 1, a := .q 2, b := .v 3 } { ty := .s32 }
def entry : List Byte := List.replicate 256 7
def withEntry : State := demoWith (fun k => { k with q := k.q.set 2 [.block entry, .word 3] })
/-- A broadcast by an entry of q3. -/
def vbcastQ : Instr := .vbcast { d := .v 1, a := .q 2, b := .q 3 } { ty := .s32 }
def withTwo : State := demoWith (fun k => { k with q := (k.q.set 2 [.block entry]).set 3 [.word 5] })
theorem wit_VectorInstructionsIssue_queues :
    (∃ o m, vectorOf vaddQ = some (o, m) ∧ ready vaddQ withEntry = true ∧ VectorOk vaddQ withEntry o m ∧ (curCore withEntry).vq = [] ∧ o.a = .q 2
      ∧ (vecOps vaddQ).2.1 = false ∧ qGet (curCore withEntry) 2 = [.block entry, .word 3] ∧ o.b ≠ .q 2)
    ∧ (∃ o m, vectorOf vbcastQ = some (o, m) ∧ ready vbcastQ withTwo = true ∧ VectorOk vbcastQ withTwo o m ∧ (curCore withTwo).vq = [] ∧ o.b = .q 3
      ∧ (vecOps vbcastQ).2.2 = true ∧ o.a ≠ .q 3 ∧ qGet (curCore withTwo) 3 = [.word 5]) :=
  ⟨⟨_, _, rfl, by decide, ⟨by decide, by decide, by decide, fun _ _ _ h => by cases h; decide⟩, by decide +kernel, rfl, by decide +kernel, by decide +kernel, by decide +kernel⟩,
   ⟨_, _, rfl, by decide, ⟨by decide, by decide, by decide, fun _ _ _ h => by cases h; decide⟩, by decide +kernel, rfl, by decide +kernel, by decide +kernel, by decide +kernel⟩⟩
theorem test_vector_queue : qGet (curCore (after (exec vaddQ withEntry))) 2 = [.word 3] := by decide +kernel

/-- Elements of a source, the same for all. -/
def all32 (x : Nat) : VVal := .bytes ((List.replicate 64 (leBytes 4 x)).flatten)
def vin (m : VecMod) (a b d : VVal) : VIn := { m := m, w := 8, st := 0, a := a, b := b, d := d }
theorem wit_VectorValues :
    (∃ x : VIn, x.m.ty = .s32 ∧ x.m.sat = false ∧ (∃ a, x.a = .bytes a ∧ x.b = .bytes a ∧ x.d = .bytes a ∧ a.length = 256))
    ∧ (isFloat VType.s32 = false ∧ relOf (2 : BitVec 6).toNat = some .lt ∧ isFloat VType.n8 = false)
    ∧ (floatFacts .f32 = some (0x7FC00000, 0x7F800000, 0x3F800000) ∧ infinityOf .f32 = some 0x7F800000 ∧ infinityOf .f8a = none)
    ∧ (elemOf 4 (all32 0x7F800000) 5 = 0x7F800000 ∧ magnitude 32 (0x7F800000 : BitVec 32) = 0x7F800000 ∧ elemOf 4 (all32 0) 5 = 0 ∧ elemOf 4 (all32 0x80000000) 5 = 0x80000000
        ∧ elemOf 4 (all32 0xFF800000) 5 = 0xFF800000 ∧ elemOf 4 (all32 0x3F800000) 5 = 0x3F800000
        ∧ (0xC0000000 : BitVec 32).msb = true ∧ 0 < magnitude 32 (0xC0000000 : BitVec 32) ∧ magnitude 32 (0xC0000000 : BitVec 32) < 0x7F800000
        ∧ 0x7F800000 < magnitude 32 (0x7FC00001 : BitVec 32))
    ∧ (partOk { ty := .f32, ty2 := .bf16, func := 1 } = true ∧ sourceOf { ty := .f32, ty2 := .bf16, func := 1 } 3 = none
        ∧ sourceOf { ty := .f32, ty2 := .bf16, func := 1 } 64 = some 0 ∧ sourceOf { ty := .bf16, ty2 := .f32, func := 1 } 3 = some 67
        ∧ partOk { ty := .s32, ty2 := .s8, func := 3 } = true ∧ partOk { ty := .f32, ty2 := .s8 } = true ∧ partOk { ty := .s32, ty2 := .f32 } = true)
    ∧ (VType.s16 ∈ [VType.s8, .n8, .s16, .n16] ∧ 8 ≤ 8 * vbytes VType.s16) :=
  ⟨⟨{ m := { ty := .s32 }, w := 8, st := 0, a := .bytes (List.replicate 256 0), b := .bytes (List.replicate 256 0), d := .bytes (List.replicate 256 0) },
    rfl, rfl, _, rfl, rfl, rfl, List.length_replicate⟩, by decide, by decide, by decide +kernel, by decide, by decide⟩
/-- Element 5 of a result on F32 sources, with its flags. -/
def lane5 (i : Instr) (a b d : Nat) : Nat × Nat :=
  let r := vecCompute i (vin { ty := .f32 } (all32 a) (all32 b) (all32 d))
  ((lane r.bytes 5).toNat, r.fl.getD 5 0)
theorem test_special_operands : lane5 (.vrcp {} { ty := .f32 }) 0x80000000 0 0 = (0xFF800000, 2) ∧ lane5 (.vlog2 {} { ty := .f32 }) 0xC0000000 0 0 = (0x7FC00000, 1)
    ∧ lane5 (.vexp2 {} { ty := .f32 }) 0x3F800000 0 0 = (0x40000000, 0) := by decide +kernel
theorem test_float_add : lane5 (.vadd {} { ty := .f32 }) 0x3F800000 0x3F800000 0 = (0x40000000, 0)
    ∧ lane5 (.vfma {} { ty := .f32 }) 0x40000000 0x40000000 0x3F800000 = (0x40A00000, 0) := by decide +kernel
theorem test_padd : (vecCompute (.padd {} { ty := .n8 }) (vin { ty := .n8 } (.scalar 200) (.scalar 100) (.scalar 0))).bytes.getD 0 0 = 0
    ∧ stackOf 256 8 (.bytes (vecCompute (.padd {} { ty := .n8 }) (vin { ty := .n8 } (.scalar 200) (.scalar 100) (.scalar 0))).bytes) 7 = 44 := by decide +kernel

/- The matrix engine: a product that has started. -/

/-- One plane of A, all ones; B holds 2 in each of 8 columns, and the accumulators hold 0. -/
def started : MOp :=
  { product with started := true, planes := List.replicate 512 0xFF, tileB := List.replicate 2048 2, m := { bsg := true } }
theorem wit_IntegerProducts : geared (matAt started) 0 = false ∧ (coreOf (matAt started) 0).mat.queue = [started] ∧ matBlocked (coreOf (matAt started) 0) started = false
    ∧ isProduct started = true ∧ leaderWaits (matAt started) 0 started = false ∧ started.kind ≠ .mmas ∧ started.m.accf = false := by decide +kernel

/- The system group. -/

/-- GAUGE of a device gauge, in supervisor and in user mode; a traced graph with room in its ring, without, and a ring that is disabled. -/
def gaugeDev : Instr := .gauge { a := .i 64, b := .l64 0x0001000000000083 }
def tracing (f : Ring → Ring) : State := { demo with rTrace := f { en := true, log := 4, base := 0x100000, param := 1 } }
theorem wit_SystemInstructions_device :
    (ready gaugeDev (sup0 id) = true ∧ supNow (sup0 id) = true ∧ gaugeCfgOk true 0x0001000000000083 = true
      ∧ ready gaugeDev demo = true ∧ supNow demo = false ∧ (curCore demo).region = none)
    ∧ (∀ f ∈ [id, (fun r : Ring => { r with en := false }), (fun r : Ring => { r with head := 16 })],
        ready (.tmark { a := .i 1, b := .i 2 }) (tracing f) = true ∧ traced (tracing f) 1 = true)
    ∧ (∀ n ∈ [2, 3, 4], ready (.faultrpt { d := .s 4, a := .i 64 }) (imageAt n) = true ∧ inAlloc (imageAt n) 64 64 = true ∧ spBad (imageAt n) 64 64 = none
        ∧ ownTouches (imageAt n) 0 false true [(spHome (imageAt n) 64, 64)] = false
        ∧ reportOk (spSeen (imageAt n) 64 64) = true ∧ leAt (spSeen (imageAt n) 64 64) 1 1 % 16 = n ∧ (curCore (imageAt n)).act.isSome = true
        ∧ (actBerth (curCore (imageAt n))).ordered = false ∧ ((graphOf (imageAt n) 1).tasks[0]?).isSome = true ∧ (findGraph (imageAt n) 1).isSome = true)
    ∧ (let s := { imageAt 4 with fw := { phase := 5 } }; s.fw.phase = 5 ∧ s.fw.waiting = none ∧ imageRoom s = false ∧ ready (.faultrpt { d := .s 4, a := .i 64 }) s = true) := by
  decide +kernel
theorem test_tmark : rdBytes (after (exec (.tmark { a := .i 1, b := .i 2 }) (tracing id))).mem (gddrBase + 0x100000) 24
    = [2, 0, 0, 0, 0, 0, 0, 0, 1, 0, 0, 0, 0, 0, 0, 0, 1, 0, 0, 0, 0, 0, 0, 0] := by decide +kernel
theorem test_faultrpt_graph : (graphOf (after (exec (.faultrpt { d := .s 4, a := .i 64 }) (imageAt 3))) 1).failing = true := by decide +kernel

/- Messages, delivery contexts and tablets. -/

theorem wit_MessageSteps_events : eventBehind (eventComing.asyncs.take 0) { gid := 1, task := 0, ev := event1 } = false
    ∧ (trapsNow eventHere 0 false).isNone = true ∧ (coreOf eventHere 0).pi.wait = none ∧ (coreOf eventHere 0).region = none ∧ (coreOf eventHere 0).ex.stopped = false := by
  decide +kernel
/-- A context of device 1 has closed, with a store that waits behind another. -/
def closedBehind : State :=
  { demo with wall := 300000, fabric := { gxm1 := 3, inn := [{ src := 1, closed := some 0, behind := [{ src := 1 }] }] } }
theorem wit_DeliveryContexts_later :
    (∃ c, findIn closedBehind 1 = some c ∧ c.closed = some 0 ∧ c.behind ≠ [] ∧ 100000 ≤ closedBehind.wall - 0)
    ∧ (∃ c, findIn idleCtx 1 = some c ∧ c.closed = some 0 ∧ c.behind = [])
    ∧ (((findOut (upFab [asks]) 1).map (·.born)).getD 0 ≤ (fromDev 0 (.ack 3 [])).ctx ∧ stalePkt (upFab [asks]) (fromDev 0 (.ack 3 [])) = false)
    ∧ (∃ c, findOut (sending [asks]) 1 = some c ∧ asks.ctx ≤ c.born) := by
  refine ⟨⟨_, rfl, by decide, by decide, by decide⟩, ⟨_, rfl, by decide, by decide⟩, by decide, ⟨_, rfl, by decide⟩⟩
theorem wit_TabletSteps_carried :
    carryOf (sided 60000) { src := 1, body := .rst 7 0 0x1000 [1] .plain [0x02000005] 50000 } = .hold
    ∧ (∃ c e r, findOut storing 1 = some c ∧ c.unacked = [e] ∧ storing.fabric.rops = [r] ∧ e.pkt.seq = r.seq ∧ r.ctx ≤ c.born ∧ r.dev = 1 ∧ r.kind = .store
        ∧ r.done = false ∧ r.tab = some 0) :=
  ⟨by decide, _, _, _, rfl, rfl, rfl, by decide, by decide, by decide, by decide, by decide, by decide⟩

/- Resets and bring-up. -/

/-- PMBASE names room for an image, and one is kept or none. -/
def withRoom (v : Bool) : State := { upAndHot with fw := { upAndHot.fw with pmbase := 0x100001, pmvalid := v } }
theorem wit_Resets :
    (upAndHot.fw.waiting = none ∧ imageRoom upAndHot = false)
    ∧ (∀ v, (withRoom v).fw.phase = 5 ∧ (withRoom v).fw.waiting = none ∧ imageRoom (withRoom v) = true ∧ (withRoom v).fw.pmvalid = v
        ∧ runs (commanded 0x30 [] (withRoom v)) 0x0030 = true ∧ (withRoom v).fw.pmlost < 255) := by decide +kernel
theorem wit_BringUp :
    (∀ n ∈ [1, 2, 3, 4, 5], (let s : State := { fw := { phase := n } }; s.fw.phase = n ∧ s.fw.waiting = none ∧ imageRoom s = false))
    ∧ (let s := commanded 0x30 [] { withRoom false with fw := { (withRoom false).fw with waiting := some (8, 0), first := 8 } }
       s.fw.waiting = some (8, 0) ∧ runs s 0x0030 = true) := by decide +kernel
theorem test_reset_waits : (let t := after (exec .watchdog (withRoom false)); (t.fw.waiting, t.fw.phase)) = (some (5, 0), 5)
    ∧ (let t := after (exec .watchdog (withRoom true)); (t.fw.waiting, t.fw.phase, t.fw.pmlost)) = (none, 1, 1) := by decide +kernel
theorem test_image_ends : (let t := after (exec .bootPhaseAdvance (after (exec .watchdog (withRoom false)))); (t.fw.waiting, t.fw.phase, t.fw.pmvalid, t.fw.first))
    = (none, 1, true, 5) := by decide +kernel

end Sys2Proof.Tests
end

section
/-! What the host does to memory and to the registers behind its BARs (R6, R42, R178, R181, R371): the rules for reads and writes of
blocks of bytes, for bytes that land, for records of uncorrectable data and for words of a BAR that are written whole; then the host
accesses themselves. -/

namespace Sys2Proof.Machine

/- Blocks of bytes. -/

theorem rdBytes_eq_map (m : Memory) (a n : Nat) : rdBytes m a n = (List.range n).map (fun i => rdByte m (a + i)) := by
  induction n generalizing a with
  | zero => rfl
  | succ n ih => simp [rdBytes, ih, List.range_succ_eq_map, Nat.add_assoc, Nat.add_comm 1]

/-- A block read where it was written is the block (R186). -/
@[simp] theorem rdBytes_wrBytes_same (m : Memory) (a : Nat) (bs : List Byte) : rdBytes (wrBytes m a bs) a bs.length = bs := by
  rw [rdBytes_eq_map]
  exact List.ext_getElem (by simp) (fun i _ h => by simp [rdByte_wrBytes_in h])

/- Bytes that land at their home (R181). -/

theorem noteDirty_eq (s : State) (a n : Nat) : ∃ d, noteDirty s a n = { s with dirty := d } := by
  unfold noteDirty
  split
  · exact ⟨_, rfl⟩
  · exact ⟨s.dirty, rfl⟩

/-- Where no granule is uncorrectable, landing bytes change the memory by their write and mark lines dirty, and no more. -/
theorem landBytes_correctable (s : State) (c : Nat) (b : BitVec 2) {a : Nat} {bs : List Byte}
    (h : (granules [(a, bs.length)]).all (fun g => !isBad s g) = true) :
    ∃ d, landBytes s c b a bs = { s with mem := wrBytes s.mem a bs, dirty := d } := by
  have hstore : storeBytes s c b a bs = { s with mem := wrBytes s.mem a bs } := if_pos h
  rw [landBytes, hstore]
  exact noteDirty_eq _ _ _

/- Records (R402, R404). -/

@[simp] theorem putRec_cores (s : State) (r : RecIn) : (putRec s r).cores = s.cores := by
  unfold putRec writeRec
  split <;> rfl

@[simp] theorem putRec_hostOut (s : State) (r : RecIn) : (putRec s r).hostOut = s.hostOut := by
  unfold putRec writeRec
  split <;> rfl

/-- The record of uncorrectable data is one record, in either memory. -/
theorem uncRec_eq_putRec (s : State) (c : Nat) (b : BitVec 2) (g eng eid : Nat) : ∃ r, uncRec s c b g eng eid = putRec s r := by
  simp only [uncRec]
  split <;> exact ⟨_, rfl⟩

@[simp] theorem uncRec_cores (s : State) (c : Nat) (b : BitVec 2) (g eng eid : Nat) : (uncRec s c b g eng eid).cores = s.cores := by
  obtain ⟨r, hr⟩ := uncRec_eq_putRec s c b g eng eid
  rw [hr, putRec_cores]

@[simp] theorem uncRec_hostOut (s : State) (c : Nat) (b : BitVec 2) (g eng eid : Nat) : (uncRec s c b g eng eid).hostOut = s.hostOut := by
  obtain ⟨r, hr⟩ := uncRec_eq_putRec s c b g eng eid
  rw [hr, putRec_hostOut]

/- The host's memory accesses (R371). -/

section
variable {s : State} {lpddr : Bool} {addr : Nat}

theorem exec_cxlMemWrite {bytes : List Byte} (h : hostRange s lpddr addr bytes.length = true) :
    exec (.cxlMemWrite lpddr addr bytes) s = .next (landBytes s noCore 0 (tierFlat (bitNat lpddr) addr) bytes) := by
  change execCxlMemWrite _ _ _ _ = _
  simp [execCxlMemWrite, h]

theorem exec_cxlMemRead_correctable {len : Nat} (h : hostRange s lpddr addr len = true)
    (hg : (granules [(tierFlat (bitNat lpddr) addr, len)]).all (fun g => !isBad s g) = true) :
    exec (.cxlMemRead lpddr addr len) s
      = .next { s with hostOut := some (rdBytes s.mem (tierFlat (bitNat lpddr) addr) len) :: s.hostOut } := by
  have hnone : (granules [(tierFlat (bitNat lpddr) addr, len)]).find? (isBad s) = none := by simpa using hg
  change execCxlMemRead _ _ _ _ = _
  simp [execCxlMemRead, h, hnone]

/-- A read that meets uncorrectable data leaves the record of a granule and completes poisoned. -/
theorem exec_cxlMemRead_uncorrectable {len : Nat} (h : hostRange s lpddr addr len = true)
    (hg : (granules [(tierFlat (bitNat lpddr) addr, len)]).any (isBad s) = true) :
    ∃ g, exec (.cxlMemRead lpddr addr len) s
      = .next { uncRec s noCore 0 g with hostOut := none :: (uncRec s noCore 0 g).hostOut } := by
  obtain ⟨g, hsome⟩ := Option.isSome_iff_exists.mp (List.find?_isSome.mpr (List.any_eq_true.mp hg))
  refine ⟨g, ?_⟩
  change execCxlMemRead _ _ _ _ = _
  simp [execCxlMemRead, h, hsome]

end

/- Words of a BAR (R6). -/

/-- A word written whole. -/
def RegW.whole (x : BitVec 32) : RegW := { v := x, m := BitVec.allOnes 32 }

@[simp] theorem RegW.whole_v (x : BitVec 32) : (RegW.whole x).v = x := rfl
@[simp] theorem RegW.whole_m_getLsbD (x : BitVec 32) (i : Nat) : (RegW.whole x).m.getLsbD i = decide (i < 32) :=
  BitVec.getLsbD_allOnes

@[simp] theorem RegW.whole_rw (x old : BitVec 32) : (RegW.whole x).rw 0 old = x := by
  simp only [RegW.rw, RegW.whole, BitVec.extractLsb'_eq_self, BitVec.not_allOnes, BitVec.and_zero, BitVec.and_allOnes, BitVec.zero_or]

theorem RegW.whole_bit (x : BitVec 32) {i : Nat} (old : Bool) (h : i < 32) : (RegW.whole x).bit i old = x.getLsbD i := by
  simp [RegW.bit, h]

@[simp] theorem RegW.whole_one (x : BitVec 32) (i : Nat) : (RegW.whole x).one i = x.getLsbD i := by
  simpa [RegW.one] using BitVec.lt_of_getLsbD

/-- The bits of two words set side by side. -/
theorem getLsbD_append_words (h l : BitVec 32) (i : Nat) :
    (h ++ l : W64).getLsbD i = if i < 32 then l.getLsbD i else h.getLsbD (i - 32) := BitVec.getLsbD_append

/-- Both halves of a 64-bit register written, the low one first: the bits that it holds are those of the value. -/
theorem RegW.whole_half_half (v old keep : W64) :
    (RegW.whole (v.extractLsb' 32 32)).half true ((RegW.whole (v.extractLsb' 0 32)).half false old keep) keep = v &&& keep := by
  refine BitVec.eq_of_getLsbD_eq (fun i hi => ?_)
  by_cases h : i < 32
  · simp +contextual [RegW.half, getLsbD_append_words, h]
  · simp [RegW.half, getLsbD_append_words, h, show i - 32 < 32 by omega, show 32 + (i - 32) = i by omega]

/-- A write of four bytes at a word's offset writes that word whole. -/
theorem regWords_word {o : Nat} (v : W64) (h : o % 4 = 0) : regWords o 4 v = [(o, RegW.whole (v.extractLsb' 0 32))] := by
  have ho : o / 4 * 4 = o := by omega
  have hlo : BitVec.ofNat 32 (v.toNat % 2 ^ 32) = v.extractLsb' 0 32 := BitVec.eq_of_toNat_eq (by simp)
  simpa [regWords, h, ho, RegW.whole, List.range_succ] using hlo

/-- A write of eight bytes at a word's offset writes that word and the next whole, lowest first. -/
theorem regWords_dword {o : Nat} (v : W64) (h : o % 4 = 0) :
    regWords o 8 v = [(o, RegW.whole (v.extractLsb' 0 32)), (o + 4, RegW.whole (v.extractLsb' 32 32))] := by
  have ho : o / 4 * 4 = o := by omega
  have hlo : BitVec.ofNat 32 (v.toNat % 2 ^ 64) = v.extractLsb' 0 32 := BitVec.eq_of_toNat_eq (by simp)
  have hhi : BitVec.ofNat 32 (v.toNat % 2 ^ 64 / 2 ^ 32) = v.extractLsb' 32 32 :=
    BitVec.eq_of_toNat_eq (by simp [Nat.mod_eq_of_lt v.isLt, Nat.shiftRight_eq_div_pow])
  simpa [regWords, h, ho, RegW.whole, List.range_succ] using And.intro hlo hhi

theorem exec_registerWrite {bar : Nat} (o size : Nat) (v : W64) (s : State) (h : bar = 0 ∨ bar = 2 ∨ bar = 4) :
    exec (.registerWrite bar o size v) s = .next ((regWords o size v).foldl (fun t x => putWord t bar x.1 x.2) s) := by
  change execRegisterWrite _ _ _ _ _ = _
  rw [execRegisterWrite, if_neg (by omega)]

/-- A word of page n of BAR 2 is a word of launch context n (R42). -/
theorem putWord_launch (s : State) {n o : Nat} (w : RegW) (hn : n < 16) (ho : o < 0x1000) :
    putWord s 2 (0x1000 * n + o) w = setCtx s n (putLaunch (ctxOf s n) o w) := by
  have hpage : (0x1000 * n + o) / 0x1000 = n := by omega
  have hofs : (0x1000 * n + o) % 0x1000 = o := by omega
  simp [putWord, hpage, hofs, show ¬0x10000 ≤ 0x1000 * n + o by omega]

/-- A word of page n of BAR 4 is a word of translation station n (R178). -/
theorem putWord_station (s : State) {n o : Nat} (w : RegW) (hn : n < 16) (ho : o < 0x1000) :
    putWord s 4 (0x1000 * n + o) w = setStation s n (putStation (stationOf s n) o w) := by
  have hpage : (0x1000 * n + o) / 0x1000 = n := by omega
  have hofs : (0x1000 * n + o) % 0x1000 = o := by omega
  simp [putWord, hpage, hofs, show ¬0x10000 ≤ 0x1000 * n + o by omega]

/-- The word of a launch context that holds ENABLE, DROP and FULLSEEN, written (R42). -/
theorem exec_registerWrite_launchFlags (s : State) {n : Nat} (v : W64) (hn : n < 16) :
    exec (.registerWrite 2 (0x1000 * n + 0x44) 4 v) s
      = .next (setCtx s n { ctxOf s n with
          enable := v.getLsbD 31, drop := (ctxOf s n).drop && !v.getLsbD 17, fullseen := (ctxOf s n).fullseen && !v.getLsbD 16 }) := by
  rw [exec_registerWrite _ _ _ _ (by omega), regWords_word _ (by omega), List.foldl_cons, List.foldl_nil,
    putWord_launch _ _ hn (by omega)]
  simp [putLaunch, RegW.whole_bit, RegW.whole_one]

/-- PTBASE of a translation station, written low half first (R178). -/
theorem exec_registerWrite_ptbase (s : State) {n : Nat} (v : W64) (hn : n < 16) :
    exec (.registerWrite 4 (0x1000 * n + 0x80) 8 v) s
      = .next (setStation (setStation s n { stationOf s n with
            ptbase := (RegW.whole (v.extractLsb' 0 32)).half false (stationOf s n).ptbase pageBits }) n
          { stationOf s n with ptbase := v &&& pageBits }) := by
  rw [exec_registerWrite _ _ _ _ (by omega), regWords_dword _ (by omega), List.foldl_cons, List.foldl_cons, List.foldl_nil,
    putWord_station _ _ hn (by omega), Nat.add_assoc, putWord_station _ _ hn (by omega), stationOf_setStation_same]
  simp [putStation, RegW.whole_half_half]

end Sys2Proof.Machine

section

open Sys2Proof Sys2Proof.Machine

/-- Settles O58: a write to memory lands its bytes and nothing else, a read answers the bytes or is poisoned, and a register write is one
update of the launch context or of the translation station of its page. -/
theorem hostAccesses : Obligations.HostAccesses := by
  unfold Obligations.HostAccesses
  intro s
  refine ⟨?write, ?read, ?launch, ?station⟩
  case write =>
    intro lpddr addr bytes ⟨hmem, _, _⟩ hr a hg
    obtain ⟨d, hland⟩ := landBytes_correctable s noCore 0 hg
    refine ⟨_, exec_cxlMemWrite hr, ?_⟩
    rw [hland]
    exact ⟨rdBytes_wrBytes_same s.mem a bytes, fun x hx => rdByte_wrBytes_out hmem hx, rfl⟩
  case read =>
    intro lpddr addr len hr a
    refine ⟨fun hg => exec_cxlMemRead_correctable hr hg, fun hg => ?_⟩
    obtain ⟨g, hexec⟩ := exec_cxlMemRead_uncorrectable hr hg
    exact ⟨_, hexec, by simp, by simp⟩
  case launch =>
    intro n v hn
    refine ⟨_, exec_registerWrite_launchFlags s v hn, ?_⟩
    rw [ctxOf_setCtx_same]
    exact ⟨rfl, rfl, rfl, rfl, rfl, fun m hm => ctxOf_setCtx_other s _ hm, rfl⟩
  case station =>
    intro n v hn
    refine ⟨_, exec_registerWrite_ptbase s v hn, ?_⟩
    rw [stationOf_setStation_same]
    exact ⟨rfl, rfl, fun m hm => by rw [stationOf_setStation_other _ _ hm, stationOf_setStation_other _ _ hm], rfl⟩

end
end

section
/-! The life of a berth (R46 to R53, R64, R65, R401, R409): what a bind, the end of LOADING, a stop and a free do to it. Every part of O46
holds of every state but the last, which needs the keys of the map of cores to rise; O46 does not suppose that, and is refuted by a state
that lists a core twice. -/

namespace Sys2Proof.Machine

/- Berths of a core (R49). -/

@[simp] theorem berthAt_updBerth_same (s : State) (c : Nat) (b : BitVec 2) (f : Berth → Berth) :
    berthAt (coreOf (updBerth s c b f) c) b = f (berthAt (coreOf s c) b) := by
  simp [updBerth]

theorem berthAt_updBerth_other (s : State) {c d : Nat} {b e : BitVec 2} (f : Berth → Berth) (h : ¬(d = c ∧ e = b)) :
    berthAt (coreOf (updBerth s c b f) d) e = berthAt (coreOf s d) e := by
  by_cases hd : d = c
  · subst hd
    have he : e ≠ b := fun he => h ⟨rfl, he⟩
    simp [updBerth, berthAt_setBerth_other _ _ he]
  · rw [updBerth, coreOf_updCore_other s _ hd]

theorem coreOf_updBerth_other (s : State) {c d : Nat} (b : BitVec 2) (f : Berth → Berth) (h : d ≠ c) :
    coreOf (updBerth s c b f) d = coreOf s d := coreOf_updCore_other s _ h

/-- Marking the shared berths changes SLICED alone (R49). -/
theorem berthAt_reslice (s : State) (c : Nat) (b : BitVec 2) :
    ∃ v, berthAt (coreOf (reslice s c) c) b = { berthAt (coreOf s c) b with sliced := v } := by
  have fold : ∀ (p : Berth → BitVec 2 → Bool) (l : List (BitVec 2)) (t : State),
      ∃ v, berthAt (coreOf (l.foldl (fun t d => updBerth t c d (fun x => { x with sliced := p x d })) t) c) b
        = { berthAt (coreOf t c) b with sliced := v } := by
    intro p l
    induction l with
    | nil => exact fun t => ⟨_, rfl⟩
    | cons d l ih =>
      intro t
      obtain ⟨v, hv⟩ := ih (updBerth t c d (fun x => { x with sliced := p x d }))
      refine ⟨v, hv.trans ?_⟩
      by_cases hd : b = d
      · subst hd; simp
      · rw [berthAt_updBerth_other _ _ (fun h => hd h.2)]
  exact fold _ _ s

theorem coreOf_reslice_other (s : State) {c d : Nat} (h : d ≠ c) : coreOf (reslice s c) d = coreOf s d := by
  simp [reslice, coreOf_updBerth_other _ _ _ h]

@[simp] theorem reslice_mem (s : State) (c : Nat) : (reslice s c).mem = s.mem := rfl
@[simp] theorem reslice_graphs (s : State) (c : Nat) : (reslice s c).graphs = s.graphs := rfl

/- Graphs. -/

@[simp] theorem coreOf_updGraph (s : State) (gid : Nat) (f : Graph → Graph) (c : Nat) : coreOf (updGraph s gid f) c = coreOf s c := rfl

theorem findGraph_gid {s : State} {gid : Nat} {g : Graph} (h : findGraph s gid = some g) : g.gid = gid := by
  simpa using List.find?_some h

theorem findGraph_updGraph_same (s : State) (gid : Nat) {f : Graph → Graph} (hf : ∀ g, (f g).gid = g.gid) :
    findGraph (updGraph s gid f) gid = (findGraph s gid).map f := by
  have keeps : ((fun g => g.gid == gid) ∘ fun g => if g.gid = gid then f g else g) = fun g : Graph => g.gid == gid := by
    funext g
    by_cases h : g.gid = gid <;> simp [h, hf]
  simp only [findGraph, updGraph, List.find?_map, keeps]
  cases hs : s.graphs.find? (fun g => g.gid == gid) with
  | none => rfl
  | some g => simp [show g.gid = gid by simpa using List.find?_some hs]

theorem findGraph_congr {s t : State} (h : t.graphs = s.graphs) (gid : Nat) : findGraph t gid = findGraph s gid := by
  simp [findGraph, h]

theorem graphOf_congr {s t : State} (h : t.graphs = s.graphs) (gid : Nat) : graphOf t gid = graphOf s gid := by
  rw [graphOf, findGraph_congr h, graphOf]

/- The bind (R46, R49, R53). -/

theorem bindNext_firstBind {s : State} {gid task q : Nat} {key : BindKey} {spot : Spot} {g : Graph} {t : Task} {saved : Bool}
    (hfirst : firstBind s = some (key, q, spot)) (hgid : key.gid = gid) (htask : key.task = task)
    (hat : taskAtKey s key = some (g, t)) (hst : decide (t.st = .saved) = saved) :
    bindNext s gid task saved = bindAt s g task t q spot saved := by
  simp [bindNext, hfirst, hgid, htask, hat, hst]

theorem coreOf_bindAt_other (s : State) (g : Graph) (i : Nat) (t : Task) (q : Nat) (x : Spot) (move : Bool) {c : Nat}
    (h : c ≠ x.core) : coreOf (bindAt s g i t q x move) c = coreOf s c := by
  rw [bindAt, coreOf_reslice_other _ h, coreOf_updBerth_other _ _ _ h]
  rfl

/-- What the bound task finds in its berth (R49, R50). -/
theorem berthAt_bindAt (s : State) (g : Graph) (i : Nat) (t : Task) (q : Nat) (x : Spot) (move : Bool) :
    let k := berthAt (coreOf (bindAt s g i t q x move) x.core) x.berth
    k.state = .loading ∧ k.gid = g.gid ∧ k.task = i ∧ k.regB = x.regB ∧ k.spB = x.spB ∧ k.restore = t.slot := by
  intro k
  obtain ⟨v, hv⟩ := berthAt_reslice (updBerth _ x.core x.berth _) x.core x.berth
  have hk : k = _ := hv
  rw [hk, berthAt_updBerth_same]
  exact ⟨rfl, rfl, rfl, rfl, rfl, rfl⟩

/- LOADING (R21, R25, R50). -/

@[simp] theorem initRegions_cores (s : State) (c : Nat) (k : Berth) : (initRegions s c k).cores = s.cores := by
  refine List.foldlRecOn (motive := fun t : State => t.cores = s.cores) k.regions _ rfl (fun t ht r _ => ?_)
  refine Eq.trans ?_ ht
  simp only [setFes]
  split <;> rfl

@[simp] theorem initRegions_graphs (s : State) (c : Nat) (k : Berth) : (initRegions s c k).graphs = s.graphs := by
  refine List.foldlRecOn (motive := fun t : State => t.graphs = s.graphs) k.regions _ rfl (fun t ht r _ => ?_)
  refine Eq.trans ?_ ht
  simp only [setFes]
  split <;> rfl

@[simp] theorem zeroRegs_cores (s : State) (c : Nat) (k : Berth) : (zeroRegs s c k).cores = s.cores := rfl
@[simp] theorem zeroRegs_graphs (s : State) (c : Nat) (k : Berth) : (zeroRegs s c k).graphs = s.graphs := rfl

/-- An empty window store has nothing to release (R305). -/
theorem releaseWins_empty (n : Nat) {s : State} {c : Nat} {b : BitVec 2} (h : (berthAt (coreOf s c) b).winStore = []) :
    releaseWins n s c b = s := by
  cases n with
  | zero => rfl
  | succ n => simp [releaseWins, h, winFirst]

/- Reports (R63, R64). -/

theorem launchPkt_eq (s : State) (k : Pkt) : ∃ f, launchPkt s k = { s with fabric := f } := by
  unfold launchPkt
  dsimp only
  split
  · exact ⟨_, rfl⟩
  · exact ⟨s.fabric, rfl⟩

theorem sendPkt_eq (s : State) (d : Nat) (body : PktBody) : ∃ f, sendPkt s d body = { s with fabric := f } := by
  unfold sendPkt
  split
  · exact ⟨_, rfl⟩
  · obtain ⟨f, hf⟩ := launchPkt_eq (putOut s _) _
    exact ⟨f, hf⟩

theorem sendCuts_eq (r : ROp) (pasid : BitVec 20) (sync : Sync) (n : Nat) :
    ∀ (s : State) (va : Nat) (p : Nat × Nat × Nat) (bs : List Byte), ∃ f, (sendCuts r pasid sync n s va p bs).1 = { s with fabric := f } := by
  induction n with
  | zero => exact fun s _ _ _ => ⟨s.fabric, rfl⟩
  | succ n ih =>
    intro s va p bs
    rw [sendCuts]
    split
    · exact ⟨s.fabric, rfl⟩
    · obtain ⟨f, hf⟩ := sendPkt_eq (updFab s _) _ _
      obtain ⟨f', hf'⟩ := ih (sendPiece s { r with va := BitVec.ofNat 64 va } pasid sync p (bs.take 256)).1 (va + 256) _ (bs.drop 256)
      exact ⟨f', hf'.trans (by rw [sendPiece, hf]; rfl)⟩

theorem sendPieces_eq (r : ROp) (pasid : BitVec 20) (sync : Sync) (l : List ((Nat × Nat × Nat) × List Byte)) :
    ∀ (s : State) (va : Nat), ∃ f, (sendPieces r pasid sync s va l).1 = { s with fabric := f } := by
  induction l with
  | nil => exact fun s _ => ⟨s.fabric, rfl⟩
  | cons x l ih =>
    intro s va
    rw [sendPieces]
    split
    · obtain ⟨f, hf⟩ := sendCuts_eq r pasid sync (x.2.length / 256 + 1) s va x.1 x.2
      obtain ⟨f', hf'⟩ := ih (sendCuts r pasid sync (x.2.length / 256 + 1) s va x.1 x.2).1 (va + x.1.2.2)
      exact ⟨f', hf'.trans (by rw [hf])⟩
    · exact ih s _

/-- A write of the dispatcher changes memory, its dirty lines and the fabric, and no more. -/
theorem dispSend_eq {s t : State} {pasid : BitVec 20} {va : Nat} {bs : List Byte} {ops : List Nat}
    (h : dispSend s pasid va bs = some (t, ops)) : ∃ m d f, t = { s with mem := m, dirty := d, fabric := f } := by
  have written : ∀ (l : List ((Nat × Nat × Nat) × List Byte)), ∃ m d, l.foldl (fun t p => if p.1.1 = 3 then t
      else noteDirty { t with mem := wrBytes t.mem p.1.2.1 p.2 } p.1.2.1 p.2.length) s = { s with mem := m, dirty := d } := by
    intro l
    refine List.foldlRecOn (motive := fun t : State => ∃ m d, t = { s with mem := m, dirty := d }) l _ ⟨s.mem, s.dirty, rfl⟩ ?_
    rintro _ ⟨m, d, rfl⟩ p _
    split
    · exact ⟨m, d, rfl⟩
    · obtain ⟨d', hd⟩ := noteDirty_eq { s with mem := wrBytes m p.1.2.1 p.2, dirty := d } p.1.2.1 p.2.length
      exact ⟨_, d', hd⟩
  unfold dispSend at h
  split at h
  · cases h
  · split at h
    · cases h
    · rename_i ps _ _
      obtain ⟨m, d, hw⟩ := written (ps.zip (dealOut (ps.map (·.2)) bs |>.map (·.2)))
      obtain ⟨f, hf⟩ := sendPieces_eq { core := noCore } pasid .plain (ps.zip (dealOut (ps.map (·.2)) bs |>.map (·.2)))
        { s with mem := m, dirty := d } va
      refine ⟨m, d, f, ?_⟩
      rw [← hf, ← hw]
      exact (congrArg Prod.fst (Option.some.inj h)).symm

/-- A record of no graph is counted in none (R63). -/
theorem deviceRec_graphs (s : State) (code engine eid : Nat) (detail : List Byte) : (deviceRec s code engine eid detail).graphs = s.graphs := rfl

theorem endReport_frame (s : State) (p : RepPend) (w : Bool) : (endReport s p w).cores = s.cores ∧ (endReport s p w).graphs = s.graphs := by
  have signal : ∀ t : State, (t.cores = s.cores ∧ t.graphs = s.graphs) →
      (if p.done then noteDone t p.gid p.code else t).cores = s.cores ∧ (if p.done then noteDone t p.gid p.code else t).graphs = s.graphs := by
    intro t ht
    split <;> exact ht
  refine signal _ ?_
  cases w with
  | true =>
    rw [if_pos rfl]
    split <;> exact ⟨rfl, rfl⟩
  | false =>
    rw [if_neg Bool.false_ne_true]
    exact ⟨putRec_cores _ _, deviceRec_graphs _ _ _ _ _⟩

/-- A report, written or dropped, leaves the cores and the graphs as they were. -/
theorem putReport_frame (s : State) (rack : Option Nat) (pasid : BitVec 20) (va : Nat) (p : RepPend) (bs : List Byte) :
    (putReport s rack pasid va p bs).cores = s.cores ∧ (putReport s rack pasid va p bs).graphs = s.graphs := by
  cases hsend : dispSend s pasid va bs with
  | none =>
    simp only [putReport, hsend]
    cases rack <;> exact endReport_frame s p false
  | some x =>
    obtain ⟨t, ops⟩ := x
    obtain ⟨m, d, f, rfl⟩ := dispSend_eq hsend
    cases ops with
    | nil =>
      simp only [putReport, hsend]
      cases rack <;> exact endReport_frame _ p true
    | cons op ops =>
      simp only [putReport, hsend]
      cases rack <;> exact ⟨rfl, rfl⟩

theorem residency_cores (s : State) (gid : Nat) : (residency s gid).cores = s.cores := by
  unfold residency
  split
  · rfl
  · dsimp only
    split
    · rfl
    · exact (putReport_frame _ _ _ _ _ _).1

/-- The residency report leaves the remap table as it was (R64). -/
theorem residency_remap (s : State) (gid : Nat) : (graphOf (residency s gid) gid).remap = (graphOf s gid).remap := by
  unfold residency
  split
  · rfl
  case h_2 g hg =>
    dsimp only
    split
    · rfl
    · rw [graphOf, findGraph_congr (putReport_frame _ _ _ _ _ _).2, findGraph_updGraph_same _ _ (by exact fun _ => rfl), graphOf, hg]
      rfl

@[simp] theorem berthAt_noteIdle (s : State) (c bit : Nat) (b : BitVec 2) :
    berthAt (coreOf (noteIdle s c bit) c) b = berthAt (coreOf s c) b := by
  simp [noteIdle, berthAt]

@[simp] theorem chanGet_chanSet_same (k : Berth) (ch : BitVec 3) (l : List Msg) : chanGet (chanSet k ch l) ch = l := by
  simp [chanGet, chanSet]

/-- A berth as it becomes LIVE (R50). -/
def enterLive (k : Berth) : Berth := { k with state := .live, stopFor := none, used := 0, restore := none }

/-- A berth without window messages becomes LIVE with its remap entry (R50, R51). -/
theorem goLive_empty {s : State} {c : Nat} {b : BitVec 2} (h : (berthAt (coreOf s c) b).winStore = []) :
    goLive s c b = updGraph (updBerth s c b enterLive)
      (berthAt (coreOf s c) b).gid (fun g => { g with remap := amSet g.remap (berthAt (coreOf s c) b).lcore.toNat (b.toNat, c) }) := by
  refine releaseWins_empty _ ?_
  exact (congrArg Berth.winStore (berthAt_updBerth_same s c b enterLive)).trans h

/-- The tables of a berth are loaded, and its memories are those of START (R25, R50). -/
def tablesIn (s : State) (c : Nat) (b : BitVec 2) (d : TaskIn) : State :=
  let s1 := updBerth s c b (fun x => loadTables x d)
  zeroRegs (initRegions s1 c (berthAt (coreOf s1 c) b)) c (berthAt (coreOf s1 c) b)

/-- START enters channel 0, and an IDLE of the core sees it (R13, R394). -/
def startIn (s : State) (c : Nat) (b : BitVec 2) (m : Msg) : State :=
  updBerth (noteIdle s c 1) c b (fun x => chanSet x 0 (chanGet x 0 ++ [m]))

/-- The task has received START, and the residency report is due with the last of them (R64). -/
def countStart (s : State) (gid task : Nat) : State :=
  residency (updGraph s gid (fun h => setTask h task (fun u => { u with started := true }))) gid

/-- LOADING without a slot to read, of a task whose START carries no payload. -/
theorem loaded_noSlot {s : State} {c : Nat} {b : BitVec 2} (g : Graph) (t : Task) {d : TaskIn}
    (hslot : (berthAt (coreOf s c) b).restore = none) (hlen : leAt d.td 0x1E 2 = 0) :
    let k := berthAt (coreOf s c) b
    loaded s c b g t d = some (countStart (startIn (goLive (tablesIn s c b d) c b) c b (startMsg s.wall k.gid k.lcore.toNat k.det []))
      k.gid k.task) := by
  simp only [loaded, hslot, hlen, if_true, countStart, startIn, tablesIn]

theorem berthAt_tablesIn (s : State) (c : Nat) (b : BitVec 2) (d : TaskIn) :
    berthAt (coreOf (tablesIn s c b d) c) b = loadTables (berthAt (coreOf s c) b) d := by
  have hcores : (tablesIn s c b d).cores = (updBerth s c b (fun x => loadTables x d)).cores := by simp [tablesIn]
  rw [coreOf, hcores]
  exact berthAt_updBerth_same s c b _

theorem berthAt_startIn (s : State) (c : Nat) (b : BitVec 2) (m : Msg) :
    berthAt (coreOf (startIn s c b m) c) b = chanSet (berthAt (coreOf s c) b) 0 (chanGet (berthAt (coreOf s c) b) 0 ++ [m]) := by
  rw [startIn, berthAt_updBerth_same, berthAt_noteIdle]

@[simp] theorem tablesIn_graphs (s : State) (c : Nat) (b : BitVec 2) (d : TaskIn) : (tablesIn s c b d).graphs = s.graphs := by
  simp [tablesIn]

@[simp] theorem startIn_graphs (s : State) (c : Nat) (b : BitVec 2) (m : Msg) : (startIn s c b m).graphs = s.graphs := rfl

theorem coreOf_countStart (s : State) (gid task c : Nat) : coreOf (countStart s gid task) c = coreOf s c := by
  rw [coreOf, countStart, residency_cores, updGraph_cores, coreOf]

theorem countStart_remap (s : State) (gid task : Nat) : (graphOf (countStart s gid task) gid).remap = (graphOf s gid).remap := by
  rw [countStart, residency_remap, graphOf, findGraph_updGraph_same _ _ (by exact fun _ => rfl), graphOf]
  cases findGraph s gid <;> rfl

theorem berthAt_goLive_empty {s : State} {c : Nat} {b : BitVec 2} (h : (berthAt (coreOf s c) b).winStore = []) :
    berthAt (coreOf (goLive s c b) c) b = enterLive (berthAt (coreOf s c) b) := by
  rw [goLive_empty h, coreOf_updGraph, berthAt_updBerth_same]

theorem goLive_empty_remap {s : State} {c : Nat} {b : BitVec 2} {g : Graph} (h : (berthAt (coreOf s c) b).winStore = [])
    (hg : findGraph s (berthAt (coreOf s c) b).gid = some g) :
    (graphOf (goLive s c b) (berthAt (coreOf s c) b).gid).remap = amSet g.remap (berthAt (coreOf s c) b).lcore.toNat (b.toNat, c) := by
  rw [goLive_empty h, graphOf, findGraph_updGraph_same _ _ (by exact fun _ => rfl), findGraph_congr (updBerth_graphs _ _ _ _), hg]
  rfl

/-- The end of LOADING without a slot, with an empty window store: the tables are in the core, START is the last message of channel 0, and
the remap table names the berth (R13, R50, R51). -/
theorem loaded_start {s : State} {c : Nat} {b : BitVec 2} {g : Graph} (t : Task) {d : TaskIn}
    (hg : findGraph s (berthAt (coreOf s c) b).gid = some g) (hslot : (berthAt (coreOf s c) b).restore = none)
    (hlen : leAt d.td 0x1E 2 = 0) (hwin : (berthAt (coreOf s c) b).winStore = []) :
    let k := berthAt (coreOf s c) b
    ∃ u, loaded s c b g t d = some u
      ∧ berthAt (coreOf u c) b = chanSet (enterLive (loadTables k d)) 0
          (chanGet k 0 ++ [startMsg s.wall k.gid k.lcore.toNat k.det []])
      ∧ amFind (graphOf u k.gid).remap k.lcore.toNat = some (b.toNat, c) := by
  intro k
  have hk := berthAt_tablesIn s c b d
  have hwin' : (berthAt (coreOf (tablesIn s c b d) c) b).winStore = [] := by rw [hk]; exact hwin
  refine ⟨_, loaded_noSlot g t hslot hlen, ?_, ?_⟩
  · rw [coreOf_countStart, berthAt_startIn, berthAt_goLive_empty hwin', hk]
    rfl
  · have hg' : findGraph (tablesIn s c b d) (berthAt (coreOf (tablesIn s c b d) c) b).gid = some g := by
      rw [hk, findGraph_congr (tablesIn_graphs s c b d)]
      exact hg
    have hremap : (graphOf (goLive (tablesIn s c b d) c b) k.gid).remap = amSet g.remap k.lcore.toNat (b.toNat, c) := by
      have h := goLive_empty_remap hwin' hg'
      rw [hk] at h
      exact h
    rw [countStart_remap, graphOf_congr (startIn_graphs _ _ _ _), hremap, amFind_amSet_same]

/- The end (R50, R51, R65, R409). -/

theorem clearRemap_remap (s : State) (c : Nat) (b : BitVec 2) :
    ∀ e ∈ (graphOf (clearRemap s c b) (berthAt (coreOf s c) b).gid).remap, ¬(e.2.2 = c ∧ e.2.1 = b.toNat) := by
  rw [clearRemap, graphOf, findGraph_updGraph_same _ _ (by exact fun _ => rfl)]
  cases findGraph s (berthAt (coreOf s c) b).gid with
  | none => exact fun e he => nomatch he
  | some g =>
    intro e he
    have hkept := (List.mem_filter.mp he).2
    rwa [Bool.not_eq_true', decide_eq_false_iff_not] at hkept

/-- The keys of a map rise: it lists each key once. -/
def KeysRise {α : Type} (m : AMap α) : Prop := m.Pairwise (fun p q => p.1 < q.1)

theorem mem_amSet {α : Type} {m : AMap α} {n : Nat} {v : α} {p : Nat × α} (h : p ∈ amSet m n v) : p = (n, v) ∨ p ∈ m := by
  induction m with
  | nil => exact .inl (by simpa [amSet] using h)
  | cons q t ih =>
    simp only [amSet] at h
    split at h
    · simpa using h
    · split at h
      · exact (List.mem_cons.mp h).imp_right (List.mem_cons_of_mem _)
      · rcases List.mem_cons.mp h with rfl | h
        · exact .inr List.mem_cons_self
        · exact (ih h).imp_right (List.mem_cons_of_mem _)

theorem KeysRise.amSet {α : Type} {m : AMap α} (h : KeysRise m) (n : Nat) (v : α) : KeysRise (amSet m n v) := by
  induction m with
  | nil => simp [KeysRise, Machine.amSet]
  | cons q t ih =>
    obtain ⟨hq, ht⟩ := List.pairwise_cons.mp h
    simp only [Machine.amSet]
    split
    · rename_i hn
      refine List.pairwise_cons.mpr ⟨fun p hp => ?_, h⟩
      rcases List.mem_cons.mp hp with rfl | hp
      · exact hn
      · exact Nat.lt_trans hn (hq p hp)
    · split
      · rename_i _ hn
        exact List.pairwise_cons.mpr ⟨fun p hp => by simpa [hn] using hq p hp, ht⟩
      · refine List.pairwise_cons.mpr ⟨fun p hp => ?_, ih ht⟩
        rcases mem_amSet hp with rfl | hp
        · omega
        · exact hq p hp

theorem KeysRise.amGet_of_mem {α : Type} {m : AMap α} (h : KeysRise m) (d : α) {n : Nat} {v : α} (hm : (n, v) ∈ m) : amGet d m n = v := by
  induction m with
  | nil => cases hm
  | cons q t ih =>
    obtain ⟨hq, ht⟩ := List.pairwise_cons.mp h
    rcases List.mem_cons.mp hm with rfl | hm
    · simp [amGet]
    · have hlt := hq _ hm
      simp only [amGet]
      rw [if_neg (by omega)]
      exact ih ht hm

theorem KeysRise.updCore {s : State} (h : KeysRise s.cores) (c : Nat) (f : Core → Core) : KeysRise (updCore s c f).cores := h.amSet c _
theorem KeysRise.updBerth {s : State} (h : KeysRise s.cores) (c : Nat) (b : BitVec 2) (f : Berth → Berth) :
    KeysRise (updBerth s c b f).cores := h.amSet c _

theorem KeysRise.reslice {s : State} (h : KeysRise s.cores) (c : Nat) : KeysRise (reslice s c).cores :=
  List.foldlRecOn (motive := fun t : State => KeysRise t.cores) _ _ h (fun _ ht b _ => ht.updBerth c b _)

/-- Where the keys of the cores rise, a graph's berths are not free. -/
theorem state_of_mem_berthsOf {s : State} (hs : KeysRise s.cores) {gid d : Nat} {e : BitVec 2} (h : (d, e) ∈ berthsOf s gid) :
    (berthAt (coreOf s d) e).state ≠ .free := by
  obtain ⟨⟨n, k⟩, hk, he⟩ := List.mem_flatMap.mp h
  obtain ⟨x, -, hx⟩ := List.mem_filterMap.mp he
  simp only [Option.ite_none_right_eq_some, Option.some.injEq, Prod.mk.injEq] at hx
  obtain ⟨⟨-, hstate⟩, rfl, rfl⟩ := hx
  rwa [coreOf, hs.amGet_of_mem _ hk]

/-- The keys of the cores rise, and a berth is k. -/
def BerthIs (c : Nat) (b : BitVec 2) (k : Berth) (s : State) : Prop := KeysRise s.cores ∧ berthAt (coreOf s c) b = k

theorem BerthIs.of_cores {c : Nat} {b : BitVec 2} {k : Berth} {s t : State} (h : BerthIs c b k s) (ht : t.cores = s.cores) :
    BerthIs c b k t := by
  obtain ⟨hkeys, hk⟩ := h
  exact ⟨by rwa [ht], by rwa [coreOf, ht]⟩

theorem unboundRec_cores (s : State) (m : Msg) (eid detail : Nat) : (unboundRec s m eid detail).cores = s.cores := putRec_cores _ _

section
variable {c : Nat} {b : BitVec 2} {k : Berth} (hk : k.state = .free)
include hk

/-- FAIL-GRAPH stops the berths of its graph, and no free one (R65). -/
theorem BerthIs.failGraph {s : State} (h : BerthIs c b k s) (gid code : Nat) (task : Option Nat) :
    BerthIs c b k (failGraph s gid code task) := by
  have stopped : BerthIs c b k ((berthsOf s gid).foldl (fun t p => Machine.updBerth t p.1 p.2 (fun k =>
      { k with state := .stopping, stopFor := some .failGraph })) s) := by
    refine List.foldlRecOn (motive := BerthIs c b k) _ _ h (fun t ht p hp => ?_)
    obtain ⟨hkeys, hb⟩ := ht
    refine ⟨hkeys.updBerth _ _ _, ?_⟩
    rw [berthAt_updBerth_other, hb]
    rintro ⟨rfl, rfl⟩
    exact state_of_mem_berthsOf h.1 hp (by rw [h.2, hk])
  exact stopped.of_cores rfl

/-- A message goes to the device park, or its graph fails: no free berth changes (R116). -/
theorem BerthIs.parkDevice {s : State} (h : BerthIs c b k s) (m : Msg) : BerthIs c b k (parkDevice s m) := by
  unfold Machine.parkDevice
  split
  · exact h.of_cores (unboundRec_cores _ _ _ _)
  · exact (h.of_cores (unboundRec_cores _ _ _ _)).failGraph hk _ _ _

theorem BerthIs.moveParked {s : State} (h : BerthIs c b k s) (p : Parked) : BerthIs c b k (moveParked s p) := by
  unfold Machine.moveParked
  split
  · exact h.of_cores rfl
  · exact (h.of_cores (unboundRec_cores _ _ _ _)).failGraph hk _ _ _

end

/-- A berth as it becomes FREE (R409). -/
def freed (k : Berth) : Berth := { k with state := .free, stopFor := none, chans := Vector.replicate 8 [], park := [], winStore := [] }

/-- Where the keys of the cores rise, a released berth is free, with nothing in its channels and park. -/
theorem berthAt_releaseBerth {s : State} (hs : KeysRise s.cores) (c : Nat) (b : BitVec 2) :
    ∃ v, berthAt (coreOf (releaseBerth s c b) c) b = { freed (berthAt (coreOf s c) b) with sliced := v } := by
  let s1 := updCore s c (fun x =>
    { x with gauges := x.gauges.map (fun g => if g.berth = some b then { g with berth := none, cfg := 0 } else g) })
  let s2 := updGraph s1 (berthAt (coreOf s c) b).gid (fun g =>
    { g with remap := g.remap.filter (fun e => !(e.2.2 = c ∧ e.2.1 = b.toNat)) })
  let s3 := updBerth s2 c b freed
  have hk3 : berthAt (coreOf s3 c) b = freed (berthAt (coreOf s c) b) := by
    simp only [s3, s2, s1, berthAt_updBerth_same, coreOf_updGraph, coreOf_updCore_same]
    rfl
  obtain ⟨v, hv⟩ := berthAt_reslice s3 c b
  rw [hk3] at hv
  have hkeys1 : KeysRise s1.cores := hs.updCore c _
  have hkeys2 : KeysRise s2.cores := hkeys1
  have hkeys : KeysRise (reslice s3 c).cores := (hkeys2.updBerth c b _).reslice c
  have start : BerthIs c b { freed (berthAt (coreOf s c) b) with sliced := v } (reslice s3 c) := ⟨hkeys, hv⟩
  suffices h : BerthIs c b { freed (berthAt (coreOf s c) b) with sliced := v } (releaseBerth s c b) from ⟨v, h.2⟩
  refine List.foldlRecOn (motive := BerthIs c b _) _ _ ?_ (fun t ht m _ => ht.parkDevice rfl m)
  refine List.foldlRecOn (motive := BerthIs c b _) _ _ ?_ (fun t ht p _ => ht.moveParked rfl p)
  exact List.foldlRecOn (motive := BerthIs c b _) _ _ start (fun t ht m _ => ht.parkDevice rfl m)

@[simp] theorem writeAcct_cores (s : State) (c : Nat) (b : BitVec 2) (kind : Nat) : (writeAcct s c b kind).cores = s.cores := rfl

/-- A berth without pending events logs none (R385). -/
theorem KeysRise.logPending_nil {s : State} (hs : KeysRise s.cores) {c : Nat} {b : BitVec 2} (h : (berthAt (coreOf s c) b).pend = []) :
    KeysRise (logPending s c b).cores := by
  rw [logPending, h]
  exact (hs.updBerth c b _).updBerth c b _

/- The parts of O46. -/

/-- The task that is first in the order of R46 takes its berth, which goes to LOADING, and no other core changes (R46, R49, R53, R401). -/
theorem exec_bind_firstBind {s : State} {i : Instr} {gid task q : Nat} {key : BindKey} {spot : Spot} {g : Graph} {t : Task}
    (hi : (i = .bindTask gid task ∧ t.st = .eligible) ∨ (i = .restore gid task ∧ t.st = .saved))
    (hfirst : firstBind s = some (key, q, spot)) (hgid : key.gid = gid) (htask : key.task = task)
    (hat : taskAtKey s key = some (g, t)) :
    ∃ u, exec i s = .next u
      ∧ (let k := berthAt (coreOf u spot.core) spot.berth
         k.state = .loading ∧ k.gid = g.gid ∧ k.task = task ∧ k.regB = spot.regB ∧ k.spB = spot.spB ∧ k.restore = t.slot)
      ∧ (∀ c, c ≠ spot.core → coreOf u c = coreOf s c) ∧ u.mem = s.mem := by
  have hexec : ∃ move, exec i s = .next (bindAt s g task t q spot move) := by
    rcases hi with ⟨rfl, hst⟩ | ⟨rfl, hst⟩
    · exact ⟨false, congrArg Host.Outcome.next (bindNext_firstBind hfirst hgid htask hat (by rw [hst]; rfl))⟩
    · exact ⟨true, congrArg Host.Outcome.next (bindNext_firstBind hfirst hgid htask hat (by rw [hst]; rfl))⟩
  obtain ⟨move, hexec⟩ := hexec
  exact ⟨_, hexec, berthAt_bindAt s g task t q spot move, fun c hc => coreOf_bindAt_other s g task t q spot move hc, rfl⟩

section
variable {s : State} {c : Nat} {b : BitVec 2} (hc : c < 1024)
include hc

/-- LOADING ends with the tables loaded, START alone in channel 0 and the remap entry set (R13, R50, R51). -/
theorem exec_loadingDone_start {g : Graph} {t : Task} {d : TaskIn} (hstate : (berthAt (coreOf s c) b).state = .loading)
    (hmat : (coreOf s c).mat.queue = []) (hg : findGraph s (berthAt (coreOf s c) b).gid = some g)
    (ht : g.tasks[(berthAt (coreOf s c) b).task]? = some t) (hd : readTask s g.pasid (berthAt (coreOf s c) b).tdesc.toNat = some d)
    (hslot : (berthAt (coreOf s c) b).restore = none) (hlen : leAt d.td 0x1E 2 = 0) (hstores : storesLeft s c b = false)
    (hchan : chanGet (berthAt (coreOf s c) b) 0 = []) (hwin : (berthAt (coreOf s c) b).winStore = []) :
    ∃ u m, exec (.loadingDone c b) s = .next u ∧ (berthAt (coreOf u c) b).state = .live
      ∧ (berthAt (coreOf u c) b).handlers = tdHandlers d.td ∧ (berthAt (coreOf u c) b).regions = d.regs
      ∧ chanGet (berthAt (coreOf u c) b) 0 = [m] ∧ m.sender = 0xFFFF ∧ m.len = 0
      ∧ amFind (graphOf u g.gid).remap (berthAt (coreOf s c) b).lcore.toNat = some (b.toNat, c) := by
  obtain ⟨u, hload, hberth, hremap⟩ := loaded_start t hg hslot hlen hwin
  have hexec : exec (.loadingDone c b) s = .next u := by
    change execLoadingDone c b s = _
    simp [execLoadingDone, show ¬1024 ≤ c by omega, hstate, hmat, hstores, hg, ht, hd, hload]
  rw [hchan, List.nil_append] at hberth
  refine ⟨u, _, hexec, ?_, ?_, ?_, by rw [hberth, chanGet_chanSet_same], rfl, rfl, by rw [findGraph_gid hg, hremap]⟩
  all_goals rw [hberth]; rfl

/-- A LIVE berth that is to stop, and not for the debugger, is STOPPING and has left the remap table (R50, R51). -/
theorem exec_stopBerth_live (hstate : (berthAt (coreOf s c) b).state = .live) (hstop : (berthAt (coreOf s c) b).stopFor ≠ none)
    (hdebug : (berthAt (coreOf s c) b).stopFor ≠ some .debug) :
    ∃ t, exec (.stopBerth c b) s = .next t ∧ (berthAt (coreOf t c) b).state = .stopping
      ∧ (∀ e ∈ (graphOf t (berthAt (coreOf s c) b).gid).remap, ¬(e.2.2 = c ∧ e.2.1 = b.toNat)) ∧ t.mem = s.mem := by
  have hexec : exec (.stopBerth c b) s = .next (updBerth (clearRemap s c b) c b (fun x => { x with state := .stopping })) := by
    change execStopBerth c b s = _
    simp [execStopBerth, show ¬1024 ≤ c by omega, hstate, hstop, hdebug]
  refine ⟨_, hexec, by rw [berthAt_updBerth_same], ?_, rfl⟩
  rw [graphOf_congr (updBerth_graphs _ _ _ _)]
  exact clearRemap_remap s c b

/-- Where the keys of the cores rise, a berth that a failing graph stopped is freed, with nothing in its channels and park (R50, R65, R409). -/
theorem exec_berthFree_failGraph (hkeys : KeysRise s.cores) (hstate : (berthAt (coreOf s c) b).state = .stopping)
    (hstop : (berthAt (coreOf s c) b).stopFor = some .failGraph) (hruns : berthRuns s c b = false) (hpend : (berthAt (coreOf s c) b).pend = []) :
    ∃ t, exec (.berthFree c b) s = .next t ∧ (berthAt (coreOf t c) b).state = .free ∧ (berthAt (coreOf t c) b).stopFor = none
      ∧ (berthAt (coreOf t c) b).park = [] ∧ (berthAt (coreOf t c) b).chans = Vector.replicate 8 [] := by
  have hexec : ∃ t, exec (.berthFree c b) s = .next (releaseBerth t c b) ∧ KeysRise t.cores := by
    change ∃ t, execBerthFree c b s = _ ∧ _
    simp only [execBerthFree, show ¬1024 ≤ c by omega, hstate, hstop, hruns]
    refine ⟨_, rfl, ?_⟩
    have hacct : KeysRise (writeAcct (logPending s c b) c b 3).cores := hkeys.logPending_nil hpend
    split
    · exact hacct
    · exact hacct
  obtain ⟨t, hexec, ht⟩ := hexec
  obtain ⟨v, hv⟩ := berthAt_releaseBerth ht c b
  refine ⟨_, hexec, ?_⟩
  rw [hv]
  exact ⟨rfl, rfl, rfl, rfl⟩

end

/- A map of cores that lists a core twice. -/

/-- A berth that a failing graph stopped, with a message of that graph in channel 0. -/
def stoppedByFailGraph : Berth :=
  { gid := 1, state := .stopping, stopFor := some .failGraph, chans := (Vector.replicate 8 []).set 0 [{ gid := 1 }] }

/-- Core 0 is listed twice, and the device park is full. -/
def coreListedTwice : State :=
  let k : Core := { berths := (Vector.replicate 4 {}).set 0 stoppedByFailGraph }
  { cores := [(0, k), (0, k)], devPark := List.replicate 1024 {} }

theorem coreListedTwice_stopped :
    (berthAt (coreOf coreListedTwice 0) 0).state = .stopping ∧ (berthAt (coreOf coreListedTwice 0) 0).stopFor = some .failGraph
      ∧ berthRuns coreListedTwice 0 0 = false ∧ (berthAt (coreOf coreListedTwice 0) 0).pend = [] := by decide

/-- What `exec_berthFree_failGraph` supposes and O46 does not: the keys of the cores rise. -/
theorem not_keysRise_coreListedTwice : ¬ KeysRise coreListedTwice.cores :=
  fun h => absurd (List.rel_of_pairwise_cons h List.mem_cons_self) (Nat.lt_irrefl 0)

/-- The message finds the device park full and fails its graph (R116), whose berths are then looked up in the list of cores: the second
listing still shows the berth that has just been freed, and it is stopped again. -/
theorem exec_berthFree_coreListedTwice :
    ∃ t, exec (.berthFree 0 0) coreListedTwice = .next t ∧ (berthAt (coreOf t 0) 0).state = .stopping := by
  refine ⟨_, rfl, ?_⟩
  decide +kernel

end Sys2Proof.Machine

section

open Sys2Proof Sys2Proof.Machine

/-- Refutes O46: where a core is listed twice, which its last part does not exclude, BERTH_FREE can leave the berth STOPPING. -/
theorem not_berthLifecycle : ¬ Obligations.BerthLifecycle := by
  unfold Obligations.BerthLifecycle
  intro h
  obtain ⟨-, -, -, hfree⟩ := h coreListedTwice
  obtain ⟨hstate, hstop, hruns, hpend⟩ := coreListedTwice_stopped
  obtain ⟨t, hexec, ht, -⟩ := hfree 0 0 (by decide) hstate hstop hruns hpend
  obtain ⟨u, hexec', hu⟩ := exec_berthFree_coreListedTwice
  obtain rfl : t = u := Host.Outcome.next.inj (hexec.symm.trans hexec')
  exact absurd (ht.symm.trans hu) (by decide)

end
end

section
/-! Resets and bring-up (R406, R407, R420 to R426): the rules for memory that is cleared and for device records; what a warm and a cold
reset leave; the post-mortem image that goes before; the training of ports; then the phases of bring-up. -/

namespace Sys2Proof.Machine

/- Memory that is cleared (R407). -/

theorem spanAt_append (l r : List Span) (k : Nat) : spanAt (l ++ r) k = (spanAt l k).or (spanAt r k) := by
  induction l with
  | nil => rfl
  | cons x t ih =>
    simp only [List.cons_append, spanAt]
    split
    · rfl
    · exact ih

/-- A cut leaves what covers an address below it, with the same draw, whether or not the spans rise. -/
theorem spanAt_cutSpans_below (l : List Span) {lo hi k : Nat} (hlh : lo ≤ hi) (h : k < lo) :
    (spanAt (cutSpans l lo hi) k).map (·.gen) = (spanAt l k).map (·.gen) := by
  induction l with
  | nil => rfl
  | cons x t ih =>
    have hcons : cutSpans (x :: t) lo hi = cutSpan x lo hi ++ cutSpans t lo hi := by simp [cutSpans]
    have hhigh : spanAt (if max x.lo hi < x.hi then [{ x with lo := max x.lo hi }] else []) k = none := by
      split
      · exact if_neg (by simp only; omega)
      · rfl
    rw [hcons, cutSpan, spanAt_append, spanAt_append, hhigh, Option.or_none, spanAt]
    by_cases hx : x.lo ≤ k ∧ k < x.hi
    · have hk : k < min x.hi lo := by omega
      simp [spanAt, hx, hk, show x.lo < min x.hi lo by omega]
    · have hlow : spanAt (if x.lo < min x.hi lo then [{ x with hi := min x.hi lo }] else []) k = none := by
        split
        · exact if_neg (by simp only; omega)
        · rfl
      rw [hlow, if_neg hx, Option.none_or, ih]

/-- Cleared bytes read 0. -/
theorem rdByte_wrZeros_in (m : Memory) {a n k : Nat} (h : a ≤ k ∧ k < a + n) : rdByte (wrZeros m a n) k = 0 := by
  have hspan : spanAt (cutSpans m.spans a (a + n)) k = none := by simpa using spanAt_cut_none (l := m.spans) (.inr h)
  simp only [rdByte, wrZeros, hspan]
  refine cellAt_none (fun c hc => ?_)
  rcases List.mem_append.mp hc with hc | hc
  · have : c.1 < a := by simpa using (List.mem_filter.mp hc).2
    omega
  · have : a + n ≤ c.1 := by simpa using (List.mem_filter.mp hc).2
    omega

/-- Bytes below those that are cleared stay. -/
theorem rdByte_wrZeros_below (m : Memory) {a n k : Nat} (h : k < a) : rdByte (wrZeros m a n) k = rdByte m k := by
  have hgen := spanAt_cutSpans_below m.spans (Nat.le_add_right a n) h
  have hcell : cellAt (m.cells.filter (fun c => decide (c.1 < a)) ++ m.cells.filter (fun c => decide (a + n ≤ c.1))) k = cellAt m.cells k := by
    rw [cellAt_append_left, cellAt_filter (fun v => decide_eq_true h)]
    intro c hc
    have : a + n ≤ c.1 := by simpa using (List.mem_filter.mp hc).2
    omega
  simp only [rdByte, wrZeros]
  cases hcut : spanAt (cutSpans m.spans a (a + n)) k with
  | none =>
    rw [hcut] at hgen
    have hnone : spanAt m.spans k = none := by simpa using hgen.symm
    rw [hnone]
    exact hcell
  | some x =>
    rw [hcut] at hgen
    obtain ⟨y, hy, hxy⟩ := Option.map_eq_some_iff.mp hgen.symm
    simp [hy, hxy]

/- Device records (R380, R402). -/

theorem recorded_deviceRec (s : State) (code engine eid : Nat) (detail : List Byte) :
    Claims.Recorded s (deviceRec s code engine eid detail) code engine eid detail := rfl

@[simp] theorem deviceRec_wall (s : State) (code engine eid : Nat) (detail : List Byte) : (deviceRec s code engine eid detail).wall = s.wall := rfl
@[simp] theorem deviceRec_fw (s : State) (code engine eid : Nat) (detail : List Byte) : (deviceRec s code engine eid detail).fw = s.fw := rfl
@[simp] theorem deviceRec_fabric (s : State) (code engine eid : Nat) (detail : List Byte) : (deviceRec s code engine eid detail).fabric = s.fabric := rfl

/- What a reset leaves (R406, R407). -/

/-- RESETCAUSE of a reset that is raised while the device is up. -/
theorem causeFw_up {f : Fw} (h : f.phase = 5) (cause code : Nat) :
    causeFw f cause code = { f with first := cause, also := 0, rcode := BitVec.ofNat 16 code } := by
  rw [causeFw, if_neg (by omega)]

/-- RESETCAUSE of a reset that is raised while another is in progress: the cause joins ALSO. -/
theorem causeFw_during {f : Fw} {cause : Nat} (h : f.phase < 5) (hc : cause ≠ 1) (code : Nat) :
    causeFw f cause code = { f with also := f.also ||| BitVec.ofNat 8 (2 ^ (cause - 1)) } := if_pos ⟨h, hc⟩

/-- Writing back dirty lines changes which granules are uncorrectable, and no other memory. -/
theorem flushDirty_eq (s : State) : ∃ bad, flushDirty s = { s with bad := bad, dirty := [], fresh := s.fresh + s.dirty.length } := by
  suffices h : ∃ bad, ((List.range s.dirty.length).zip s.dirty).foldl (fun u p =>
      if Config.freeNat (s.fresh + p.1) % 2 = 0 then u else [0, 1, 2, 3].foldl (fun v i => setBad v (4 * p.2 + i) true) u) s = { s with bad := bad } by
    obtain ⟨bad, h⟩ := h
    exact ⟨bad, by rw [flushDirty, h]⟩
  refine List.foldlRecOn (motive := fun u : State => ∃ bad, u = { s with bad := bad }) _ _ ⟨s.bad, rfl⟩ ?_
  rintro u ⟨bad, rfl⟩ p _
  split
  · exact ⟨bad, rfl⟩
  · exact ⟨_, rfl⟩

/-- The state after a warm reset, with its cause and WALL as they were raised and kept (R407). -/
def WarmReset (wall : Nat) (t : State) (cause code : Nat) : Prop :=
  t.fw.first = cause ∧ t.fw.also = 0 ∧ t.fw.rcode = BitVec.ofNat 16 code ∧ t.fw.phase = 1
    ∧ t.cores = [] ∧ t.graphs = [] ∧ t.ctxs = [] ∧ t.stations = [] ∧ t.posted = [] ∧ t.wall = wall
    ∧ t.fabric.rack = [] ∧ t.fabric.siding = []
    ∧ (∀ a, vaultBase ≤ a → a < hostBase → rdByte t.mem a = 0) ∧ (∀ g, vaultBase ≤ 16 * g → 16 * g < hostBase → feGet t g = false)

/-- What a warm reset keeps of the device as it was: the DRAM and the fault log (R407). -/
def WarmKept (s t : State) : Prop := (∀ a, a < vaultBase → rdByte t.mem a = rdByte s.mem a) ∧ t.flog = s.flog

/-- What a warm reset of s leaves in t of RESETCAUSE, the image, the memories, WALL and the records. -/
structure WarmLeaves (s : State) (c : Fw) (cause code : Nat) (t : State) : Prop where
  first : t.fw.first = c.first
  also : t.fw.also = c.also
  rcode : t.fw.rcode = c.rcode
  phase : t.fw.phase = if cause = 6 ∧ code = 0x0901 then 15 else 1
  waiting : t.fw.waiting = none
  pmvalid : t.fw.pmvalid = s.fw.pmvalid
  pmlost : t.fw.pmlost = s.fw.pmlost
  mem : t.mem = keepWarm s.mem 1
  fe : t.fe = keepWarm s.fe 16
  wall : t.wall = s.wall
  flog : t.flog = s.flog
  lastFaults : t.lastFaults = s.lastFaults

section
variable (s : State) (c : Fw) {cause : Nat} (code : Nat)

theorem warmLeaves_resetNow (h : 2 < cause) : WarmLeaves s c cause code (resetNow s c cause code) := by
  have hcold : decide (cause ≤ 2) = false := by simpa using h
  have hcause : cause ≠ 1 := by omega
  obtain ⟨bad, hflush⟩ := flushDirty_eq s
  simp only [resetNow, hcold, hflush, hcause]
  exact ⟨rfl, rfl, rfl, rfl, rfl, rfl, rfl, rfl, rfl, rfl, rfl, rfl⟩

theorem warmReset_resetNow (h : 2 < cause) (hfirst : c.first = cause) (halso : c.also = 0) (hcode : c.rcode = BitVec.ofNat 16 code)
    (hboot : ¬(cause = 6 ∧ code = 0x0901)) : WarmReset s.wall (resetNow s c cause code) cause code := by
  have hleaves := warmLeaves_resetNow s c code h
  refine ⟨hleaves.first.trans hfirst, hleaves.also.trans halso, hleaves.rcode.trans hcode, hleaves.phase.trans (if_neg hboot),
    rfl, rfl, rfl, rfl, rfl, hleaves.wall, rfl, rfl, ?_, ?_⟩
  · intro a hlo hhi
    rw [hleaves.mem]
    exact rdByte_wrZeros_in _ (by simp only [vaultBase, hostBase] at *; omega)
  · intro g hlo hhi
    rw [feGet, hleaves.fe, keepWarm, rdByte_wrZeros_in _ (by simp only [vaultBase, hostBase] at *; omega)]
    rfl

theorem warmKept_resetNow (h : 2 < cause) : WarmKept s (resetNow s c cause code) := by
  have hleaves := warmLeaves_resetNow s c code h
  refine ⟨fun a ha => ?_, hleaves.flog⟩
  rw [hleaves.mem]
  exact rdByte_wrZeros_below _ (by simpa [vaultBase] using ha)

end

/- How a reset is raised (R406, R421, R422). -/

section
variable {s : State} (hwait : s.fw.waiting = none)
include hwait

theorem resetDevice_imageless {cause : Nat} (code : Nat) (h : (hasImage cause && imageRoom s) = false) :
    resetDevice s cause code = resetNow s (causeFw s.fw cause code) cause code := by
  simp [resetDevice, hwait, h]

/-- Where an image is kept it stays, and LOST counts (R422). -/
theorem resetDevice_kept {cause : Nat} (code : Nat) (hi : hasImage cause = true) (hroom : imageRoom s = true) (hvalid : s.fw.pmvalid = true) :
    resetDevice s cause code = resetNow (loseImage s) (causeFw s.fw cause code) cause code := by
  simp [resetDevice, hwait, hi, hroom, hvalid]

/-- The reset waits for its image (R421). -/
theorem resetDevice_waits {cause : Nat} (code : Nat) (hi : hasImage cause = true) (hroom : imageRoom s = true) (hvalid : s.fw.pmvalid = false) :
    resetDevice s cause code = { writeImage s (causeFw s.fw cause code) with
      fw := { s.fw with imaging := true, waiting := some (cause, code), first := (causeFw s.fw cause code).first,
                        also := (causeFw s.fw cause code).also, rcode := (causeFw s.fw cause code).rcode } } := by
  simp [resetDevice, hwait, hi, hroom, hvalid, writeImage]

/-- A reset of a cause with an image goes ahead where there is no room for one, or one is kept. -/
theorem resetDevice_goes {cause : Nat} (code : Nat) (h : imageRoom s = false ∨ s.fw.pmvalid = true) :
    ∃ u : State, resetDevice s cause code = resetNow u (causeFw s.fw cause code) cause code ∧ u.wall = s.wall ∧ u.lastFaults = s.lastFaults := by
  by_cases hi : (hasImage cause && imageRoom s) = true
  · obtain ⟨hi, hroom⟩ := Bool.and_eq_true_iff.mp hi
    have hvalid : s.fw.pmvalid = true := h.resolve_left (by simp [hroom])
    exact ⟨_, resetDevice_kept hwait code hi hroom hvalid, rfl, rfl⟩
  · exact ⟨s, resetDevice_imageless hwait code (by simpa using hi), rfl, rfl⟩

end

/-- The state in which a reset waits for its post-mortem image (R421). -/
def ResetWaits (s t : State) (cause code : Nat) : Prop :=
  t.fw.waiting = some (cause, code) ∧ t.fw.first = cause ∧ t.fw.phase = 5 ∧ t.cores = s.cores ∧ t.graphs = s.graphs

section
variable {s : State} (hphase : s.fw.phase = 5) (hwait : s.fw.waiting = none)
include hphase hwait

/-- A warm reset of an up device without an image of its own: CXL hot reset and FLR (R407). -/
theorem resetDevice_cxl {cause : Nat} (h : 2 < cause) (hi : hasImage cause = false) :
    WarmReset s.wall (resetDevice s cause 0) cause 0 ∧ WarmKept s (resetDevice s cause 0) := by
  have hcause : cause < 5 := by simpa [hasImage] using hi
  rw [resetDevice_imageless hwait 0 (by simp [hi]), causeFw_up hphase]
  exact ⟨warmReset_resetNow s _ 0 h rfl rfl rfl (by omega), warmKept_resetNow s _ 0 h⟩

/-- A reset of a cause with an image: it follows at once or waits for its image (R421, R422). -/
theorem resetDevice_imaged {cause code : Nat} (hi : hasImage cause = true) (hboot : ¬(cause = 6 ∧ code = 0x0901)) :
    (imageRoom s = false ∨ s.fw.pmvalid = true → WarmReset s.wall (resetDevice s cause code) cause code)
      ∧ (¬(imageRoom s = false ∨ s.fw.pmvalid = true) → ResetWaits s (resetDevice s cause code) cause code)
      ∧ (resetDevice s cause code).lastFaults = s.lastFaults := by
  have hcause : 5 ≤ cause := by simpa [hasImage] using hi
  by_cases hclear : imageRoom s = false ∨ s.fw.pmvalid = true
  · obtain ⟨u, hu, hwall, hfaults⟩ := resetDevice_goes hwait (cause := cause) code hclear
    have hleaves := warmLeaves_resetNow u (causeFw s.fw cause code) code (show 2 < cause by omega)
    rw [hu]
    refine ⟨fun _ => hwall ▸ warmReset_resetNow u _ code (by omega) ?_ ?_ ?_ hboot, fun h => absurd hclear h, hleaves.lastFaults.trans hfaults⟩
    all_goals rw [causeFw_up hphase]
  · have hroom : imageRoom s = true := by simpa using mt Or.inl hclear
    have hvalid : s.fw.pmvalid = false := by simpa using mt Or.inr hclear
    rw [resetDevice_waits hwait code hi hroom hvalid, causeFw_up hphase]
    exact ⟨fun h => absurd h hclear, fun _ => ⟨rfl, rfl, hphase, rfl, rfl⟩, rfl⟩

/-- The same, raised with a device record. -/
theorem resetDevice_recorded {cause code : Nat} (rec engine eid : Nat) (hi : hasImage cause = true) (hboot : ¬(cause = 6 ∧ code = 0x0901)) :
    let t := resetDevice (deviceRec s rec engine eid []) cause code
    Claims.Recorded s t rec engine eid []
      ∧ (imageRoom s = false ∨ s.fw.pmvalid = true → WarmReset s.wall t cause code)
      ∧ (¬(imageRoom s = false ∨ s.fw.pmvalid = true) → ResetWaits s t cause code) := by
  obtain ⟨hwarm, hwaits, hlast⟩ := resetDevice_imaged (s := deviceRec s rec engine eid []) hphase hwait hi hboot
  exact ⟨(congrArg List.head? hlast).trans (recorded_deviceRec s rec engine eid []), hwarm, hwaits⟩

omit hphase in
/-- The reset that the custodian orders keeps what a warm one keeps where there is no room for an image, and counts one that it would
have overwritten (R407, R422). -/
theorem resetDevice_ordered :
    (imageRoom s = false → WarmKept s (resetDevice s 8 0))
      ∧ (imageRoom s = true → s.fw.pmvalid = true → s.fw.pmlost < 255 → (resetDevice s 8 0).fw.pmlost = s.fw.pmlost + 1) := by
  refine ⟨fun hroom => ?_, fun hroom hvalid hlost => ?_⟩
  · rw [resetDevice_imageless hwait 0 (by simp [hroom])]
    exact warmKept_resetNow s _ 0 (by decide)
  · rw [resetDevice_kept hwait 0 rfl hroom hvalid]
    rw [(warmLeaves_resetNow (loseImage s) (causeFw s.fw 8 0) 0 (show 2 < 8 by decide)).pmlost]
    exact if_neg (fun h => absurd hlost (by rw [h]; decide))

/-- A brownout reset keeps nothing (R407). That WALL reads 0 after it is the model's choice (log entry 5). -/
theorem resetDevice_brownout :
    let t := resetDevice s 2 0
    t.fw.first = 2 ∧ t.fw.phase = 1 ∧ t.cores = [] ∧ t.graphs = [] ∧ t.wall = 0
      ∧ (∀ a, a < hostBase → rdByte t.mem a = 0) ∧ t.flog = {} ∧ t.lastFaults = [] := by
  intro t
  have ht : t = resetNow s (causeFw s.fw 2 0) 2 0 := resetDevice_imageless hwait 0 rfl
  rw [ht, causeFw_up hphase]
  refine ⟨rfl, rfl, rfl, rfl, rfl, fun a ha => ?_, rfl, rfl⟩
  exact rdByte_wrZeros_in s.mem ⟨Nat.zero_le a, by simpa [hostBase] using ha⟩

end

/- The training of ports (R342, R343, R424). -/

/-- What training makes of a port. -/
def trainedPort (s : State) (p : Nat) : Port :=
  let k := portOf s p
  if usedPort s p = false then k
  else if Config.farEnd p = peerOf s p ∧ k.lanes ≠ 0 then
    { k with up := true, width := usableLanes k.lanes k.maxw, peer := Config.farEnd p, retrain := false }
  else { k with up := false, width := 0, peer := Config.farEnd p, retrain := false }

/-- Of the fabric, training a port changes that port alone. -/
theorem trainPort_fabric (s : State) (p : Nat) : (trainPort s p).fabric = { s.fabric with
    ports := if usedPort s p = false then s.fabric.ports else amSet s.fabric.ports p (trainedPort s p) } := by
  unfold trainPort trainedPort
  split
  · rfl
  · dsimp only
    split
    · rfl
    · split
      · rfl
      · rw [deviceRec_fabric]
        rfl

/-- Training a port sets neither WALL nor a register of the firmware. -/
theorem trainPort_wall_fw (s : State) (p : Nat) : (trainPort s p).wall = s.wall ∧ (trainPort s p).fw = s.fw := by
  unfold trainPort
  split
  · exact ⟨rfl, rfl⟩
  · dsimp only
    split
    · exact ⟨rfl, rfl⟩
    · split
      · exact ⟨rfl, rfl⟩
      · exact ⟨deviceRec_wall _ _ _ _ _, deviceRec_fw _ _ _ _ _⟩

theorem portOf_trainPort_same (s : State) (p : Nat) : portOf (trainPort s p) p = trainedPort s p := by
  rw [portOf, trainPort_fabric]
  by_cases h : usedPort s p = false
  · simp [h, trainedPort, portOf]
  · simp [h]

theorem portOf_trainPort_other (s : State) {p q : Nat} (h : q ≠ p) : portOf (trainPort s p) q = portOf s q := by
  rw [portOf, trainPort_fabric, portOf]
  dsimp only
  split
  · rfl
  · exact amGet_amSet_other _ _ _ h

theorem trainedPort_trainPort_other (s : State) {p q : Nat} (h : q ≠ p) : trainedPort (trainPort s p) q = trainedPort s q := by
  have hpeer : peerOf (trainPort s p) q = peerOf s q := by simp [peerOf, trainPort_fabric]
  have hused : usedPort (trainPort s p) q = usedPort s q := by simp [usedPort, inGrid, hpeer, trainPort_fabric]
  rw [trainedPort, portOf_trainPort_other s h, hpeer, hused, trainedPort]

/-- Training ports one after another trains each as it was, and leaves every other. -/
theorem portOf_foldl_trainPort {l : List Nat} (hl : l.Nodup) (s : State) (p : Nat) :
    portOf (l.foldl trainPort s) p = if p ∈ l then trainedPort s p else portOf s p := by
  induction l generalizing s with
  | nil => rfl
  | cons q l ih =>
    obtain ⟨hq, hl⟩ := List.nodup_cons.mp hl
    rw [List.foldl_cons, ih hl]
    by_cases hp : p = q
    · subst hp
      rw [if_neg hq, if_pos List.mem_cons_self, portOf_trainPort_same]
    · rw [trainedPort_trainPort_other s hp, portOf_trainPort_other s hp]
      simp [hp]

theorem foldl_trainPort_wall_fw (l : List Nat) (s : State) : (l.foldl trainPort s).wall = s.wall ∧ (l.foldl trainPort s).fw = s.fw := by
  refine List.foldlRecOn (motive := fun t : State => t.wall = s.wall ∧ t.fw = s.fw) l _ ⟨rfl, rfl⟩ (fun t ht p _ => ?_)
  obtain ⟨hwall, hfw⟩ := trainPort_wall_fw t p
  exact ⟨hwall.trans ht.1, hfw.trans ht.2⟩

theorem trainedPort_unused {s : State} {p : Nat} (h : usedPort s p = false) : trainedPort s p = portOf s p := if_pos h

/-- A port that finds the device it should, with a working lane, comes up. -/
theorem trainedPort_found {s : State} {p : Nat} (h : usedPort s p = true) (hpeer : Config.farEnd p = peerOf s p) (hlanes : (portOf s p).lanes ≠ 0) :
    trainedPort s p = { portOf s p with
      up := true, width := usableLanes (portOf s p).lanes (portOf s p).maxw, peer := peerOf s p, retrain := false } := by
  simp [trainedPort, h, hpeer, hlanes]

theorem trainedPort_misled {s : State} {p : Nat} (h : usedPort s p = true) (hpeer : Config.farEnd p ≠ peerOf s p) : (trainedPort s p).up = false := by
  simp [trainedPort, h, hpeer]

/- The phases of bring-up (R424, R425, R426). -/

/-- LOCKTAB names a page, and not page 0 (R420). -/
theorem lockPage_page (p : BitVec 36) : lockPage p ≠ 0 ∧ lockPage p &&& 0xFFF = 0 := by
  have hpage : ∃ n, lockPage p = BitVec.ofNat 64 (4096 * n) ∧ 0 < n ∧ n < 2 ^ 36 := by
    unfold lockPage
    split
    · exact ⟨1, rfl, by decide, by decide⟩
    · rename_i hp
      exact ⟨p.toNat, rfl, Nat.pos_of_ne_zero (fun h => hp (BitVec.eq_of_toNat_eq h)), p.isLt⟩
  obtain ⟨n, hn, hpos, hlt⟩ := hpage
  rw [hn]
  refine ⟨fun h => ?_, BitVec.eq_of_toNat_eq ?_⟩
  · have h0 : 4096 * n % 2 ^ 64 = 0 := congrArg BitVec.toNat h
    omega
  · change 4096 * n % 2 ^ 64 &&& (2 ^ 12 - 1) = 0
    rw [Nat.and_two_pow_sub_one_eq_mod]
    omega

/-- Links are trained where the reset did not keep them (R407). -/
def linksTrained (s : State) : State := if s.fw.train then (List.range 32).foldl trainPort s else s

theorem linksTrained_wall_fw (s : State) : (linksTrained s).wall = s.wall ∧ (linksTrained s).fw = s.fw := by
  unfold linksTrained
  split
  · exact foldl_trainPort_wall_fw _ s
  · exact ⟨rfl, rfl⟩

theorem portOf_linksTrained (s : State) (p : Nat) :
    portOf (linksTrained s) p = if s.fw.train = true ∧ p < 32 then trainedPort s p else portOf s p := by
  unfold linksTrained
  by_cases ht : s.fw.train = true
  · simp [ht, portOf_foldl_trainPort List.nodup_range]
  · simp [ht]

/-- The state at the end of the last phase: links are trained, and WALL is set where the reset cleared it (R424). -/
def broughtUp (s : State) : State :=
  if (linksTrained s).fw.setWall then setBootWall (linksTrained s) (Config.wallAtBoot (linksTrained s).fresh) else linksTrained s

theorem broughtUp_wall {s : State} (h : s.fw.setWall = false) : (broughtUp s).wall = s.wall := by
  simp [broughtUp, h, linksTrained_wall_fw]

theorem portOf_broughtUp (s : State) (p : Nat) :
    portOf (broughtUp s) p = if s.fw.train = true ∧ p < 32 then trainedPort s p else portOf s p := by
  have hports : portOf (broughtUp s) p = portOf (linksTrained s) p := by
    rw [broughtUp]
    split
    · rfl
    · rfl
  rw [hports, portOf_linksTrained]

section
variable {s : State} (hwait : s.fw.waiting = none)
include hwait

theorem exec_bootPhaseAdvance_locksAndUp (hphase : s.fw.phase = 4) :
    ∃ n p, exec .bootPhaseAdvance s = .next { broughtUp s with fresh := n, fw := { (broughtUp s).fw with
      phase := 5, reportWall := (broughtUp s).wall, setWall := false, train := false, locktab := some (lockPage p) } } := by
  refine ⟨(linksTrained s).fresh + 2, Config.lockTab ((linksTrained s).fresh + 1), ?_⟩
  change execBootPhaseAdvance s = _
  simp only [execBootPhaseAdvance, hwait, hphase]
  rfl

/-- An image that does not verify is recorded and leaves the device in recovery mode, with the cause in ALSO (R405, R425). -/
theorem exec_bootPhaseAdvance_unverified (hphase : s.fw.phase = 2) (hbad : Config.imageVerifies s.fw.image = false)
    (hclear : imageRoom s = false ∨ s.fw.pmvalid = true) :
    ∃ t : State, exec .bootPhaseAdvance s = .next t ∧ t.fw.phase = 15 ∧ t.fw.also = s.fw.also ||| 0x20
      ∧ Claims.Recorded s t 0x0901 13 0 [] := by
  have hexec : exec .bootPhaseAdvance s = .next (resetDevice (deviceRec s 0x0901 13 0 []) 6 0x0901) := by
    change execBootPhaseAdvance s = _
    simp [execBootPhaseAdvance, hwait, hphase, hbad]
  obtain ⟨u, hu, -, hfaults⟩ := resetDevice_goes (s := deviceRec s 0x0901 13 0 []) hwait (cause := 6) 0x0901 hclear
  have hleaves := warmLeaves_resetNow u (causeFw s.fw 6 0x0901) 0x0901 (show 2 < 6 by decide)
  refine ⟨_, hexec.trans (congrArg _ hu), hleaves.phase, ?_, ?_⟩
  · refine hleaves.also.trans ?_
    rw [causeFw_during (by omega) (by decide)]
    rfl
  · exact (congrArg List.head? (hleaves.lastFaults.trans hfaults)).trans (recorded_deviceRec s 0x0901 13 0 [])

end

/-- The advance of the boot completes the image that a reset waits for, and the reset follows (R421). -/
theorem exec_bootPhaseAdvance_image {s : State} {cause code : Nat} (hwait : s.fw.waiting = some (cause, code)) (h : 2 < cause) :
    ∃ t : State, exec .bootPhaseAdvance s = .next t ∧ t.fw.waiting = none ∧ t.fw.pmvalid = true
      ∧ t.fw.phase = (if cause = 6 ∧ code = 0x0901 then 15 else 1)
      ∧ t.fw.first = s.fw.first ∧ t.fw.also = s.fw.also ∧ t.fw.rcode = s.fw.rcode ∧ t.cores = [] ∧ t.graphs = [] ∧ t.wall = s.wall := by
  have hexec : exec .bootPhaseAdvance s = .next (finishImage s cause code) := by
    change execBootPhaseAdvance s = _
    rw [execBootPhaseAdvance, hwait]
  have hleaves := warmLeaves_resetNow { s with fw := { s.fw with pmvalid := true, imaging := false, waiting := none } } s.fw code h
  exact ⟨_, hexec, hleaves.waiting, hleaves.pmvalid, hleaves.phase, hleaves.first, hleaves.also, hleaves.rcode, rfl, rfl, hleaves.wall⟩

/-- A command that runs acts (R419). -/
theorem exec_reset_runs {s : State} (h : runs s 0x0030 = true) : exec .reset s = .next (resetDevice s 8 0) := by
  change execReset s = _
  simp [execReset, command, h]

/- The parts of O60. -/

/-- Each reset is one warm or cold reset of the state it is raised in, or waits for its image (R406, R407, R421, R422). That WALL is 0
after a brownout, and the ENGINE of a bare code, are the model's choices (log entries 5 and 92). -/
theorem resets : Claims.Resets := by
  unfold Claims.Resets
  intro s hphase hwait warm keeps clear waits
  refine ⟨?hot, ?flr, ?watchdog, ?check, ?trip, ?ordered, ?brownout⟩
  case hot => exact ⟨_, rfl, resetDevice_cxl hphase hwait (by decide) rfl⟩
  case flr => exact ⟨_, rfl, resetDevice_cxl hphase hwait (by decide) rfl⟩
  case watchdog =>
    intro hlate
    have hexec : exec .watchdog s = .next (resetDevice (deviceRec s 0x0903 13 0 []) 5 0) :=
      congrArg Host.Outcome.next (if_pos ⟨hphase, hlate⟩)
    exact ⟨_, hexec, resetDevice_recorded hphase hwait _ _ _ rfl (by decide)⟩
  case check => exact ⟨_, rfl, resetDevice_recorded hphase hwait 0x0803 8 0 rfl (by decide)⟩
  case trip =>
    intro n hn hhot
    have hexec : exec (.thermalTrip n) s = .next (resetDevice (deviceRec s 0x0703 12 n []) 7 0) := by
      change execThermalTrip n s = _
      rw [execThermalTrip, if_neg (by omega), if_pos hhot]
    exact ⟨_, hexec, resetDevice_recorded hphase hwait _ _ _ rfl (by decide)⟩
  case ordered =>
    intro hruns
    obtain ⟨hwarm, hwaits, -⟩ := resetDevice_imaged hphase hwait (cause := 8) (code := 0) rfl (by decide)
    exact ⟨_, exec_reset_runs hruns, hwarm, hwaits, resetDevice_ordered hwait⟩
  case brownout =>
    intro hlow
    have hexec : exec .brownoutReset s = .next (resetDevice s 2 0) := congrArg Host.Outcome.next (if_pos hlow)
    exact ⟨_, hexec, resetDevice_brownout hphase hwait⟩

/-- Each phase of bring-up is one step (R424, R425, R426), and the advance of the boot completes an image that a reset waits for, which is
the model's schedule (log entry 74). -/
theorem bringUp : Claims.BringUp := by
  unfold Claims.BringUp
  intro s
  refine ⟨fun hwait => ⟨?one, ?two, ?unverified, ?three, ?four⟩, ?image, ?report⟩
  case one =>
    intro hphase
    change execBootPhaseAdvance s = _
    simp [execBootPhaseAdvance, hwait, hphase]
  case two =>
    intro hphase hgood
    change execBootPhaseAdvance s = _
    simp [execBootPhaseAdvance, hwait, hphase, hgood]
  case unverified => exact exec_bootPhaseAdvance_unverified hwait
  case three =>
    intro hphase
    change execBootPhaseAdvance s = _
    simp [execBootPhaseAdvance, hwait, hphase]
  case four =>
    intro hphase
    obtain ⟨n, p, hexec⟩ := exec_bootPhaseAdvance_locksAndUp hwait hphase
    obtain ⟨hne, hpage⟩ := lockPage_page p
    have hport := portOf_broughtUp s
    refine ⟨_, _, hexec, rfl, rfl, hne, hpage, broughtUp_wall, rfl, rfl, rfl, fun ht q => ?_, fun ht => ⟨?_, ?_, ?_⟩⟩
    · exact (hport q).trans (if_neg (by simp [ht]))
    · intro q hq hused hpeer hlanes
      have h : portOf (broughtUp s) q = _ := (hport q).trans ((if_pos ⟨ht, hq⟩).trans (trainedPort_found hused hpeer hlanes))
      exact ⟨congrArg Port.up h, congrArg Port.width h, congrArg Port.peer h⟩
    · intro q hq hused hpeer
      exact (congrArg Port.up ((hport q).trans (if_pos ⟨ht, hq⟩))).trans (trainedPort_misled hused hpeer)
    · intro q hq hused
      exact (hport q).trans ((if_pos ⟨ht, hq⟩).trans (trainedPort_unused hused))
  case image =>
    intro cause code hwait hlo hhi
    refine ⟨exec_bootPhaseAdvance_image hwait (by omega), fun hruns => (exec_reset_runs hruns).trans ?_⟩
    simp [resetDevice, hwait, hasImage]
  case report =>
    intro hphase
    exact congrArg Host.Outcome.next (if_pos hphase)

end Sys2Proof.Machine

section

open Sys2Proof.Machine

/-- Settles O60: what a warm reset clears reads 0 and what it keeps is untouched; training one port after another trains each as it was. -/
theorem resetsAndBringUp : Obligations.ResetsAndBringUp := ⟨resets, bringUp⟩

end
end

section
/-! Gear stops and the Substation (R57 to R62, R126, R127): the rules for maps of units that are changed unit by unit; what a gear stop
does to a pair and its cores; then a tick's reports, the records, and the steps of the thermal and slack requests. -/

namespace Sys2Proof.Machine

/- Maps changed unit by unit. -/

/-- A change of every listed unit that leaves the unlisted one as it is changes each unit. -/
theorem amGet_map {α : Type} (d : α) (f : Nat → α → α) (m : AMap α) {n : Nat} (hd : f n d = d) :
    amGet d (m.map (fun e => (e.1, f e.1 e.2))) n = f n (amGet d m n) := by
  induction m with
  | nil => exact hd.symm
  | cons e m ih =>
    simp only [List.map_cons, amGet]
    split
    · rename_i h
      rw [h]
    · exact ih

section
variable (f : Nat → Pair → Pair)

/-- Pairs changed one after another: nothing but the pairs changes. -/
theorem foldl_setPair_eq (l : List Nat) (s : State) :
    ∃ ps, l.foldl (fun t p => setPair t p (f p (pairOf t p))) s = { s with pairs := ps } := by
  refine List.foldlRecOn (motive := fun t : State => ∃ ps, t = { s with pairs := ps }) l _ ⟨s.pairs, rfl⟩ ?_
  rintro _ ⟨ps, rfl⟩ p _
  exact ⟨_, rfl⟩

/-- Pairs changed one after another are each changed as they were. -/
theorem pairOf_foldl_setPair {l : List Nat} (hl : l.Nodup) (s : State) (p : Nat) :
    pairOf (l.foldl (fun t p => setPair t p (f p (pairOf t p))) s) p = if p ∈ l then f p (pairOf s p) else pairOf s p := by
  induction l generalizing s with
  | nil => rfl
  | cons q l ih =>
    obtain ⟨hq, hl⟩ := List.nodup_cons.mp hl
    rw [List.foldl_cons, ih hl]
    by_cases hp : p = q
    · subst hp
      rw [if_neg hq, if_pos List.mem_cons_self, pairOf_setPair_same]
    · rw [pairOf_setPair_other s _ hp]
      simp [hp]

end

/- Gear stops (R126). -/

/-- A core of a pair whose gear stop begins: the streams of an activation note it (R141). -/
def gearCore (p c : Nat) (k : Core) : Core :=
  if pairNo c = p ∧ k.act.isSome then { k with ex := { k.ex with gear := true }, pi := { k.pi with gear := true } } else k

/-- The pair stops, and the windows of its two clusters note it. -/
def pairStopped (s : State) (p : Nat) : State :=
  let t := setPair s p { pairOf s p with stopped := true, stopWall := s.wall, lastStop := some s.wall, stopLong := false }
  [2 * p, 2 * p + 1].foldl (fun t n => setCluster t n { clusterOf t n with winGear := true }) t

theorem exec_gearStopStart {s : State} {p : Nat} (hp : p < 64) (h : mayStop s p = true) :
    exec (.gearStopStart p) s
      = .next { pairStopped s p with cores := s.cores.map (fun e => (e.1, gearCore p e.1 e.2)) } := by
  have hmap : (fun e : Nat × Core => if pairNo e.1 = p ∧ e.2.act.isSome then
      (e.1, { e.2 with ex := { e.2.ex with gear := true }, pi := { e.2.pi with gear := true } }) else e)
      = fun e => (e.1, gearCore p e.1 e.2) := by
    funext e
    unfold gearCore
    split
    · rfl
    · rfl
  change execGearStopStart p s = _
  rw [execGearStopStart, if_neg (by omega), if_pos h, ← hmap]
  rfl

/-- What becomes of a cluster's window leaves its count of cyc. -/
theorem cyc_setCluster_winGear (s : State) (n j : Nat) :
    (clusterOf (setCluster s n { clusterOf s n with winGear := true }) j).cyc = (clusterOf s j).cyc := by
  by_cases h : j = n
  · subst h
    rw [clusterOf_setCluster_same]
  · rw [clusterOf_setCluster_other s _ h]

theorem cycOf_pairStopped (s : State) (p c : Nat) : cycOf (pairStopped s p) c = cycOf s c :=
  (cyc_setCluster_winGear _ (2 * p + 1) _).trans (cyc_setCluster_winGear _ (2 * p) _)

theorem raiseGear_long {s : State} {p : Nat} (hstop : (pairOf s p).stopped = true) (hnew : (pairOf s p).stopLong = false)
    (hlate : 2000 < s.wall - (pairOf s p).stopWall) :
    raiseGear s p = setPair (deviceRec s 0x0704 12 p []) p { pairOf s p with stopLong := true } := if_pos ⟨hstop, hnew, hlate⟩

theorem raiseGear_none {s : State} {p : Nat} (h : (pairOf s p).stopLong = true ∨ s.wall - (pairOf s p).stopWall ≤ 2000) : raiseGear s p = s := by
  refine if_neg ?_
  rintro ⟨-, hnew, hlate⟩
  rcases h with h | h
  · rw [h] at hnew
    cases hnew
  · omega

/-- A gear stop that is looked at is recorded or not: no other pair and no core changes, and it is not ended by that. -/
theorem raiseGear_frame (s : State) (p : Nat) :
    (∀ q, q ≠ p → pairOf (raiseGear s p) q = pairOf s q) ∧ (raiseGear s p).cores = s.cores := by
  unfold raiseGear
  dsimp only
  split
  · exact ⟨fun q hq => pairOf_setPair_other _ _ hq, putRec_cores _ _⟩
  · exact ⟨fun _ _ => rfl, rfl⟩

/-- The stop has passed 2 µs: it is recorded, once. -/
theorem raiseGear_records {s : State} {p : Nat} (hstop : (pairOf s p).stopped = true) (hnew : (pairOf s p).stopLong = false)
    (hlate : 2000 < s.wall - (pairOf s p).stopWall) :
    Claims.Recorded s (raiseGear s p) 0x0704 12 p [] ∧ pairOf (raiseGear s p) p = { pairOf s p with stopLong := true } := by
  rw [raiseGear_long hstop hnew hlate]
  exact ⟨recorded_deviceRec s 0x0704 12 p [], pairOf_setPair_same _ _ _⟩

theorem exec_gearStopEnd {s : State} {p : Nat} (hp : p < 64) (h : (pairOf s p).stopped = true) :
    exec (.gearStopEnd p) s = .next (setPair (raiseGear s p) p { pairOf (raiseGear s p) p with stopped := false }) := by
  change execGearStopEnd p s = _
  rw [execGearStopEnd, if_neg (by omega), if_pos h]

/-- Each step of a gear stop changes its pair, its cores or its record and no other unit (R126). -/
theorem gearStops : Claims.GearStops := by
  unfold Claims.GearStops
  intro s p hp
  refine ⟨?start, ?busy, ?ends, ?long⟩
  case start =>
    intro hmay
    have hcore : ∀ c, coreOf { pairStopped s p with cores := s.cores.map (fun e => (e.1, gearCore p e.1 e.2)) } c
        = gearCore p c (coreOf s c) :=
      fun c => amGet_map ({} : Core) (gearCore p) s.cores (n := c) (if_neg (by simp))
    have hpair : pairOf (pairStopped s p) p = { pairOf s p with
        stopped := true, stopWall := s.wall, lastStop := some s.wall, stopLong := false } := pairOf_setPair_same _ _ _
    refine ⟨_, exec_gearStopStart hp hmay, congrArg Pair.stopped hpair, congrArg Pair.stopWall hpair, congrArg Pair.lastStop hpair,
      fun q hq => pairOf_setPair_other s _ hq, rfl, rfl, ?_, ?_, ?_⟩
    · rintro c rfl
      exact ⟨congrArg Pair.stopped hpair, cycOf_pairStopped s (c / 16) c⟩
    · intro c hc hact
      rw [hcore, gearCore, if_pos ⟨hc, hact⟩]
      exact ⟨rfl, rfl⟩
    · intro c hc
      rw [hcore, gearCore, if_neg (fun h => hc h.1)]
  case busy =>
    intro hmay
    change execGearStopStart p s = _
    rw [execGearStopStart, if_neg (by omega), if_neg (by simp [hmay])]
  case ends =>
    intro hstop
    obtain ⟨hothers, hcores⟩ := raiseGear_frame s p
    refine ⟨_, exec_gearStopEnd hp hstop, by rw [pairOf_setPair_same], fun q hq => (pairOf_setPair_other _ _ hq).trans (hothers q hq),
      hcores, ?_, ?_⟩
    · intro hnew hlate
      obtain ⟨hrec, hpair⟩ := raiseGear_records hstop hnew hlate
      exact ⟨hrec, by rw [pairOf_setPair_same, hpair]⟩
    · intro h
      rw [raiseGear_none h]
      rfl
  case long =>
    intro hstop hnew hlate
    have hexec : exec (.gearStop p) s = .next (raiseGear s p) := by
      change execGearStop p s = _
      rw [execGearStop, if_neg (by omega)]
    obtain ⟨hrec, hpair⟩ := raiseGear_records hstop hnew hlate
    exact ⟨_, hexec, hrec, by rw [hpair], by rw [hpair]; exact hstop, (raiseGear_frame s p).2⟩

/- The rail (R4, R59, R127). -/

/-- The rail alone follows the setpoint, which does not hang on it. -/
theorem followSetpoint_eq (s : State) : followSetpoint s = { s with power := { s.power with
    railMV := if inBand s.power.railMV then railFor (setpoint s.power) else s.power.railMV } } := by
  by_cases h : inBand s.power.railMV = true
  · simp [followSetpoint, updPower, h]
  · simp [followSetpoint, updPower, h]

/-- A supply that has been out of its band for more than 1 µs is recorded, once (R127). -/
theorem raiseSupply_late {s : State} {w : Nat} (hout : s.power.outSince = some w) (hnew : s.power.outRaised = false) (hlate : 1000 < s.wall - w) :
    raiseSupply s = updPower (deviceRec s 0x0701 12 0 []) (fun p => { p with outRaised := true }) := by
  rw [raiseSupply, hout]
  exact if_pos ⟨hnew, hlate⟩

theorem raiseSupply_frame (s : State) :
    (raiseSupply s).cores = s.cores ∧ (raiseSupply s).pairs = s.pairs ∧ (raiseSupply s).power.fwmax = s.power.fwmax := by
  unfold raiseSupply
  split
  · split
    · exact ⟨putRec_cores _ _, rfl, rfl⟩
    · exact ⟨rfl, rfl, rfl⟩
  · exact ⟨rfl, rfl, rfl⟩

/- The tick (R57 to R59). -/

/-- Nothing has changed of the cores, the pairs and the supply. -/
def SameSupply (s t : State) : Prop := t.cores = s.cores ∧ t.pairs = s.pairs ∧ t.power = s.power

theorem SameSupply.trans {s t u : State} (h : SameSupply s t) (h' : SameSupply t u) : SameSupply s u := by
  obtain ⟨hcores, hpairs, hpower⟩ := h
  obtain ⟨hcores', hpairs', hpower'⟩ := h'
  exact ⟨hcores'.trans hcores, hpairs'.trans hpairs, hpower'.trans hpower⟩

theorem SameSupply.foldl {α : Type} {f : State → α → State} (hf : ∀ t a, SameSupply t (f t a)) (l : List α) (s : State) :
    SameSupply s (l.foldl f s) :=
  List.foldlRecOn (motive := SameSupply s) l f ⟨rfl, rfl, rfl⟩ (fun t ht a _ => ht.trans (hf t a))

theorem sampleDevGauge_sameSupply (s : State) (i v : Nat) : SameSupply s (sampleDevGauge s i v) := by
  unfold sampleDevGauge
  dsimp only
  split
  · exact ⟨putRec_cores _ _, rfl, rfl⟩
  · exact ⟨rfl, rfl, rfl⟩

theorem sampleTimed_sameSupply (s : State) (src unit n v : Nat) : SameSupply s (sampleTimed s src unit n v) := by
  refine SameSupply.foldl (fun t p => ?_) s.dgauges s
  split
  · exact sampleDevGauge_sameSupply t p.1 v
  · exact ⟨rfl, rfl, rfl⟩

/-- The gauges of the supply change nothing of it (R416). -/
theorem sampleSupply_sameSupply (s : State) : SameSupply s (sampleSupply s) := by
  have hpairs : ∀ (t : State) (p : Nat), SameSupply t (sampleTimed (sampleTimed (sampleTimed t 8 p 1000 (pairOf t p).upMA) 8 (p + 64) 1000
      (pairOf t p).loMA) 9 (p + 64) 1000 (Config.freeNat (s.fresh + p))) := fun t p =>
    ((sampleTimed_sameSupply t _ _ _ _).trans (sampleTimed_sameSupply _ _ _ _ _)).trans (sampleTimed_sameSupply _ _ _ _ _)
  have hrail : ∀ (t : State) (p : Nat), SameSupply t (sampleTimed t 9 p 1000 t.power.railMV) := fun t p => sampleTimed_sameSupply t _ _ _ _
  unfold sampleSupply
  generalize List.range 64 = l
  exact (SameSupply.foldl hpairs l s).trans (SameSupply.foldl hrail l _)

/-- A pair after its report of a tick, or of the currents that it last reported (R57, R58). -/
def reportPair (s : State) (currents : List (Nat × Nat × Nat)) (p : Nat) (k : Pair) : Pair :=
  let r := (amFind currents p).getD (k.upMA, k.loMA)
  pairTick s.wall (Config.grant s.fresh p) r.1 r.2 k

/-- The pairs after the reports of a tick. -/
def pairsReported (s : State) (currents : List (Nat × Nat × Nat)) (mv : Nat) : State :=
  (List.range 64).foldl (fun t p => setPair t p (reportPair s currents p (pairOf t p))) (noteRail s mv)

theorem pairsReported_frame (s : State) (currents : List (Nat × Nat × Nat)) (mv : Nat) :
    (pairsReported s currents mv).cores = s.cores ∧ (pairsReported s currents mv).power.fwmax = s.power.fwmax := by
  obtain ⟨hcores, -, hfwmax⟩ := raiseSupply_frame s
  obtain ⟨ps, hps⟩ := foldl_setPair_eq (reportPair s currents) (List.range 64) (noteRail s mv)
  rw [pairsReported, hps]
  exact ⟨hcores, hfwmax⟩

theorem pairOf_pairsReported (s : State) (currents : List (Nat × Nat × Nat)) (mv : Nat) {p : Nat} (hp : p < 64) :
    pairOf (pairsReported s currents mv) p = reportPair s currents p (pairOf s p) := by
  obtain ⟨-, hpairs, -⟩ := raiseSupply_frame s
  have hpair : pairOf (noteRail s mv) p = pairOf s p := congrArg (fun ps => amGet ({} : Pair) ps p) hpairs
  rw [pairsReported, pairOf_foldl_setPair _ List.nodup_range, if_pos (List.mem_range.mpr hp), hpair]

/-- The budget of a tick: the firmware maximum where no core runs, and no more than that elsewhere (R59). -/
def tickBudget (s : State) (draw : Nat) : Nat := if s.cores.all (fun e => e.2.act.isNone) then s.power.fwmax else min s.power.fwmax draw

theorem tickBudget_le (s : State) (draw : Nat) : tickBudget s draw ≤ s.power.fwmax := by
  unfold tickBudget
  split
  · exact Nat.le_refl _
  · exact Nat.min_le_left _ _

/-- A budget is set, and the rail follows where it is a new one (R59). -/
def setBudget (s : State) (last budget wall : Nat) : State :=
  let t := updPower s (fun p => { p with budget := budget, tickWall := some wall })
  if budget = last then t else followSetpoint t

theorem setBudget_frame (s : State) (last budget wall : Nat) :
    let t := setBudget s last budget wall
    t.cores = s.cores ∧ t.pairs = s.pairs ∧ t.power.budget = budget ∧ t.power.tickWall = some wall := by
  intro t
  simp only [t, setBudget]
  split
  · exact ⟨rfl, rfl, rfl, rfl⟩
  · rw [followSetpoint_eq]
    exact ⟨rfl, rfl, rfl, rfl⟩

/-- A tick with the rail in reach: each of the 64 pairs takes its report, the budget keeps within the firmware maximum, and no core
changes (R57 to R59). -/
theorem exec_substationTick {s : State} (currents : List (Nat × Nat × Nat)) {mv : Nat} (htick : passed s.power.tickWall s.wall 1000 = true)
    (hmv : 1100 ≤ mv) :
    ∃ t : State, exec (.substationTick currents mv) s = .next t ∧ t.power.tickWall = some s.wall ∧ t.power.budget ≤ s.power.fwmax
      ∧ t.cores = s.cores ∧ ∀ p, p < 64 → pairOf t p = reportPair s currents p (pairOf s p) := by
  have hexec : exec (.substationTick currents mv) s = .next (sampleSupply { setBudget (pairsReported s currents mv) s.power.budget
      (tickBudget (pairsReported s currents mv) (Config.budget s.fresh)) s.wall with fresh := s.fresh + 1 }) := by
    change execSubstationTick currents mv s = _
    rw [execSubstationTick, if_pos htick, if_neg (by omega)]
    rfl
  have hreport : ∀ p, p < 64 → pairOf (pairsReported s currents mv) p = _ := fun p hp => pairOf_pairsReported s currents mv hp
  obtain ⟨hcores, hfwmax⟩ := pairsReported_frame s currents mv
  generalize pairsReported s currents mv = u at *
  obtain ⟨hucores, hupairs, hubudget, hutick⟩ := setBudget_frame u s.power.budget (tickBudget u (Config.budget s.fresh)) s.wall
  obtain ⟨htcores, htpairs, htpower⟩ := sampleSupply_sameSupply
    { setBudget u s.power.budget (tickBudget u (Config.budget s.fresh)) s.wall with fresh := s.fresh + 1 }
  refine ⟨_, hexec, (congrArg Power.tickWall htpower).trans hutick, ?_, htcores.trans (hucores.trans hcores), fun p hp => ?_⟩
  · rw [htpower, ← hfwmax]
    exact hubudget.trans_le (tickBudget_le u _)
  · exact (congrArg (fun ps => amGet ({} : Pair) ps p) (htpairs.trans hupairs)).trans (hreport p hp)

/-- What a pair reports of its two layers is taken, and the measures follow the imbalance step by step (R57). -/
theorem reportPair_reported (s : State) {currents : List (Nat × Nat × Nat)} {p : Nat} {r : Nat × Nat} (k : Pair) (h : amFind currents p = some r) :
    let x := reportPair s currents p k
    x.upMA = r.1 ∧ x.loMA = r.2
      ∧ x.measure = (if 10 * (max r.1 r.2 - min r.1 r.2) > max r.1 r.2 then min 4 (k.measure + 1) else 0)
      ∧ (x.measure < 2 → x.shuntMA = 0) ∧ (2 ≤ x.measure → x.shuntMA = min 1200 (max r.1 r.2 - min r.1 r.2)) := by
  intro x
  have hx : x = pairTick s.wall (Config.grant s.fresh p) r.1 r.2 k := by simp only [x, reportPair, h, Option.getD_some]
  rw [hx]
  exact ⟨rfl, rfl, by simp [pairTick, imbalanced], fun hm => if_neg (Nat.not_le.mpr hm), fun hm => if_pos hm⟩

/- The thermal request (R61). -/

/-- TMIG in tenths of a degree: a cluster above it is too hot (R60, R61). -/
def tooHot (s : State) : Int := (10 * s.fw.tmig : Nat)

/-- The hottest cluster has called for cooling, and has not come down since. -/
def coolingNext (s : State) : Bool :=
  (s.power.cooling || (decide (tooHot s < hottestOf s) && !anyMigrates s))
    && decide (tooHot s - 20 < hottestOf s)

/-- The thermal request after its step. -/
def thermalNext (s : State) : Nat :=
  if coolingNext s then max 600 (s.power.thermal - clockPart s 1500)
  else if hottestOf s ≤ tooHot s - 20 ∧ s.power.thermal < s.power.fwmax then
    min s.power.fwmax (s.power.thermal + clockPart s 1500)
  else s.power.thermal

theorem exec_thermalRequestStep {s : State} (h : passed s.power.thermWall s.wall 100000 = true) :
    exec .thermalRequestStep s = .next (followSetpoint (updPower s (fun p =>
      { p with cooling := coolingNext s, thermWall := some s.wall, thermal := thermalNext s }))) := congrArg Host.Outcome.next (if_pos h)

theorem thermalNext_cooling {s : State} (h : coolingNext s = true) : thermalNext s = max 600 (s.power.thermal - clockPart s 1500) := if_pos h

/-- The request starts to fall where the hottest cluster is too hot and no berth can leave it, and goes on falling until the cluster has
come down by 2 degrees. -/
theorem coolingNext_hot {s : State} (hot : tooHot s < hottestOf s) (hmove : anyMigrates s = false) : coolingNext s = true := by
  simp only [coolingNext, hot, hmove, decide_true, Bool.not_false, Bool.and_true, Bool.or_true, Bool.true_and, decide_eq_true_eq]
  omega

theorem coolingNext_stays {s : State} (hot : tooHot s - 20 < hottestOf s) (h : s.power.cooling = true) : coolingNext s = true := by
  simp only [coolingNext, h, Bool.true_or, Bool.true_and, decide_eq_true_eq]
  exact hot

theorem coolingNext_cool {s : State} (hcool : hottestOf s ≤ tooHot s - 20) : coolingNext s = false := by
  simp only [coolingNext, Bool.and_eq_false_iff, decide_eq_false_iff_not]
  exact .inr (by omega)

theorem thermalNext_rises {s : State} (hcool : hottestOf s ≤ tooHot s - 20) (h : s.power.thermal < s.power.fwmax) :
    thermalNext s = min s.power.fwmax (s.power.thermal + clockPart s 1500) := by
  rw [thermalNext, coolingNext_cool hcool, if_neg Bool.false_ne_true, if_pos ⟨hcool, h⟩]

theorem thermalNext_full {s : State} (hcool : hottestOf s ≤ tooHot s - 20) (h : s.power.fwmax ≤ s.power.thermal) :
    thermalNext s = s.power.thermal := by
  rw [thermalNext, coolingNext_cool hcool, if_neg Bool.false_ne_true, if_neg (by omega)]

/- The slack request (R62). -/

/-- The slack request after a reading that lies e above its target. -/
def slackNext (s : State) (e : Int) : Nat :=
  if collLive s = false then s.power.fwmax
  else if 50 < e then s.power.slack - clockPart s 750
  else if e < -50 then (if s.power.slack < s.power.fwmax then min s.power.fwmax (s.power.slack + clockPart s 750) else s.power.slack)
  else s.power.slack

theorem exec_slackReading {s : State} {tenths : Int} (hpassed : passed s.power.slackWall s.wall 1000000 = true) (ht : tenths = slackTenths s) :
    exec (.slackReading tenths) s = .next (followSetpoint (updPower s (fun p =>
      { p with slackWall := some s.wall, slack := slackNext s (tenths - ((10 * s.fw.s0 : Nat) : Int)) }))) :=
  congrArg Host.Outcome.next (if_pos ⟨hpassed, ht⟩)

/-- The Substation's steps: a tick, its records, and the two requests that the rail follows. Where the thermal request stops, that neither
request rises above the firmware maximum, and that the rail follows at once are the model's choices (log entries 4, 15, 16 and 29). -/
theorem powerSteps : Claims.PowerSteps := by
  unfold Claims.PowerSteps
  intro s
  refine ⟨?tick, ?early, ?imbalance, ?supply, ?thermal, ?slack⟩
  case tick =>
    intro currents mv htick hmv
    obtain ⟨t, hexec, hwall, hbudget, hcores, hpairs⟩ := exec_substationTick currents htick hmv
    refine ⟨t, hexec, hwall, hbudget, hcores, fun p r hp hr => ?_⟩
    rw [hpairs p hp]
    exact reportPair_reported s (pairOf s p) hr
  case early =>
    intro currents mv hearly
    exact congrArg Host.Outcome.next (if_neg (by simp [hearly]))
  case imbalance =>
    intro p w hp hsince hbind hlate
    have hexec : exec (.layerImbalance p) s = .next (setPair (deviceRec s 0x0702 12 p []) p { pairOf s p with noBind := true }) := by
      change execLayerImbalance p s = _
      simp only [execLayerImbalance, if_neg (show ¬64 ≤ p by omega), hsince, if_pos (And.intro hbind hlate)]
    exact ⟨_, hexec, recorded_deviceRec s 0x0702 12 p [], by rw [pairOf_setPair_same], putRec_cores _ _⟩
  case supply =>
    intro w hout hnew hlate
    have hexec : exec .supplyOutOfBand s = _ := congrArg Host.Outcome.next (raiseSupply_late hout hnew hlate)
    exact ⟨_, hexec, recorded_deviceRec s 0x0701 12 0 [], rfl, putRec_cores _ _⟩
  case thermal =>
    intro hpassed hot top
    refine ⟨_, exec_thermalRequestStep hpassed, ?_⟩
    rw [followSetpoint_eq]
    exact ⟨rfl, rfl, fun h hmove => thermalNext_cooling (coolingNext_hot h hmove), thermalNext_rises, thermalNext_full,
      fun h hcool => thermalNext_cooling (coolingNext_stays h hcool), rfl, rfl⟩
  case slack =>
    intro tenths hpassed ht e
    refine ⟨_, exec_slackReading hpassed ht, ?_⟩
    rw [followSetpoint_eq]
    refine ⟨rfl, rfl, fun hcoll => if_pos hcoll, fun hcoll he => ?_, fun hcoll he hlow => ?_, fun hcoll hlo hhi => ?_, rfl, rfl⟩
    · change slackNext s e = _
      simp [slackNext, hcoll, he]
    · change slackNext s e = _
      simp [slackNext, hcoll, he, hlow, show ¬50 < e by omega]
    · change slackNext s e = _
      simp [slackNext, hcoll, show ¬50 < e by omega, show ¬e < -50 by omega]

end Sys2Proof.Machine

section

open Sys2Proof.Machine

/-- Settles O53: a gear stop changes its own pair and cores alone, a tick changes the pairs one after another, and a request is one step
of `thermalNext` or `slackNext`, which the rail follows. -/
theorem powerAndGears : Obligations.PowerAndGears := ⟨gearStops, powerSteps⟩

end
end

section
/-! Priorities, pre-emption, migration and what is held for a moved task (R46 to R48, R55, R60, R397 to R400): a rule for each step of
them. -/

namespace Sys2Proof.Machine

/- Priorities (R46, R47). -/

theorem updAt_getElem? {α : Type} (l : List α) (i : Nat) (f : α → α) : (updAt l i f)[i]? = l[i]?.map f := by
  unfold updAt
  split
  case h_1 x hx =>
    obtain ⟨hlt, -⟩ := List.getElem?_eq_some_iff.mp hx
    rw [List.getElem?_set_self hlt, hx, Option.map_some]
  case h_2 hx => rw [hx, Option.map_none]

/-- A waiting task that is due rises by one step (R46). -/
theorem exec_priorityAging {s : State} {gid task : Nat} {g : Graph} {t : Task} (hg : findGraph s gid = some g) (ht : g.tasks[task]? = some t)
    (hst : t.st = .eligible ∨ t.st = .saved) (hprio : t.prio ≠ 0) (hdue : (t.aged + 1) * 1000000 ≤ s.wall - t.since) :
    exec (.priorityAging gid task) s
      = .next (updGraph s gid (fun g => setTask g task (fun u => { u with prio := u.prio - 1, aged := u.aged + 1 }))) := by
  change execPriorityAging gid task s = _
  simp only [execPriorityAging, hg, Option.bind_some, ht]
  rw [if_pos ⟨hst, hprio, hdue⟩]

/-- A task of a graph that is changed is found changed. -/
theorem task_updGraph_setTask {s : State} {gid task : Nat} {g : Graph} {t : Task} (f : Task → Task) (hg : findGraph s gid = some g)
    (ht : g.tasks[task]? = some t) : (graphOf (updGraph s gid (fun g => setTask g task f)) gid).tasks[task]? = some (f t) := by
  rw [graphOf, findGraph_updGraph_same _ _ (by exact fun _ => rfl), hg]
  exact (updAt_getElem? _ _ _).trans (by rw [ht]; rfl)

/-- A berth whose oldest message has waited long enough rises by one step (R47). -/
theorem exec_berthPriorityRaise {s : State} {c : Nat} {b : BitVec 2} {m : Nat} (hc : c < 1024) (hm : oldestMsg (berthAt (coreOf s c) b) = some m)
    (hstate : (berthAt (coreOf s c) b).state ≠ .free) (hprio : (berthAt (coreOf s c) b).prio ≠ 0)
    (hdue : ((berthAt (coreOf s c) b).raised + 1) * 1000000
      ≤ s.wall - max ((berthAt (coreOf s c) b).actWall.getD (berthAt (coreOf s c) b).bindWall) m) :
    exec (.berthPriorityRaise c b) s = .next (updBerth s c b (fun x => { x with prio := x.prio - 1, raised := x.raised + 1 })) := by
  change execBerthPriorityRaise c b s = _
  simp only [execBerthPriorityRaise, if_neg (show ¬1024 ≤ c by omega), hm]
  rw [if_pos ⟨hstate, hprio, hdue⟩]

/- Pre-emption and migration (R48, R60). -/

/-- A choice among a list that keeps one of two each time answers one of them, where there is any. -/
theorem foldl_choice_mem {α : Type} {f : Option α → α → Option α} (hnone : ∀ x, f none x = some x)
    (hsome : ∀ y x, f (some y) x = some x ∨ f (some y) x = some y) {l : List α} (h : l ≠ []) : ∃ v ∈ l, l.foldl f none = some v := by
  have chosen : ∀ (l : List α) (y : α), ∃ v ∈ y :: l, l.foldl f (some y) = some v := by
    intro l
    induction l with
    | nil => exact fun y => ⟨y, List.mem_cons_self, rfl⟩
    | cons x l ih =>
      intro y
      rw [List.foldl_cons]
      rcases hsome y x with hx | hy
      · obtain ⟨v, hv, hfold⟩ := ih x
        exact ⟨v, List.mem_cons_of_mem _ hv, by rw [hx, hfold]⟩
      · obtain ⟨v, hv, hfold⟩ := ih y
        exact ⟨v, List.mem_cons.mpr ((List.mem_cons.mp hv).imp_right (List.mem_cons_of_mem _)), by rw [hy, hfold]⟩
  cases l with
  | nil => exact absurd rfl h
  | cons x l =>
    rw [List.foldl_cons, hnone]
    exact chosen l x

/-- A task that waits and has no room marks a berth of lower priority to stop (R48). -/
theorem exec_preempt {s : State} {gid task : Nat} {g : Graph} {t : Task} (hg : findGraph s gid = some g) (ht : g.tasks[task]? = some t)
    (hwaits : taskWaits g task t = true) (hroom : placeTask s g t = none) (hvictims : victims s t.prio.toNat ≠ []) :
    ∃ v ∈ victims s t.prio.toNat, exec (.preempt gid task) s = .next (updBerth s v.1 v.2 (fun k => { k with stopFor := some .preempt })) := by
  change ∃ v ∈ _, execPreempt gid task s = _
  simp only [execPreempt, hg, ht, hwaits, hroom, Bool.true_eq_false, Option.isSome_none, Bool.false_eq_true, or_self, if_false]
  generalize hbest : List.foldl _ none (victims s t.prio.toNat) = best
  have hchoice : ∃ v ∈ victims s t.prio.toNat, best = some v := by
    rw [← hbest]
    refine foldl_choice_mem (fun _ => rfl) (fun y x => ?_) hvictims
    dsimp only
    split
    · exact .inl rfl
    · exact .inr rfl
  obtain ⟨v, hv, rfl⟩ := hchoice
  exact ⟨v, hv, rfl⟩

/-- The only berth of its quadrant that is due for a move, where none was moved before, is marked (R60). -/
theorem exec_migrate_alone {s : State} {c : Nat} {b : BitVec 2} {d : Nat} (hc : c < 1024) (hdue : migrates s c b = true)
    (hto : migrateTo s c (berthAt (coreOf s c) b) = some d) (hlast : amFind s.quadMove (quadNo c) = none)
    (halone : (s.cores.flatMap (fun e => allBerthNos.map (fun x => (e.1, x)))).filter
      (fun x => quadNo x.1 == quadNo c && migrates s x.1 x.2) = [(c, b)]) :
    exec (.migrate c b) s = .next { updBerth s c b (fun x => { x with stopFor := some (.migrate d) }) with
      quadMove := amSet s.quadMove (quadNo c) s.wall } := by
  change execMigrate c b s = _
  simp [execMigrate, show ¬1024 ≤ c by omega, hlast, halone, hdue, hto]

/- Context saves (R397 to R400). -/

/-- A berth that was pre-empted and is at rest is saved, or lives on where no slot can be had (R397, R398). -/
theorem exec_contextSave_preempt {s : State} {c : Nat} {b : BitVec 2} (hc : c < 1024) (hstate : (berthAt (coreOf s c) b).state = .stopping)
    (hruns : berthRuns s c b = false) (hengine : engineBusy s c b = false) (hstores : storesLeft s c b = false)
    (hmat : (coreOf s c).mat.queue = []) (hstop : (berthAt (coreOf s c) b).stopFor = some .preempt) :
    exec (.contextSave c b) s = .next ((saveBerth s c b).getD (goLive s c b)) := by
  change execContextSave c b s = _
  simp [execContextSave, show ¬1024 ≤ c by omega, hstate, hruns, hengine, hstores, hmat, hstop]

/-- A saved berth is free (R400). -/
theorem saveBerth_frees {s u : State} {c : Nat} {b : BitVec 2} (h : saveBerth s c b = some u) : (berthAt (coreOf u c) b).state = .free := by
  unfold saveBerth at h
  dsimp only at h
  split at h
  · cases h
  · split at h
    · cases h
    · split at h
      · cases h
      · obtain rfl := Option.some.inj h
        obtain ⟨v, hv⟩ := berthAt_reslice (updBerth _ c b _) c b
        rw [hv, berthAt_updBerth_same]

/- Held messages (R55). -/

theorem dropAt_eq_eraseIdx {α : Type} (l : List α) (k : Nat) : dropAt l k = l.eraseIdx k := (List.eraseIdx_eq_take_drop_succ l k).symm

section
variable {s : State} {k : Nat} {m : Msg} (hm : s.heldMsgs[k]? = some m) (hfirst : (s.heldMsgs.take k).any (fun x => sameFlow x m) = false)
include hm hfirst

/-- A message held for a graph that has ended is discarded. -/
theorem exec_messageForward_ended (hlive : liveAt s m.gid (tagDest m.route) = none) (hmoving : movingAt s m.gid (tagDest m.route) = false)
    (hgone : findGraph s m.gid = none) : exec (.messageForward k) s = .next { s with heldMsgs := s.heldMsgs.eraseIdx k } := by
  change execMessageForward k s = _
  simp [execMessageForward, hm, hfirst, hlive, hmoving, hgone, dropAt_eq_eraseIdx]

/-- A message whose task is live again enters it once there is room. -/
theorem exec_messageForward_live {c : Nat} {b : BitVec 2} (hlive : liveAt s m.gid (tagDest m.route) = some (c, b)) :
    exec (.messageForward k) s = .next (if roomFor { s with heldMsgs := s.heldMsgs.eraseIdx k } c b m
      then deliverBerth { s with heldMsgs := s.heldMsgs.eraseIdx k } c b m else s) := by
  change execMessageForward k s = _
  simp only [execMessageForward, hm, hfirst, hlive, dropAt_eq_eraseIdx]
  rfl

end

end Sys2Proof.Machine

section

open Sys2Proof.Machine

/-- Settles O47: each of the steps is one update of the task, the berth or the list of held messages. -/
theorem prioritiesAndMoves : Obligations.PrioritiesAndMoves := by
  unfold Obligations.PrioritiesAndMoves
  intro s
  refine ⟨?aging, ?raise, ?preempt, ?migrate, ?saved, ?livesOn, ?ended, ?forward⟩
  case aging =>
    intro gid task g t hg ht hst hprio hdue
    exact ⟨_, _, exec_priorityAging hg ht hst hprio hdue, task_updGraph_setTask _ hg ht, rfl, rfl, rfl, rfl⟩
  case raise =>
    intro c b m hc hm hstate hprio hdue
    exact ⟨_, exec_berthPriorityRaise hc hm hstate hprio hdue, by rw [berthAt_updBerth_same], by rw [berthAt_updBerth_same], rfl⟩
  case preempt =>
    intro gid task g t hg ht hwaits hroom hvictims
    obtain ⟨v, hv, hexec⟩ := exec_preempt hg ht hwaits hroom hvictims
    exact ⟨_, v, hexec, hv, by rw [berthAt_updBerth_same], rfl⟩
  case migrate =>
    intro c b d hc hdue hto hlast halone
    refine ⟨_, exec_migrate_alone hc hdue hto hlast halone, ?_, amFind_amSet_same _ _ _, rfl⟩
    exact congrArg Berth.stopFor (berthAt_updBerth_same s c b (fun x => { x with stopFor := some (.migrate d) }))
  case saved =>
    intro c b u hc hstate hruns hengine hstores hmat hstop hsave
    refine ⟨?_, saveBerth_frees hsave⟩
    rw [exec_contextSave_preempt hc hstate hruns hengine hstores hmat hstop, hsave]
    rfl
  case livesOn =>
    intro c b hc hstate hruns hengine hstores hmat hstop hsave hwin
    have hexec : exec (.contextSave c b) s = .next (goLive s c b) := by
      rw [exec_contextSave_preempt hc hstate hruns hengine hstores hmat hstop, hsave]
      rfl
    have hk := berthAt_goLive_empty hwin
    exact ⟨_, hexec, congrArg Berth.state hk, congrArg Berth.stopFor hk, by rw [goLive_empty hwin]; rfl⟩
  case ended =>
    intro k m hm hfirst hlive hmoving hgone
    exact ⟨_, exec_messageForward_ended hm hfirst hlive hmoving hgone, rfl, rfl, rfl⟩
  case forward =>
    intro k m c b hm hfirst hlive
    refine ⟨fun hroom => ?_, fun hroom => ?_⟩
    · rw [exec_messageForward_live hm hfirst hlive, if_pos hroom]
    · rw [exec_messageForward_live hm hfirst hlive, if_neg (by simp [hroom])]

end
end

section
/-! A graph from its launch packet to its completion record (R40 to R45, R63 to R65, R411): what enters a queue and what is taken from it,
the admission of a graph and the look at its prerequisites, its completion, and the record of that, here or on its way to a peer. -/

namespace Sys2Proof.Machine

/- Packets (R40 to R43). -/

theorem enqueue_room {s : State} {ctx : Nat} (k : LaunchPkt) (hen : (ctxOf s ctx).enable = true) (hlen : (ctxOf s ctx).queue.length < 256) :
    (enqueue s ctx true k).1 = setCtx s ctx { ctxOf s ctx with queue := (ctxOf s ctx).queue ++ [k] } := by
  have hroom : ¬(true = false ∨ (ctxOf s ctx).enable = false ∨ 256 ≤ (ctxOf s ctx).queue.length) := by simp [hen, hlen]
  simp only [enqueue, if_neg hroom]

theorem exec_doorbell {s : State} {ctx : Nat} (hctx : ctx < 16) (hphase : s.fw.phase = 5) (hen : (ctxOf s ctx).enable = true)
    (hlen : (ctxOf s ctx).queue.length < 256) :
    exec (.doorbell ctx) s = .next (setCtx s ctx { ctxOf s ctx with
      queue := (ctxOf s ctx).queue ++ [{ bytes := (ctxOf s ctx).stage, host := true }] }) := by
  change execDoorbell ctx s = _
  rw [execDoorbell, if_pos hctx, decide_eq_true hphase, enqueue_room _ hen hlen]

/-- The packet that the endpoint e sent. -/
theorem exec_rackLaunchPacket_allowed {s : State} {e : Nat} (p : List Byte) (hallow : s.fw.allow.any (fun x => x.2 == e) = true)
    (hen : (ctxOf s s.fw.rackctx).enable = true) (hlen : (ctxOf s s.fw.rackctx).queue.length < 256) :
    exec (.rackLaunchPacket e p) s = .next (setCtx s s.fw.rackctx { ctxOf s s.fw.rackctx with
      queue := (ctxOf s s.fw.rackctx).queue ++ [{ bytes := sliceZ p 0 64, rack := some e }] }) := by
  change execRackLaunchPacket e p s = _
  rw [execRackLaunchPacket, if_pos hallow, enqueue_room _ hen hlen]

/-- The next context with a packet, round robin from the one served last (R44). -/
def nextCtx (s : State) : Option Nat := ((List.range 16).map (fun i => (s.lastCtx + 1 + i) % 16)).find? (fun c => !(ctxOf s c).queue.isEmpty)

/-- The state once the oldest packet of a context has been taken. -/
def taken (s : State) (c : Nat) (l : List LaunchPkt) : State := { setCtx s c { ctxOf s c with queue := l } with lastCtx := c }

theorem exec_dispatcherTakePacket {s : State} {c : Nat} {k : LaunchPkt} {l : List LaunchPkt} (hnext : nextCtx s = some c)
    (hqueue : (ctxOf s c).queue = k :: l) : exec .dispatcherTakePacket s = .next (admitGraph (taken s c l) c k) := by
  change execDispatcherTakePacket s = _
  unfold nextCtx at hnext
  simp only [execDispatcherTakePacket, hnext, hqueue, taken]

@[simp] theorem ctxOf_taken_same (s : State) (c : Nat) (l : List LaunchPkt) : ctxOf (taken s c l) c = { ctxOf s c with queue := l } :=
  ctxOf_setCtx_same s c _

/-- Of a launch context, the check of a packet reads the PASID rule alone. -/
theorem packetBad_taken (s : State) (c : Nat) (l : List LaunchPkt) (k : LaunchPkt) : packetBad (taken s c l) c k = packetBad s c k := by
  simp only [packetBad, ctxOf_taken_same]

/-- A malformed packet that names no report area is dropped, with DROP, and remembered with code 0x0604 (R43, R44). That it is remembered is
the model's choice (log entry 34). -/
theorem admitGraph_malformed {s : State} {c : Nat} {k : LaunchPkt} (hbad : packetBad s c k = true) (hcaddr : pkCaddr k.bytes = 0) :
    admitGraph s c k = noteDone (deviceRec (setCtx s c { ctxOf s c with drop := true }) 0x0604 11 0 (leBytes 1 13)) (pkGid k.bytes) 0x0604 := by
  simp [admitGraph, hbad, rejectPacket, rejectAt, hcaddr]

/- Admission (R44, R45). -/

theorem map_gid_updGraph (s : State) (gid : Nat) {f : Graph → Graph} (hf : ∀ g, (f g).gid = g.gid) :
    (updGraph s gid f).graphs.map (·.gid) = s.graphs.map (·.gid) := by
  simp only [updGraph, List.map_map]
  refine List.map_congr_left (fun g _ => ?_)
  simp only [Function.comp_apply]
  split
  · exact hf g
  · rfl

/-- The state in which an admitted graph stands with the others, its cached code dropped (R69). -/
def admitted (s : State) (x : Graph) : State := dropCode { s with graphs := s.graphs ++ [x] } x

theorem findGraph_admitted {s : State} {x : Graph} (h : findGraph s x.gid = none) : findGraph (admitted s x) x.gid = some x := by
  have happ : findGraph (admitted s x) x.gid = (findGraph s x.gid).or ([x].find? (fun g => g.gid == x.gid)) := List.find?_append
  rw [happ, h, Option.none_or]
  exact List.find?_cons_of_pos (by simp)

/-- A packet and its graph that pass every check, with no prerequisite (R44). -/
theorem admitGraph_passes {s : State} {c : Nat} {k : LaunchPkt} {gd : List Byte} {g : GraphIn} (hpacket : packetBad s c k = false)
    (hgid : gidBad s k = false) (hgd : dispBytes s (pkPasid k.bytes) (leAt k.bytes 0 8) 128 = some gd)
    (hg : readGraph s (pkPasid k.bytes) gd = some g) (hreason : graphReason g (bitAt (pkFlags k.bytes) 0) = none)
    (hplace : placementBad s g = false) (hpre : pkPre k.bytes = []) :
    admitGraph s c k = recheck (admitted s (graphFrom c k g)) (graphFrom c k g) := by
  simp [admitGraph, hpacket, hgid, hgd, hg, hreason, hplace, hpre, admitted]

/-- The tasks of an active graph are those of the graph, and one that was set free has a counter of 0 (R23). -/
theorem freeTasks_length (wall : Nat) (g : Graph) : (freeTasks wall g).tasks.length = g.tasks.length := by
  simp [freeTasks]

theorem freeTasks_waiting {wall : Nat} {g : Graph} (h : ∀ t ∈ g.tasks, t.st = .waiting) :
    ∀ y ∈ (freeTasks wall g).tasks, y.st = .waiting ∨ (y.st = .eligible ∧ y.counter = 0) := by
  intro y hy
  obtain ⟨⟨i, t⟩, hit, rfl⟩ := List.mem_map.mp hy
  split
  · rename_i hfree
    obtain ⟨-, hcounter, -⟩ := hfree
    exact .inr ⟨rfl, hcounter⟩
  · exact .inl (h t (List.of_mem_zip hit).2)

/- Prerequisites (R45). -/

/-- A graph without a pending or failed prerequisite becomes active. -/
theorem recheck_active {s : State} {g : Graph} (hwaits : g.active = false) (hfailed : g.prereq.any (preFailed s) = false)
    (hpending : ∀ x ∈ g.prereq, prePending s x = false) :
    recheck s g = updGraph s g.gid (fun x => activate s.wall { x with prereq := [] }) := by
  have hleft : g.prereq.filter (prePending s) = [] := List.filter_eq_nil_iff.mpr (fun x hx => by simp [hpending x hx])
  simp [recheck, hwaits, hfailed, hleft]

/-- A graph with a pending prerequisite goes on waiting for those. -/
theorem recheck_waits {s : State} {g : Graph} (hwaits : g.active = false) (hfailed : g.prereq.any (preFailed s) = false)
    (hpending : ∃ x ∈ g.prereq, prePending s x = true) :
    recheck s g = updGraph s g.gid (fun x => { x with prereq := g.prereq.filter (prePending s) }) := by
  obtain ⟨x, hx, hp⟩ := hpending
  have hleft : (g.prereq.filter (prePending s)).isEmpty = false := by
    rw [List.isEmpty_eq_false_iff]
    exact List.ne_nil_of_mem (List.mem_filter.mpr ⟨hx, hp⟩)
  simp [recheck, hwaits, hfailed, hleft]

theorem exec_prereqRecheck {s : State} {gid : Nat} {g : Graph} (hg : findGraph s gid = some g) :
    exec (.prereqRecheck gid) s = .next (recheck s g) := by
  change execPrereqRecheck gid s = _
  simp only [execPrereqRecheck, hg]

theorem graphFrom_tasks (c : Nat) (k : LaunchPkt) (g : GraphIn) :
    (graphFrom c k g).tasks.length = g.tasks.length ∧ ∀ t ∈ (graphFrom c k g).tasks, t.st = .waiting := by
  refine ⟨by simp [graphFrom], fun t ht => ?_⟩
  obtain ⟨q, -, rfl⟩ := List.mem_map.mp ht
  rfl

/-- A packet and its graph that pass every check, with no prerequisite: the graph stands with the others and is active, its tasks waiting or
set free (R23, R44, R45). -/
theorem admitGraph_active {s : State} {c : Nat} {k : LaunchPkt} {gd : List Byte} {g : GraphIn} (hpacket : packetBad s c k = false)
    (hgid : gidBad s k = false) (hgd : dispBytes s (pkPasid k.bytes) (leAt k.bytes 0 8) 128 = some gd)
    (hg : readGraph s (pkPasid k.bytes) gd = some g) (hreason : graphReason g (bitAt (pkFlags k.bytes) 0) = none)
    (hplace : placementBad s g = false) (hpre : pkPre k.bytes = []) :
    ∃ x, (admitGraph s c k).graphs.map (·.gid) = s.graphs.map (·.gid) ++ [pkGid k.bytes] ∧ findGraph (admitGraph s c k) (pkGid k.bytes) = some x
      ∧ x.active = true ∧ x.activeWall = s.wall ∧ x.pasid = pkPasid k.bytes ∧ x.tasks.length = g.tasks.length
      ∧ (∀ y ∈ x.tasks, y.st = .waiting ∨ (y.st = .eligible ∧ y.counter = 0))
      ∧ (admitGraph s c k).mem = s.mem ∧ (admitGraph s c k).cores = s.cores := by
  have hnew : findGraph s (graphFrom c k g).gid = none := by
    simp only [gidBad, Bool.or_eq_false_iff, Option.isSome_eq_false_iff, Option.isNone_iff_eq_none] at hgid
    exact hgid.2
  have hprereq : (graphFrom c k g).prereq = [] := hpre
  obtain ⟨hlength, hwaiting⟩ := graphFrom_tasks c k g
  rw [admitGraph_passes hpacket hgid hgd hg hreason hplace hpre, recheck_active rfl (by rw [hprereq]; rfl) (by rw [hprereq]; simp)]
  refine ⟨activate s.wall { graphFrom c k g with prereq := [] }, ?_, ?_, rfl, rfl, rfl, (freeTasks_length _ _).trans hlength,
    freeTasks_waiting hwaiting, rfl, rfl⟩
  · rw [map_gid_updGraph _ _ (by exact fun _ => rfl)]
    exact List.map_append
  · exact (findGraph_updGraph_same _ _ (by exact fun _ => rfl)).trans (by rw [findGraph_admitted hnew]; rfl)

/-- From the doorbell to an active graph. -/
theorem launchSteps : Claims.LaunchSteps := by
  unfold Claims.LaunchSteps
  intro s
  refine ⟨?doorbell, ?rack, ?discarded, ?malformed, ?admits, ?active, ?waits⟩
  case doorbell =>
    intro ctx hctx hphase hen hlen
    exact ⟨_, _, exec_doorbell hctx hphase hen hlen, by rw [ctxOf_setCtx_same], rfl, rfl, fun d hd => ctxOf_setCtx_other s _ hd, rfl, rfl, rfl⟩
  case rack =>
    intro e p hallow hen hlen
    exact ⟨_, _, exec_rackLaunchPacket_allowed p hallow hen hlen, by rw [ctxOf_setCtx_same], rfl, rfl, rfl⟩
  case discarded =>
    intro e p hallow
    exact congrArg Host.Outcome.next (if_neg (by simp [hallow]))
  case malformed =>
    intro c k l hnext hqueue hbad hcaddr
    have hctx : ctxOf (setCtx (taken s c l) c { ctxOf (taken s c l) c with drop := true }) c = { ctxOf s c with queue := l, drop := true } := by
      rw [ctxOf_setCtx_same, ctxOf_taken_same]
    have hexec := exec_dispatcherTakePacket hnext hqueue
    rw [admitGraph_malformed ((packetBad_taken s c l k).trans hbad) hcaddr] at hexec
    exact ⟨_, hexec, congrArg LaunchCtx.queue hctx, rfl, rfl, congrArg LaunchCtx.drop hctx, rfl⟩
  case admits =>
    intro c k l gd g hnext hqueue u hpacket hgid hgd hg hreason hplace hpre
    obtain ⟨x, hactive⟩ := admitGraph_active (s := taken s c l) hpacket hgid hgd hg hreason hplace hpre
    exact ⟨_, x, exec_dispatcherTakePacket hnext hqueue, hactive⟩
  case active =>
    intro gid g hg hwaits hfailed hpending
    have hexec := exec_prereqRecheck hg
    rw [recheck_active hwaits hfailed hpending, findGraph_gid hg] at hexec
    refine ⟨_, activate s.wall { g with prereq := [] }, hexec, ?_, rfl, rfl, rfl, rfl⟩
    rw [findGraph_updGraph_same _ _ (by exact fun _ => rfl), hg]
    rfl
  case waits =>
    intro gid g hg hwaits hfailed hpending
    have hexec := exec_prereqRecheck hg
    rw [recheck_waits hwaits hfailed hpending, findGraph_gid hg] at hexec
    refine ⟨_, { g with prereq := g.prereq.filter (prePending s) }, hexec, ?_, hwaits, rfl, rfl⟩
    rw [findGraph_updGraph_same _ _ (by exact fun _ => rfl), hg]
    rfl

/- Completion (R65). -/

/-- A graph that is complete and for which nothing is parked or held is marked so, with its code. -/
theorem exec_graphComplete {s : State} {gid : Nat} {g : Graph} (hg : findGraph s gid = some g) (hcomplete : isComplete s g = true)
    (hleft : leftOver s gid = []) :
    ∃ t : State, exec (.graphComplete gid) s = .next t
      ∧ findGraph t gid = some { g with complete := true, completeWall := s.wall, failCode := finalCode g false }
      ∧ t.mem = s.mem ∧ t.cores = s.cores := by
  have hdrop : (dropParked s gid).graphs = s.graphs ∧ (dropParked s gid).mem = s.mem ∧ (dropParked s gid).cores = s.cores := by
    rw [dropParked, hleft]
    exact ⟨rfl, rfl, rfl⟩
  obtain ⟨hgraphs, hmem, hcores⟩ := hdrop
  have hexec : exec (.graphComplete gid) s = .next (updGraph (dropParked s gid) gid (fun h =>
      { h with complete := true, completeWall := s.wall, failCode := finalCode g false })) := by
    change execGraphComplete gid s = _
    simp [execGraphComplete, hg, hcomplete, hleft]
  refine ⟨_, hexec, ?_, hmem, hcores⟩
  rw [findGraph_updGraph_same _ _ (by exact fun _ => rfl), findGraph_congr hgraphs, hg]
  rfl

/-- A graph whose tile tasks have all finished completes without a code (R65). -/
theorem finalCode_finished {g : Graph} (hcode : g.failCode = 0) (h : ∀ p ∈ tilesOf g, p.2.st = .finished) : finalCode g false = 0 := by
  have hall : (tilesOf g).all (fun p => p.2.st == .finished) = true := List.all_eq_true.mpr (fun p hp => by simp [h p hp])
  rw [finalCode, if_neg (fun hne => hne hcode), if_neg Bool.false_ne_true, if_pos hall]

/- Where a report lies (R63, R173 to R176). -/

/-- Nothing has changed of what a translation reads, nor of the devices that may be addressed. -/
def SamePlaces (s t : State) : Prop :=
  t.mem = s.mem ∧ t.bad = s.bad ∧ t.stations = s.stations ∧ t.gddr = s.gddr ∧ t.lpddr = s.lpddr
    ∧ t.fabric.gxm1 = s.fabric.gxm1 ∧ t.fabric.gym1 = s.fabric.gym1 ∧ t.fabric.unreach = s.fabric.unreach

section
variable {s t : State} (h : SamePlaces s t)
include h

theorem SamePlaces.isBad (g : Nat) : isBad t g = isBad s g := by
  obtain ⟨-, hbad, -⟩ := h
  rw [Machine.isBad, hbad, Machine.isBad]

theorem SamePlaces.leafOk (e level : Nat) : leafOk t e level = leafOk s e level := by
  obtain ⟨-, -, -, hgddr, hlpddr, -⟩ := h
  rw [Machine.leafOk, hgddr, hlpddr, Machine.leafOk]

theorem SamePlaces.walk (va : Nat) (l : List Nat) (level table : Nat) : walk t va l level table = walk s va l level table := by
  have ⟨hmem, _, _, hgddr, _⟩ := h
  induction l generalizing level table with
  | nil => rfl
  | cons sh l ih => simp only [Machine.walk, hmem, hgddr, h.isBad, h.leafOk, ih]

theorem SamePlaces.lookup (st : Nat) (pasid : BitVec 20) (va : Nat) : lookup t st pasid va = lookup s st pasid va := by
  have ⟨hmem, _, hstations, hgddr, _⟩ := h
  have hstation : stationOf t st = stationOf s st := by rw [stationOf, hstations, stationOf]
  have hwalk : walkPasid t st pasid va = walkPasid s st pasid va := by
    unfold walkPasid
    simp only [hstation, hmem, hgddr, h.isBad, h.walk]
  rw [Machine.lookup, hstation, hwalk, Machine.lookup]

theorem SamePlaces.translateAll (st : Nat) (pasid : BitVec 20) (nd : Need) (l : List (Nat × Nat)) :
    translateAll t st pasid nd l = translateAll s st pasid nd l := by
  induction l with
  | nil => rfl
  | cons x l ih => simp only [Machine.translateAll, translate, h.lookup, ih]

theorem SamePlaces.farBad (l : List (Nat × Nat × Nat)) : farBad t l = farBad s l := by
  obtain ⟨-, -, -, -, -, hx, hy, hun⟩ := h
  simp only [Machine.farBad, devBad, inGrid, hx, hy, hun]

theorem SamePlaces.dispPieces (pasid : BitVec 20) (va n : Nat) (nd : Need) : dispPieces t pasid va n nd = dispPieces s pasid va n nd := by
  simp only [Machine.dispPieces, h.translateAll, h.farBad]

end

/-- A range cut at page boundaries has no empty part. -/
theorem pageCuts_pos {fuel va n : Nat} {p : Nat × Nat} (h : p ∈ pageCuts fuel va n) : 0 < p.2 := by
  induction fuel generalizing va n with
  | zero => cases h
  | succ fuel ih =>
    rw [pageCuts] at h
    split at h
    · cases h
    · rcases List.mem_cons.mp h with rfl | h
      · simp only
        omega
      · exact ih h

theorem pageCuts_sum_le (fuel va n : Nat) : ((pageCuts fuel va n).map (·.2)).sum ≤ n := by
  induction fuel generalizing va n with
  | zero => exact Nat.zero_le n
  | succ fuel ih =>
    rw [pageCuts]
    split
    · exact Nat.zero_le n
    · have := ih (va + min n (4096 - va % 4096)) (n - min n (4096 - va % 4096))
      simp only [List.map_cons, List.sum_cons]
      omega

/-- A translation keeps the length of every part. -/
theorem translateAll_lengths {s : State} {st : Nat} {pasid : BitVec 20} {nd : Need} {l : List (Nat × Nat)} {r : List (Nat × Nat × Nat)}
    (h : translateAll s st pasid nd l = .ok r) : r.map (·.2.2) = l.map (·.2) := by
  induction l generalizing r with
  | nil => cases h; rfl
  | cons x l ih =>
    rw [translateAll] at h
    split at h
    · cases h
    · split at h
      · cases h
      · rename_i r' hr
        cases h
        simp only [List.map_cons, ih hr]

/-- The pieces of a range are not empty and hold no more bytes than the range. -/
theorem dispPieces_lengths {s : State} {pasid : BitVec 20} {va n : Nat} {nd : Need} {l : List (Nat × Nat × Nat)}
    (h : dispPieces s pasid va n nd = some l) : (∀ p ∈ l, 0 < p.2.2) ∧ (l.map (·.2.2)).sum ≤ n := by
  unfold dispPieces at h
  split at h
  · cases h
  · split at h
    · cases h
    · rename_i r hr
      dsimp only at h
      split at h
      · cases h
      · cases h
        have hlen := translateAll_lengths hr
        have hmap : (r.map (fun p => (p.1, if p.1 = 3 then p.2.1 else tierFlat p.1 p.2.1, p.2.2))).map (·.2.2)
            = (pageCuts (n / 4096 + 2) va n).map (·.2) := by
          rw [List.map_map, ← hlen]
          rfl
        refine ⟨fun p hp => ?_, hmap ▸ pageCuts_sum_le _ _ _⟩
        have hmem : p.2.2 ∈ (pageCuts (n / 4096 + 2) va n).map (·.2) := hmap ▸ List.mem_map_of_mem hp
        obtain ⟨q, hq, hpq⟩ := List.mem_map.mp hmem
        exact hpq ▸ pageCuts_pos hq

/- The operations that carry what lies on a peer's page (R63, R168). -/

/-- Each piece of a range is dealt the bytes that it holds. -/
theorem exists_mem_zip_dealOut {ps : List (Nat × Nat × Nat)} (hpos : ∀ p ∈ ps, 0 < p.2.2) {bs : List Byte}
    (hsum : (ps.map (·.2.2)).sum ≤ bs.length) {p : Nat × Nat × Nat} (hp : p ∈ ps) :
    ∃ x ∈ ps.zip ((dealOut (ps.map (·.2)) bs).map (·.2)), x.1 = p ∧ x.2 ≠ [] := by
  induction ps generalizing bs with
  | nil => cases hp
  | cons q ps ih =>
    simp only [List.map_cons, List.sum_cons] at hsum
    simp only [List.map_cons, dealOut, List.zip_cons_cons]
    rcases List.mem_cons.mp hp with rfl | hp
    · refine ⟨_, List.mem_cons_self, rfl, ?_⟩
      have hn := hpos p List.mem_cons_self
      exact List.ne_nil_of_length_pos (by rw [List.length_take]; exact Nat.lt_min.mpr ⟨hn, by omega⟩)
    · obtain ⟨x, hx, hxp⟩ := ih (fun r hr => hpos r (List.mem_cons_of_mem _ hr)) (bs := bs.drop q.2.2) (by rw [List.length_drop]; omega) hp
      exact ⟨x, List.mem_cons_of_mem _ hx, hxp⟩

/-- What lies on no peer's page needs no operation. -/
theorem sendPieces_here {l : List ((Nat × Nat × Nat) × List Byte)} (h : ∀ x ∈ l, x.1.1 ≠ 3) (r : ROp) (pasid : BitVec 20) (sync : Sync) :
    ∀ (s : State) (va : Nat), sendPieces r pasid sync s va l = (s, []) := by
  induction l with
  | nil => exact fun _ _ => rfl
  | cons x l ih =>
    intro s va
    rw [sendPieces, if_neg (h x List.mem_cons_self)]
    exact ih (fun y hy => h y (List.mem_cons_of_mem _ hy)) s _

/-- Bytes on a peer's page need one. -/
theorem sendPieces_far {l : List ((Nat × Nat × Nat) × List Byte)} (h : ∃ x ∈ l, x.1.1 = 3 ∧ x.2 ≠ []) (r : ROp) (pasid : BitVec 20)
    (sync : Sync) : ∀ (s : State) (va : Nat), (sendPieces r pasid sync s va l).2 ≠ [] := by
  induction l with
  | nil => obtain ⟨_, hx, _⟩ := h; cases hx
  | cons x l ih =>
    intro s va
    obtain ⟨y, hy, hfar, hbytes⟩ := h
    rw [sendPieces]
    rcases List.mem_cons.mp hy with rfl | hy
    · rw [if_pos hfar, sendCuts, if_neg hbytes]
      exact List.cons_ne_nil _ _
    · split
      · exact List.append_ne_nil_of_right_ne_nil _ (ih ⟨y, hy, hfar, hbytes⟩ _ _)
      · exact ih ⟨y, hy, hfar, hbytes⟩ s _

/-- What the dispatcher writes where no peer is met needs no operation. -/
theorem dispSend_here {s t : State} {pasid : BitVec 20} {va : Nat} {bs : List Byte} {ops : List Nat} (h : dispSend s pasid va bs = some (t, ops))
    (hhere : ∀ l, dispPieces s pasid va bs.length { wr := true } = some l → ∀ p ∈ l, p.1 ≠ 3) : ops = [] := by
  unfold dispSend at h
  split at h
  · cases h
  · rename_i ps hps
    split at h
    · cases h
    · dsimp only at h
      rw [sendPieces_here (fun x hx => hhere ps hps _ (List.of_mem_zip (a := x.1) (b := x.2) hx).1)] at h
      cases h
      rfl

/-- What it writes across a peer's page, with no uncorrectable granule here, is on its way in operations. -/
theorem dispSend_far {s : State} {pasid : BitVec 20} {va : Nat} {bs : List Byte} {l : List (Nat × Nat × Nat)}
    (hl : dispPieces s pasid va bs.length { wr := true } = some l) (hgood : (granules (herePieces l)).all (fun g => !isBad s g) = true)
    (hfar : ∃ p ∈ l, p.1 = 3) : ∃ t op ops, dispSend s pasid va bs = some (t, op :: ops) := by
  obtain ⟨hpos, hsum⟩ := dispPieces_lengths hl
  obtain ⟨p, hp, hp3⟩ := hfar
  obtain ⟨x, hx, hxp, hbytes⟩ := exists_mem_zip_dealOut hpos hsum hp
  have hnotbad : (granules (herePieces l)).any (isBad s) = false := by simpa using hgood
  have hsend : ∃ u : State, dispSend s pasid va bs
      = some (sendPieces { core := noCore } pasid .plain u va (l.zip ((dealOut (l.map (·.2)) bs).map (·.2)))) := by
    simp only [dispSend, hl, hnotbad]
    exact ⟨_, rfl⟩
  obtain ⟨u, hu⟩ := hsend
  obtain ⟨op, ops, hops⟩ := List.exists_cons_of_ne_nil
    (sendPieces_far ⟨x, hx, by rw [hxp]; exact hp3, hbytes⟩ { core := noCore } pasid .plain u va)
  exact ⟨_, op, ops, hu.trans (congrArg some (Prod.ext rfl hops))⟩

/- Completion records (R45, R63, R64). -/

theorem length_reportBytes (gid ltag kind reason code count wall aux faults : Nat) :
    (reportBytes gid ltag kind reason code count wall aux faults).length = 32 := by
  simp [reportBytes, Laws.Length.leBytes_length]

/-- A completion whose report has ended, written or dropped, is the one remembered last (R45). -/
theorem endReport_remembered (s : State) {p : RepPend} (h : p.done = true) (w : Bool) : (endReport s p w).fw.done.head? = some (p.gid, p.code) := by
  simp [endReport, h, noteDone]

section
variable {s : State} {pasid : BitVec 20} {va : Nat} {p : RepPend} {bs : List Byte} (rack : Option Nat)

/-- A completion record that meets no peer's page has ended at once. -/
theorem putReport_here (hdone : p.done = true) (hhere : ∀ l, dispPieces s pasid va bs.length { wr := true } = some l → ∀ q ∈ l, q.1 ≠ 3) :
    (putReport s rack pasid va p bs).fw.done.head? = some (p.gid, p.code) := by
  cases hsend : dispSend s pasid va bs with
  | none =>
    simp only [putReport, hsend]
    cases rack <;> exact endReport_remembered s hdone false
  | some x =>
    obtain ⟨t, ops⟩ := x
    obtain rfl := dispSend_here hsend hhere
    simp only [putReport, hsend]
    cases rack <;> exact endReport_remembered t hdone true

/-- A completion record across a peer's page is on its way there, and is not yet remembered (R64). -/
theorem putReport_far {l : List (Nat × Nat × Nat)} (hdone : p.done = true) (hl : dispPieces s pasid va bs.length { wr := true } = some l)
    (hgood : (granules (herePieces l)).all (fun g => !isBad s g) = true) (hfar : ∃ q ∈ l, q.1 = 3) :
    onItsWay (putReport s rack pasid va p bs) p.gid = true ∧ (putReport s rack pasid va p bs).fw.done = s.fw.done := by
  obtain ⟨t, op, ops, hsend⟩ := dispSend_far hl hgood hfar
  obtain ⟨m, d, f, rfl⟩ := dispSend_eq hsend
  simp only [putReport, hsend]
  cases rack <;> exact ⟨by simp [onItsWay, hdone], rfl⟩

end

/-- A graph is admitted no longer: its entries leave the map stores, and its operations are kept no longer (R64, R200). -/
def released (s : State) (gid : Nat) : State :=
  { s with graphs := s.graphs.filter (fun x => x.gid != gid), cores := s.cores.map (fun p => (p.1, dropMaps gid p.2)),
           fabric := { s.fabric with rops := s.fabric.rops.filter (fun r => r.gid != gid) } }

theorem samePlaces_released (s : State) (gid : Nat) : SamePlaces s (released s gid) := ⟨rfl, rfl, rfl, rfl, rfl, rfl, rfl, rfl⟩

theorem findGraph_released (s : State) (gid : Nat) : findGraph (released s gid) gid = none := by
  simp [findGraph, released]

/-- The pending report of a graph's completion. -/
def completionOf (g : Graph) (gid : Nat) : RepPend := { ctx := g.ctx, gid := gid, kind := 2, code := g.failCode, done := true }

/-- The bytes of its record (R63). -/
def completionBytes (g : Graph) (gid : Nat) : List Byte :=
  reportBytes gid g.ltag.toNat 2 0 g.failCode ((tilesOf g).filter (fun p => p.2.st == .finished)).length g.completeWall (auxOf g) g.faults

theorem exec_completionRecord {s : State} {gid : Nat} {g : Graph} (hg : findGraph s gid = some g) (hcomplete : g.complete = true)
    (hquiet : graphQuiet s gid = true) :
    exec (.completionRecord gid) s
      = .next (putReport (released s gid) g.rack g.pasid (g.caddr.toNat + 0x20) (completionOf g gid) (completionBytes g gid)) := by
  change execCompletionRecord gid s = _
  simp only [execCompletionRecord, hg, hcomplete, hquiet, Bool.and_self, if_true]
  rfl

/-- A graph ends: it completes with its code, and once it is quiet its record is written, dropped or on its way to a peer. That its GID is
pending until the record stands there is the model's choice (log entry 34). -/
theorem graphsEnd : Claims.GraphsEnd := by
  unfold Claims.GraphsEnd
  intro s gid g hg
  refine ⟨fun hcomplete hleft => ?completes, fun hcomplete hquiet => ?recorded⟩
  case completes =>
    obtain ⟨t, hexec, hfound, hmem, hcores⟩ := exec_graphComplete hg hcomplete hleft
    exact ⟨t, _, hexec, hfound, rfl, rfl, rfl, finalCode_finished, hmem, hcores⟩
  case recorded =>
    have hplaces := samePlaces_released s gid
    have hlen : (completionBytes g gid).length = 32 := length_reportBytes _ _ _ _ _ _ _ _ _
    obtain ⟨hcores, hgraphs⟩ := putReport_frame (released s gid) g.rack g.pasid (g.caddr.toNat + 0x20) (completionOf g gid)
      (completionBytes g gid)
    refine ⟨_, exec_completionRecord hg hcomplete hquiet, (findGraph_congr hgraphs gid).trans (findGraph_released s gid), ?_, ?_, hcores⟩
    · intro hhere
      exact putReport_here g.rack rfl (by rw [hlen, hplaces.dispPieces]; exact hhere)
    · intro l hl hgood hfar
      refine putReport_far g.rack rfl (by rw [hlen, hplaces.dispPieces]; exact hl) ?_ hfar
      simpa only [hplaces.isBad] using hgood

end Sys2Proof.Machine

section

open Sys2Proof.Machine

/-- Settles O48: a packet that passes the checks is one graph more, and the completion of a graph is one update of it and one report,
which is remembered unless it goes to a peer. -/
theorem graphLifecycle : Obligations.GraphLifecycle := ⟨launchSteps, graphsEnd⟩

end
end

section
/-! Words of instructions (R70 to R106): numbers as bytes and back, the fields of a word, operands and modifiers field by field; then that
decoding undoes encoding, that what decodes encodes back, and the words of the spec's tables. -/

-- One proof after another: the compile of the whole text has a bound on its memory.
set_option Elab.async false

namespace Sys2Proof.Laws.Coding

open Sys2Proof Sys2Proof.Laws.Length

/- Numbers and their bytes (R6). -/

theorem leNat_leBytes (n x : Nat) : leNat (leBytes n x) = x % 256 ^ n := by
  induction n generalizing x with
  | zero => simp [leBytes, leNat, Nat.mod_one]
  | succ n ih =>
    have hsplit : x % 256 ^ (n + 1) = x % 256 + 256 * (x / 256 % 256 ^ n) := by rw [Nat.pow_succ', Nat.mod_mul]
    rw [leBytes, leNat, ih, BitVec.toNat_ofNat, hsplit]

theorem leBytes_leNat (bs : List Byte) : leBytes bs.length (leNat bs) = bs := by
  induction bs with
  | nil => rfl
  | cons b bs ih =>
    have hlow : BitVec.ofNat 8 (b.toNat + 256 * leNat bs) = b := BitVec.eq_of_toNat_eq (by have := b.isLt; simp; omega)
    have hhigh : (b.toNat + 256 * leNat bs) / 256 = leNat bs := by have := b.isLt; omega
    rw [List.length_cons, leNat, leBytes, hlow, hhigh, ih]

theorem leNat_lt (bs : List Byte) : leNat bs < 256 ^ bs.length := by
  induction bs with
  | nil => simp [leNat]
  | cons b bs ih =>
    have := b.isLt
    rw [List.length_cons, Nat.pow_succ, leNat]
    omega

/-- The lowest eight bits of a number are its first byte. -/
theorem fieldAt_leNat_first (bs : List Byte) (h : bs ≠ []) : fieldAt (leNat bs) 0 8 = (bs.getD 0 0).toNat := by
  obtain ⟨b, t, rfl⟩ := List.exists_cons_of_ne_nil h
  have := b.isLt
  simp only [fieldAt, leNat, List.getD_cons_zero]
  omega

theorem fieldAt_take_first {bs : List Byte} (h : 12 ≤ bs.length) : fieldAt (leNat (bs.take 12)) 0 8 = (bs.getD 0 0).toNat := by
  have hne : bs.take 12 ≠ [] := List.ne_nil_of_length_pos (by simp; omega)
  rw [fieldAt_leNat_first _ hne]
  simp [List.getD_eq_getElem?_getD]

/- Opcodes (R89, R90). -/

/-- The rows of the map, one for each high nibble. -/
def opcRows : List (List (Option Opc)) :=
  [opcRow0, opcRow1, opcRow2, opcRow3, opcRow4, opcRow5, opcRow6, opcRow7, opcRow8, opcRow9, opcRowA, opcRowB, opcRowC, opcRowD, opcRowE,
    opcRowF]

/-- Where every row has the same length, an entry of the joined rows stands in a row. -/
theorem getElem?_flatten_rows {α : Type} {k : Nat} {rows : List (List α)} (hk : 0 < k) (h : ∀ r ∈ rows, r.length = k) (n : Nat) :
    rows.flatten[n]? = rows[n / k]?.bind (·[n % k]?) := by
  induction rows generalizing n with
  | nil => rfl
  | cons r rows ih =>
    have hr : r.length = k := h r (by simp)
    rw [List.flatten_cons]
    by_cases hn : n < k
    · rw [List.getElem?_append_left (hr ▸ hn), Nat.div_eq_of_lt hn, Nat.mod_eq_of_lt hn]
      rfl
    · obtain ⟨m, rfl⟩ := Nat.exists_eq_add_of_le (Nat.not_lt.mp hn)
      rw [List.getElem?_append_right (by omega), hr, Nat.add_sub_cancel_left, ih (fun r hr => h r (by simp [hr])), Nat.add_div_left _ hk,
        Nat.add_mod_left]
      rfl

/-- The opcode of a value stands in its row (R89). -/
theorem opcOf_eq_row (n : Nat) : opcOf n = (opcRows[n / 16]?.bind (·[n % 16]?)).getD none := by
  have hrows : ∀ r ∈ opcRows, r.length = 16 := by decide
  rw [← getElem?_flatten_rows (by decide) hrows]
  simp only [opcOf, opcRows, List.flatten_cons, List.flatten_nil, List.append_assoc, List.append_nil]

theorem opcOf_opcCode (c : Opc) : opcOf (opcCode c).toNat = some c := by
  rw [opcOf_eq_row]
  cases c <;> rfl

/-- No opcode has the value of UDF. -/
theorem opcCode_ne_zero (c : Opc) : (opcCode c).toNat ≠ 0 := by
  intro h
  have hopc := opcOf_opcCode c
  rw [h] at hopc
  cases hopc

/-- Each opcode of the map stands at its own value. -/
theorem opcRows_places : (opcRows.zipIdx.all fun r => r.1.zipIdx.all fun e => e.1.all fun c => (opcCode c).toNat == 16 * r.2 + e.2) = true := by
  decide +kernel

theorem opcCode_of_opcOf {n : Nat} {c : Opc} (h : opcOf n = some c) : (opcCode c).toNat = n := by
  rw [opcOf_eq_row] at h
  obtain ⟨x, hx, hxc⟩ : ∃ x, opcRows[n / 16]?.bind (·[n % 16]?) = some x ∧ x = some c := by
    cases hx : opcRows[n / 16]?.bind (·[n % 16]?) with
    | none => rw [hx] at h; cases h
    | some x => rw [hx] at h; exact ⟨x, rfl, h⟩
  subst hxc
  obtain ⟨r, hr, hc⟩ := Option.bind_eq_some_iff.mp hx
  have hrow := List.all_eq_true.mp opcRows_places (r, n / 16) (List.mem_zipIdx_iff_getElem?.mpr hr)
  have hcell := List.all_eq_true.mp hrow (some c, n % 16) (List.mem_zipIdx_iff_getElem?.mpr hc)
  have hcode : (opcCode c).toNat = 16 * (n / 16) + n % 16 := by simpa using hcell
  omega

/- Operand fields (R73): the kind above, the value below. -/

theorem kind_add {k v : Nat} (hk : 4096 ∣ k) (hv : v < 4096) : (k + v) / 4096 = k / 4096 := by omega

theorem value_add {k v : Nat} (hk : 4096 ∣ k) (hv : v < 4096) : (k + v) % 4096 = v := by omega

theorem ctlOf_ctlNum (r : CtlReg) : ctlOf (ctlNum r) = some r := by
  cases r with
  | dl i => revert i; decide
  | _ => rfl

theorem ctlNum_lt (r : CtlReg) : ctlNum r < 4096 := by
  cases r with
  | dl i => exact Nat.lt_of_lt_of_le (Nat.add_lt_add_left i.isLt 5) (by decide)
  | _ => decide

theorem operandBits_lt (x : Operand) : operandBits x < 2 ^ 16 := by
  cases x with
  | x r => have := ctlNum_lt r; simp only [operandBits]; omega
  | _ => simp only [operandBits]; omega

theorem operandBits_kindL (x : Operand) : (operandBits x / 4096 == 10) = isLit x := by
  cases x with
  | x r =>
    have := ctlNum_lt r
    simp (disch := omega) [operandBits, isLit, kind_add]
  | _ => simp (disch := omega) [operandBits, isLit, kind_add, Nat.div_eq_of_lt]

/-- A field that an operand fills reads as that operand, with its own literal (R71, R73). -/
theorem operandOf_operandBits {x : Operand} {lit : Nat} (h : isLit x = true → lit = litNat x) :
    operandOf (operandBits x) lit = some x := by
  cases x with
  | none => rfl
  | x r =>
    have := ctlNum_lt r
    simp (disch := omega) [operandOf, operandBits, kind_add, value_add, ctlOf_ctlNum]
  | l32 v | l64 v => simp [operandOf, operandBits, h rfl, litNat]
  | s n | v n | t n | a n | k n | q n | c n | i n | b n =>
    simp (disch := omega) [operandOf, operandBits, kind_add, value_add, Nat.div_eq_of_lt, Nat.mod_eq_of_lt, n.isLt]

theorem ctlNum_of_ctlOf {n : Nat} {r : CtlReg} (h : ctlOf n = some r) : ctlNum r = n := by
  unfold ctlOf at h
  split at h <;> cases h <;> rfl

/-- What a field reads as fills that field. -/
theorem operandBits_of_operandOf {f lit : Nat} {x : Operand} (h : operandOf f lit = some x) : operandBits x = f := by
  simp only [operandOf] at h
  split at h
  case h_9 =>
    obtain ⟨r, hr, rfl⟩ := Option.map_eq_some_iff.mp h
    have := ctlNum_of_ctlOf hr
    simp only [operandBits]
    omega
  case h_10 =>
    cases h
    simp only [operandBits, BitVec.toNat_ofNat]
    omega
  case h_11 =>
    split at h
    · cases h; simp only [operandBits]; omega
    · split at h
      · cases h; simp only [operandBits]; omega
      · cases h
  case h_13 => cases h
  all_goals
    simp only [Option.ite_none_right_eq_some, Option.some.injEq] at h
    obtain ⟨hv, rfl⟩ := h
    simp only [operandBits, BitVec.toNat_ofNat]
    omega

/-- A literal operand holds as many bits of the literal parcels as it has. -/
theorem litNat_of_operandOf {f lit : Nat} {x : Operand} (h : operandOf f lit = some x) (hl : isLit x = true)
    (hlit : lit < 256 ^ (4 * litParcels x)) : litNat x = lit := by
  have hf := operandBits_of_operandOf h
  subst hf
  cases x with
  | l32 y | l64 y =>
    simp only [operandOf, operandBits, Nat.reduceDiv, Nat.reduceMod, if_true, one_ne_zero, if_false, Option.some.injEq,
      Operand.l32.injEq, Operand.l64.injEq] at h
    subst h
    exact Nat.mod_eq_of_lt hlit
  | _ => cases hl

/- Modifier fields (R93 to R104). -/

theorem bitNat_le (b : Bool) : bitNat b ≤ 1 := by cases b <;> decide

theorem bitNat_inj {a b : Bool} : bitNat a = bitNat b ↔ a = b := by revert a b; decide

theorem bitNat_bitAt (n lo : Nat) : bitNat (bitAt n lo) = n / 2 ^ lo % 2 := by
  have := Nat.mod_two_eq_zero_or_one (n / 2 ^ lo)
  unfold bitNat bitAt
  split <;> simp_all

/-- The bits of a number from a place upward are a field and the bits above it. -/
theorem div_eq_field (w lo n : Nat) : w / 2 ^ lo = fieldAt w lo n + w / 2 ^ (lo + n) * 2 ^ n := by
  rw [fieldAt, Nat.pow_add, ← Nat.div_div_eq_div_mul, Nat.mul_comm]
  exact (Nat.mod_add_div _ _).symm

theorem bitNat_bitAt_eq_field (w lo : Nat) : bitNat (bitAt w lo) = fieldAt w lo 1 := bitNat_bitAt w lo

theorem toNat_ofNat_field (w lo n : Nat) : (BitVec.ofNat n (fieldAt w lo n)).toNat = fieldAt w lo n := by
  rw [BitVec.toNat_ofNat, fieldAt, Nat.mod_mod]

theorem vtypeCode_lt (t : VType) : vtypeCode t < 16 := by cases t <;> decide
theorem rndCode_lt (r : Rnd) : rndCode r < 8 := by cases r <;> decide
theorem relCode_lt (r : Rel) : relCode r < 8 := by cases r <;> decide
theorem combCode_lt (r : Comb) : combCode r < 4 := by cases r <;> decide
theorem sizeCode_lt (r : Size) : sizeCode r < 4 := by cases r <;> decide
theorem syncCode_lt (r : Sync) : syncCode r < 8 := by cases r <;> decide
theorem spaceCode_lt (r : Space) : spaceCode r < 8 := by cases r <;> decide
theorem placeCode_lt (r : Place) : placeCode r < 4 := by cases r <;> decide
theorem scopeCode_lt (r : Scope) : scopeCode r < 8 := by cases r <;> decide
theorem fkindCode_lt (r : FKind) : fkindCode r < 4 := by cases r <;> decide
theorem shapeCode_lt (r : Shape) : shapeCode r < 4 := by cases r <;> decide
theorem ftypeCode_lt (r : FType) : ftypeCode r < 4 := by cases r <;> decide
theorem bpkCode_lt (r : Bpk) : bpkCode r < 4 := by cases r <;> decide

theorem trioCode_lt (t : Trio) : trioCode t < 2 ^ 11 := by
  have := bitNat_le t.tb
  have := bitNat_le t.tres
  unfold trioCode
  omega

/-- Every modifier fits in the sixteen bits of MOD. -/
theorem modCode_lt (v : ModVal) : modCode v < 2 ^ 16 := by
  cases v with
  | none => decide
  | pfx m =>
    have := vtypeCode_lt m.ty; have := rndCode_lt m.rnd; have := bitNat_le m.sat
    simp only [modCode]; omega
  | slot m => have := bitNat_le m.base; have := bitNat_le m.abs; simp only [modCode]; omega
  | trio t => have := trioCode_lt t; simp only [modCode]; omega
  | alu m => have := bitNat_le m.w; have := bitNat_le m.sgn; have := bitNat_le m.sat; simp only [modCode]; omega
  | test m | bit m | swid m | scale m | pred m => simp only [modCode]; omega
  | cmp m =>
    have := relCode_lt m.rel; have := combCode_lt m.comb; have := bitNat_le m.sgn; have := bitNat_le m.w
    simp only [modCode]; omega
  | mem m =>
    have := sizeCode_lt m.size; have := syncCode_lt m.sync; have := trioCode_lt m.trio; have := bitNat_le m.sx
    simp only [modCode]; omega
  | rst m =>
    have := sizeCode_lt m.size; have := syncCode_lt m.sync; have := trioCode_lt m.trio; have := bitNat_le m.tab
    simp only [modCode]; omega
  | atom m =>
    have := sizeCode_lt m.size; have := placeCode_lt m.place; have := scopeCode_lt m.scope; have := ftypeCode_lt m.ftype
    have := bitNat_le m.ret; have := bitNat_le m.sgn; have := bitNat_le m.fp
    simp only [modCode]; omega
  | fence m => have := scopeCode_lt m.scope; have := fkindCode_lt m.kind; have := bitNat_le m.eng; simp only [modCode]; omega
  | shape m => have := shapeCode_lt m.shape; simp only [modCode]; omega
  | shapeTrio m => have := shapeCode_lt m.shape; have := trioCode_lt m.trio; simp only [modCode]; omega
  | wantTrio m => have := bitNat_le m.want; have := trioCode_lt m.trio; simp only [modCode]; omega
  | copy m =>
    have := spaceCode_lt m.src; have := spaceCode_lt m.dst; have := bitNat_le m.fill; have := bitNat_le m.mc
    simp only [modCode]; omega
  | vec m =>
    have := vtypeCode_lt m.ty; have := rndCode_lt m.rnd; have := bitNat_le m.sat; have := vtypeCode_lt m.ty2
    simp only [modCode]; omega
  | mat m =>
    have := bpkCode_lt m.bpk; have := bitNat_le m.asg; have := bitNat_le m.bsg; have := bitNat_le m.accf
    simp only [modCode]; omega

/- The fields of a word (R70). -/

/-- What a word is made of fits in its fields. -/
theorem word_bounds (o : Ops) (v : ModVal) :
    bitNat o.g.neg ≤ 1 ∧ bitNat o.h.yld ≤ 1 ∧ bitNat o.h.last ≤ 1 ∧ operandBits o.d < 2 ^ 16 ∧ operandBits o.a < 2 ^ 16
      ∧ operandBits o.b < 2 ^ 16 ∧ modCode v < 2 ^ 16 ∧ litParcels (litOf o) ≤ 2 :=
  ⟨bitNat_le _, bitNat_le _, bitNat_le _, operandBits_lt _, operandBits_lt _, operandBits_lt _, modCode_lt v,
    by have := litParcels_le (litOf o); omega⟩

/-- A number's bits are those of a word with an opcode, operands and a modifier, field by field. -/
structure WordFields (w : Nat) (c : Opc) (o : Ops) (v : ModVal) : Prop where
  opc : fieldAt w 0 8 = (opcCode c).toNat
  guard : guardOf w = o.g
  hint : hintOf w = o.h
  d : fieldAt w 12 16 = operandBits o.d
  a : fieldAt w 28 16 = operandBits o.a
  b : fieldAt w 44 16 = operandBits o.b
  modifier : fieldAt w 60 16 = modCode v
  reserved82 : fieldAt w 82 10 = 0
  reserved94 : fieldAt w 94 2 = 0
  lit : fieldAt w 92 2 = litParcels (litOf o)

theorem wordOf_lt (c : Opc) (o : Ops) (v : ModVal) : wordOf c o v < 256 ^ 12 := by
  have := word_bounds o v
  unfold wordOf
  omega

theorem guardOf_wordOf (c : Opc) (o : Ops) (v : ModVal) : guardOf (wordOf c o v) = o.g := by
  have := word_bounds o v
  have hneg : bitAt (wordOf c o v) 11 = o.g.neg := by
    rw [← bitNat_inj, bitNat_bitAt, wordOf]
    omega
  have hprd : fieldAt (wordOf c o v) 8 3 = o.g.prd.toNat := by
    rw [fieldAt, wordOf]
    omega
  rw [guardOf, hneg, hprd, BitVec.ofNat_toNat, BitVec.setWidth_eq]

theorem hintOf_wordOf (c : Opc) (o : Ops) (v : ModVal) : hintOf (wordOf c o v) = o.h := by
  have := word_bounds o v
  have hyld : bitAt (wordOf c o v) 80 = o.h.yld := by
    rw [← bitNat_inj, bitNat_bitAt, wordOf]
    omega
  have hlast : bitAt (wordOf c o v) 81 = o.h.last := by
    rw [← bitNat_inj, bitNat_bitAt, wordOf]
    omega
  have hgap : fieldAt (wordOf c o v) 76 4 = o.h.gap.toNat := by
    rw [fieldAt, wordOf]
    omega
  rw [hintOf, hyld, hlast, hgap, BitVec.ofNat_toNat, BitVec.setWidth_eq]

theorem wordOf_fields (c : Opc) (o : Ops) (v : ModVal) : WordFields (wordOf c o v) c o v := by
  have := word_bounds o v
  have := (opcCode c).isLt
  constructor
  case guard => exact guardOf_wordOf c o v
  case hint => exact hintOf_wordOf c o v
  all_goals
    unfold fieldAt wordOf
    omega

/-- A word is what its fields make up. -/
theorem WordFields.wordOf_eq {c : Opc} {o : Ops} {v : ModVal} {w : Nat} (h : WordFields w c o v) (hw : w < 256 ^ 12) :
    wordOf c o v = w := by
  obtain ⟨hc, hg, hh, hd, ha, hb, hm, h82, h94, hl⟩ := h
  have h0 : w = fieldAt w 0 8 + w / 2 ^ 8 * 2 ^ 8 := by simpa using div_eq_field w 0 8
  have htop : w / 2 ^ 96 = 0 := Nat.div_eq_of_lt hw
  rw [wordOf, ← hc, ← hg, ← hh, ← hd, ← ha, ← hb, ← hm, ← hl]
  simp only [guardOf, hintOf, bitNat_bitAt_eq_field, toNat_ofNat_field]
  conv_rhs => rw [h0, div_eq_field w 8 3, div_eq_field w 11 1, div_eq_field w 12 16, div_eq_field w 28 16, div_eq_field w 44 16,
    div_eq_field w 60 16, div_eq_field w 76 4, div_eq_field w 80 1, div_eq_field w 81 1, div_eq_field w 82 10, h82, div_eq_field w 92 2,
    div_eq_field w 94 2, h94, htop]
  ring

/- The literal of an instruction (R71). -/

/-- Where at most one operand is of kind L, that one takes the literal parcels. -/
theorem filter_isLit {o : Ops} (h : ([o.d, o.a, o.b].filter isLit).length ≤ 1) :
    [o.d, o.a, o.b].filter isLit = if isLit (litOf o) then [litOf o] else [] := by
  unfold litOf
  cases hd : isLit o.d <;> cases ha : isLit o.a <;> cases hb : isLit o.b <;> simp_all [isLit]

theorem length_filter_isLit (o : Ops) :
    ([o.d, o.a, o.b].filter isLit).length = bitNat (isLit o.d) + bitNat (isLit o.a) + bitNat (isLit o.b) := by
  cases hd : isLit o.d <;> cases ha : isLit o.a <;> cases hb : isLit o.b <;> simp [hd, ha, hb, bitNat]

theorem operandsOk_iff {c : Opc} {o : Ops} {v : ModVal} : operandsOk c o v = true ↔
    admits (slotCls c v).1 o.d = true ∧ admits (slotCls c v).2.1 o.a = true ∧ admits (slotCls c v).2.2 o.b = true
      ∧ ([o.d, o.a, o.b].filter isLit).length ≤ 1 := by
  simp [operandsOk, ← length_filter_isLit, and_assoc]

/-- The fields of kind L of a list of operands. -/
theorem filter_kindL (l : List Operand) :
    (l.map operandBits).filter (fun f => f / 4096 == 10) = (l.filter isLit).map operandBits := by
  rw [List.filter_map]
  exact congrArg (List.map operandBits) (List.filter_congr (fun x _ => operandBits_kindL x))

theorem litParcels_of_not_isLit {x : Operand} (h : isLit x = false) : litParcels x = 0 := by
  cases x with
  | l32 y | l64 y => cases h
  | _ => rfl

theorem litNat_of_not_isLit {x : Operand} (h : isLit x = false) : litNat x = 0 := by
  cases x with
  | l32 y | l64 y => cases h
  | _ => rfl

theorem litNat_lt (x : Operand) : litNat x < 256 ^ (4 * litParcels x) := by
  cases x with
  | l32 y => exact y.isLt
  | l64 y => exact y.isLt
  | _ => exact Nat.zero_lt_one

theorem litParcels_fits {x : Operand} (h : isLit x = true) :
    ¬(litParcels x = 0 ∨ (operandBits x % 4096 = 0 ∧ litParcels x = 2) ∨ (operandBits x % 4096 = 1 ∧ litParcels x = 1)) := by
  cases x with
  | l32 _ | l64 _ => simp [litParcels, operandBits]
  | _ => cases h

/-- The only number of parcels that fits a field of kind L is that of its operand. -/
theorem litParcels_of_fits {x : Operand} {n : Nat} (h : isLit x = true)
    (hfit : ¬(n = 0 ∨ (operandBits x % 4096 = 0 ∧ n = 2) ∨ (operandBits x % 4096 = 1 ∧ n = 1))) (hn : n < 3) : litParcels x = n := by
  cases x with
  | l32 _ | l64 _ =>
    simp [litParcels, operandBits] at hfit ⊢
    omega
  | _ => cases h

/- Decoding what was encoded. -/

section

variable {w : Nat} {c : Opc} {o : Ops} {v : ModVal}

theorem decodeHead_of_fields (hw : WordFields w c o v) (hops : operandsOk c o v = true) (hmod : checkMod c (modCode v) = some v) :
    decodeHead w = .ok (c, v, litParcels (litOf o)) := by
  obtain ⟨-, -, -, hone⟩ := operandsOk_iff.mp hops
  have hlits := filter_kindL [o.d, o.a, o.b]
  simp only [List.map_cons, List.map_nil, filter_isLit hone] at hlits
  have hthree : litParcels (litOf o) ≠ 3 := by have := litParcels_le (litOf o); omega
  simp only [decodeHead, hw.opc, opcOf_opcCode, hw.lit, hw.d, hw.a, hw.b, hw.modifier, hw.reserved82, hw.reserved94, hmod, hlits, hthree]
  cases hl : isLit (litOf o) with
  | false => simp [litParcels_of_not_isLit hl]
  | true => simp [litParcels_fits hl]

/-- A literal operand of a well-formed word is the one that takes the literal parcels. -/
theorem litNat_of_operandsOk (hops : operandsOk c o v = true) {x : Operand} (hx : x ∈ [o.d, o.a, o.b]) (hl : isLit x = true) :
    litNat (litOf o) = litNat x := by
  have hmem : x ∈ [o.d, o.a, o.b].filter isLit := List.mem_filter.mpr ⟨hx, hl⟩
  obtain ⟨-, -, -, hone⟩ := operandsOk_iff.mp hops
  rw [filter_isLit hone] at hmem
  split at hmem
  · rw [List.mem_singleton.mp hmem]
  · cases hmem

theorem decodeRest_of_fields {i : Instr} (hw : WordFields w c o v) (hops : operandsOk c o v = true) (hparts : ofParts c o v = some i) :
    decodeRest c v w (litNat (litOf o)) = .ok i := by
  have hread : ∀ x ∈ [o.d, o.a, o.b], operandOf (operandBits x) (litNat (litOf o)) = some x :=
    fun x hx => operandOf_operandBits (litNat_of_operandsOk hops hx)
  obtain ⟨hd, ha, hb, -⟩ := operandsOk_iff.mp hops
  simp [decodeRest, Option.filter_some, hw.d, hw.a, hw.b, hread o.d (by simp), hread o.a (by simp), hread o.b (by simp), hd, ha, hb, hw.guard, hw.hint, hparts]

end

/-- What a well-formed word encodes to decodes to it. -/
theorem decode_word {c : Opc} {o : Ops} {v : ModVal} {i : Instr} (rest : List Byte) (hops : operandsOk c o v = true)
    (hmod : checkMod c (modCode v) = some v) (hparts : ofParts c o v = some i) :
    decode (leBytes 12 (wordOf c o v) ++ leBytes (4 * litParcels (litOf o)) (litNat (litOf o)) ++ rest)
      = .ok (i, lenOf (litParcels (litOf o))) := by
  have hw := wordOf_fields c o v
  have hlt := wordOf_lt c o v
  generalize wordOf c o v = w at hw hlt ⊢
  generalize hb : leBytes 12 w ++ leBytes (4 * litParcels (litOf o)) (litNat (litOf o)) ++ rest = bs
  have hlen : lenOf (litParcels (litOf o)) ≤ bs.length := by
    subst hb
    simp [lenOf, leBytes_length]
  have hword : leNat (bs.take 12) = w := by
    subst hb
    rw [List.append_assoc, List.take_left' (leBytes_length 12 w), leNat_leBytes, Nat.mod_eq_of_lt hlt]
  have hlit : leNat ((bs.drop 12).take (4 * litParcels (litOf o))) = litNat (litOf o) := by
    subst hb
    rw [List.append_assoc, List.drop_left' (leBytes_length 12 w), List.take_left' (leBytes_length _ _), leNat_leBytes,
      Nat.mod_eq_of_lt (litNat_lt (litOf o))]
  have hopc : fieldAt w 0 8 ≠ 0 := hw.opc ▸ opcCode_ne_zero c
  have h12 : ¬bs.length < 12 := by unfold lenOf at hlen; omega
  simp only [decode, if_neg h12, hword, if_neg hopc, decodeHead_of_fields hw hops hmod, if_neg (Nat.not_lt.mpr hlen), hlit,
    decodeRest_of_fields hw hops hparts]


/-- A well-formed term is UDF, a word whose parts are well formed, or a step that no word encodes. -/
theorem wf_cases {i : Instr} (h : i.wf = true) :
    i = .udf ∨ (∃ c o v, partsOf i = some (c, o, v) ∧ operandsOk c o v = true ∧ checkMod c (modCode v) = some v ∧ ofParts c o v = some i)
      ∨ i ≠ .udf ∧ partsOf i = none := by
  unfold Instr.wf at h
  split at h
  · exact .inl rfl
  · next hudf =>
    split at h
    · next c o v hparts =>
      simp only [Bool.and_eq_true, modifierOk, decide_eq_true_eq] at h
      exact .inr (.inl ⟨c, o, v, hparts, h.1.1, h.1.2, h.2⟩)
    · next hparts => exact .inr (.inr ⟨hudf, hparts⟩)

theorem wf_of_parts {i : Instr} {c : Opc} {o : Ops} {v : ModVal} (h : partsOf i = some (c, o, v)) (hops : operandsOk c o v = true)
    (hmod : checkMod c (modCode v) = some v) (hof : ofParts c o v = some i) : i.wf = true := by
  unfold Instr.wf
  split
  · rfl
  · simp [h, hops, modifierOk, hmod, hof]

theorem encode_of_parts {i : Instr} {c : Opc} {o : Ops} {v : ModVal} (h : partsOf i = some (c, o, v)) :
    encode i = some (leBytes 12 (wordOf c o v) ++ leBytes (4 * litParcels (litOf o)) (litNat (litOf o))) := by
  unfold encode
  split
  · cases h
  · simp [h]

theorem encode_of_no_parts {i : Instr} (hi : i ≠ .udf) (h : partsOf i = none) : encode i = none := by
  unfold encode
  split
  · exact absurd rfl hi
  · simp [h]

/-- A word is UDF by its first byte alone (R90). -/
theorem decode_udf {bs : List Byte} (h : 12 ≤ bs.length) (h0 : (bs.getD 0 0).toNat = 0) : decode bs = .ok (.udf, 12) := by
  have hopc : fieldAt (leNat (bs.take 12)) 0 8 = 0 := by
    rw [fieldAt_take_first h, h0]
  simp only [decode, if_neg (Nat.not_lt.mpr h), hopc, if_true]

/- What decodes. -/

/- The parts of a word that an instruction is made from. -/

/-- An instruction that is made from a modifier of one layout has that modifier. -/
theorem partsOf_map {α : Type} {read : ModVal → Option α} {write : α → ModVal} {make : α → Instr} {c : Opc} {o : Ops} {v : ModVal} {i : Instr}
    (hread : ∀ v m, read v = some m → v = write m) (hmake : ∀ m, partsOf (make m) = some (c, o, write m))
    (h : (read v).map make = some i) : partsOf i = some (c, o, v) := by
  obtain ⟨m, hm, rfl⟩ := Option.map_eq_some_iff.mp h
  rw [hmake m, hread v m hm]

theorem eq_of_asNone (v : ModVal) (u : Unit) (h : asNone v = some u) : v = .none := by cases v <;> cases h; rfl
theorem eq_of_asPfx (v : ModVal) (m : PfxMod) (h : asPfx v = some m) : v = .pfx m := by cases v <;> cases h; rfl
theorem eq_of_asSlot (v : ModVal) (m : SlotMod) (h : asSlot v = some m) : v = .slot m := by cases v <;> cases h; rfl
theorem eq_of_asTest (v : ModVal) (m : TestMod) (h : asTest v = some m) : v = .test m := by cases v <;> cases h; rfl
theorem eq_of_asTrio (v : ModVal) (m : Trio) (h : asTrio v = some m) : v = .trio m := by cases v <;> cases h; rfl
theorem eq_of_asAlu (v : ModVal) (m : AluMod) (h : asAlu v = some m) : v = .alu m := by cases v <;> cases h; rfl
theorem eq_of_asBit (v : ModVal) (m : BitMod) (h : asBit v = some m) : v = .bit m := by cases v <;> cases h; rfl
theorem eq_of_asSwid (v : ModVal) (m : SwidMod) (h : asSwid v = some m) : v = .swid m := by cases v <;> cases h; rfl
theorem eq_of_asScale (v : ModVal) (m : ScaleMod) (h : asScale v = some m) : v = .scale m := by cases v <;> cases h; rfl
theorem eq_of_asCmp (v : ModVal) (m : CmpMod) (h : asCmp v = some m) : v = .cmp m := by cases v <;> cases h; rfl
theorem eq_of_asMem (v : ModVal) (m : MemMod) (h : asMem v = some m) : v = .mem m := by cases v <;> cases h; rfl
theorem eq_of_asRst (v : ModVal) (m : RstMod) (h : asRst v = some m) : v = .rst m := by cases v <;> cases h; rfl
theorem eq_of_asPred (v : ModVal) (m : PredMod) (h : asPred v = some m) : v = .pred m := by cases v <;> cases h; rfl
theorem eq_of_asAtom (v : ModVal) (m : AtomMod) (h : asAtom v = some m) : v = .atom m := by cases v <;> cases h; rfl
theorem eq_of_asFence (v : ModVal) (m : FenceMod) (h : asFence v = some m) : v = .fence m := by cases v <;> cases h; rfl
theorem eq_of_asShapeTrio (v : ModVal) (m : ShapeTrio) (h : asShapeTrio v = some m) : v = .shapeTrio m := by cases v <;> cases h; rfl
theorem eq_of_asShape (v : ModVal) (m : ShapeMod) (h : asShape v = some m) : v = .shape m := by cases v <;> cases h; rfl
theorem eq_of_asWantTrio (v : ModVal) (m : WantTrio) (h : asWantTrio v = some m) : v = .wantTrio m := by cases v <;> cases h; rfl
theorem eq_of_asCopy (v : ModVal) (m : CopyMod) (h : asCopy v = some m) : v = .copy m := by cases v <;> cases h; rfl
theorem eq_of_asVec (v : ModVal) (m : VecMod) (h : asVec v = some m) : v = .vec m := by cases v <;> cases h; rfl
theorem eq_of_asMat (v : ModVal) (m : MatMod) (h : asMat v = some m) : v = .mat m := by cases v <;> cases h; rfl

theorem partsOf_of_ofParts {c : Opc} {o : Ops} {v : ModVal} {i : Instr} (h : ofParts c o v = some i) : partsOf i = some (c, o, v) := by
  cases c with
  | nop | br | brx | call | ret | brdec | steer | follow | retire | finish | realign | trap | launch | waitc | waitw | rdts | mov | sel
    | mfx | mtx | pand | por | pxor | pnot | pmov | ptos | feget | feset | pref | areg | aabort | tspawn | abarm | wmark | tmaps | netpost
    | vrand | gang | mzero | mdrain | mwait | sclsend | syscall | tret | ctxsv | ctxld | gauge | gread | tmark | idle | faultrpt | supstep
    => exact partsOf_map (write := fun _ => .none) eq_of_asNone (fun _ => rfl) h
  | pfx => exact partsOf_map eq_of_asPfx (fun _ => rfl) h
  | dlset => exact partsOf_map eq_of_asSlot (fun _ => rfl) h
  | dltest => exact partsOf_map eq_of_asTest (fun _ => rfl) h
  | dlwait | tabwait | abwait | send | sends | netpoll => exact partsOf_map eq_of_asTrio (fun _ => rfl) h
  | add | sub | mul | mulh | div | rem | and | or | xor | andn | shl | shr | sar | rot | min | max | clz | ctz | popc | abs | brev |
    bswap => exact partsOf_map eq_of_asAlu (fun _ => rfl) h
  | bfx | bfi => exact partsOf_map eq_of_asBit (fun _ => rfl) h
  | sext | zext => exact partsOf_map eq_of_asSwid (fun _ => rfl) h
  | lea => exact partsOf_map eq_of_asScale (fun _ => rfl) h
  | cmp | tst => exact partsOf_map eq_of_asCmp (fun _ => rfl) h
  | lds | sts | ldv | stv | vlds | vsts | vldv | vstv | ldx | stx | vgath | vscat | ldg | stg | vldg | vstg | rld =>
    exact partsOf_map eq_of_asMem (fun _ => rfl) h
  | rst => exact partsOf_map eq_of_asRst (fun _ => rfl) h
  | tabtest | acommit | abtest => exact partsOf_map eq_of_asPred (fun _ => rfl) h
  | aadd | amin | amax | aand | aor | axor | axchg | acas | afadd | aredv => exact partsOf_map eq_of_asAtom (fun _ => rfl) h
  | fence => exact partsOf_map eq_of_asFence (fun _ => rfl) h
  | hbar | hbarw => exact partsOf_map eq_of_asShapeTrio (fun _ => rfl) h
  | hbara => exact partsOf_map eq_of_asShape (fun _ => rfl) h
  | fewait => exact partsOf_map eq_of_asWantTrio (fun _ => rfl) h
  | cpy | cpy2 | cpyt | mcast | pce => exact partsOf_map eq_of_asCopy (fun _ => rfl) h
  | vadd | vsub | vmul | vfma | vmin | vmax | vabs | vneg | vand | vor | vxor | vshl | vshr | vcmp | vsel | vdot4 | vrcp | vrsq | vexp2
    | vlog2 | vscale | vredadd | vredmax | vredmin | vargmax | vargmin | vperm | vbcast | vrot | viota | vclamp | vcvt | vquant | vpln |
    vunpln | padd | psub | pmul | pcmp | vdeq => exact partsOf_map eq_of_asVec (fun _ => rfl) h
  | mma | mmaz | mmas => exact partsOf_map eq_of_asMat (fun _ => rfl) h
  | vmovs => exact partsOf_map eq_of_asVec (fun m => by by_cases h0 : m.func = 0 <;> simp only [h0, if_true, if_false] <;> rfl) h

/-- What steps 2 and 3 of R106 have passed. -/
theorem decodeHead_ok {w n : Nat} {c : Opc} {v : ModVal} (h : decodeHead w = .ok (c, v, n)) :
    opcOf (fieldAt w 0 8) = some c ∧ fieldAt w 94 2 = 0 ∧ fieldAt w 82 10 = 0 ∧ checkMod c (fieldAt w 60 16) = some v
      ∧ n = fieldAt w 92 2 ∧ n ≠ 3
      ∧ ([fieldAt w 12 16, fieldAt w 28 16, fieldAt w 44 16].filter (fun f => f / 4096 == 10) = [] ∧ n = 0
        ∨ ∃ f, [fieldAt w 12 16, fieldAt w 28 16, fieldAt w 44 16].filter (fun f => f / 4096 == 10) = [f]
          ∧ ¬(n = 0 ∨ (f % 4096 = 0 ∧ n = 2) ∨ (f % 4096 = 1 ∧ n = 1))) := by
  unfold decodeHead at h
  split at h
  · cases h
  next c' hopc =>
  dsimp only at h
  split at h
  · cases h
  next h94 =>
  split at h
  · cases h
  next h3 =>
  split at h
  · cases h
  next h82 =>
  split at h
  · cases h
  next v' hmod =>
  split at h
  case h_1 hnil =>
    split at h
    · next h0 =>
      cases h
      exact ⟨hopc, not_not.mp h94, not_not.mp h82, hmod, h0.symm, by decide, .inl ⟨hnil, rfl⟩⟩
    · cases h
  case h_2 f hone =>
    split at h
    · cases h
    · next hfit =>
      cases h
      exact ⟨hopc, not_not.mp h94, not_not.mp h82, hmod, rfl, h3, .inr ⟨f, hone, hfit⟩⟩
  case h_3 => cases h

/-- What step 5 of R106 has passed. -/
theorem decodeRest_ok {w lit : Nat} {c : Opc} {v : ModVal} {i : Instr} (h : decodeRest c v w lit = .ok i) :
    ∃ d a b, operandOf (fieldAt w 12 16) lit = some d ∧ operandOf (fieldAt w 28 16) lit = some a ∧ operandOf (fieldAt w 44 16) lit = some b
      ∧ admits (slotCls c v).1 d = true ∧ admits (slotCls c v).2.1 a = true ∧ admits (slotCls c v).2.2 b = true
      ∧ ofParts c { g := guardOf w, h := hintOf w, d := d, a := a, b := b } v = some i := by
  unfold decodeRest at h
  dsimp only at h
  split at h
  · cases h
  next d hd =>
  split at h
  · cases h
  next a ha =>
  split at h
  · cases h
  next b hb =>
  split at h
  · next hof =>
    cases h
    obtain ⟨hd, hda⟩ := Option.filter_eq_some_iff.mp hd
    obtain ⟨ha, haa⟩ := Option.filter_eq_some_iff.mp ha
    obtain ⟨hb, hba⟩ := Option.filter_eq_some_iff.mp hb
    exact ⟨d, a, b, hd, ha, hb, hda, haa, hba, hof⟩
  · cases h

theorem checkMod_eq_some {c : Opc} {m : Nat} {v : ModVal} (h : checkMod c m = some v) : modCode v = m := by
  unfold checkMod at h
  split at h
  · split at h
    · next hv => cases h; exact hv.1
    · cases h
  · cases h

/-- The number of literal parcels is that of the one field of kind L, if there is one, and its operand holds them. -/
theorem literal_of_fields {o : Ops} {n lit : Nat} (hread : ∀ x ∈ [o.d, o.a, o.b], operandOf (operandBits x) lit = some x)
    (hlits : ([o.d, o.a, o.b].filter isLit).map operandBits = [] ∧ n = 0
      ∨ ∃ f, ([o.d, o.a, o.b].filter isLit).map operandBits = [f] ∧ ¬(n = 0 ∨ (f % 4096 = 0 ∧ n = 2) ∨ (f % 4096 = 1 ∧ n = 1)))
    (hlt : n < 4) (h3 : n ≠ 3) (hlit : lit < 256 ^ (4 * n)) :
    ([o.d, o.a, o.b].filter isLit).length ≤ 1 ∧ litParcels (litOf o) = n ∧ litNat (litOf o) = lit := by
  have hone : ([o.d, o.a, o.b].filter isLit).length ≤ 1 := by
    rw [← List.length_map (f := operandBits)]
    rcases hlits with ⟨h, -⟩ | ⟨f, h, -⟩ <;> simp [h]
  rw [filter_isLit hone] at hlits
  refine ⟨hone, ?_⟩
  rcases hlits with ⟨hnil, rfl⟩ | ⟨f, hf, hfit⟩
  · have hno : isLit (litOf o) = false := by
      simpa using hnil
    have hval : litNat (litOf o) = 0 := litNat_of_not_isLit hno
    exact ⟨litParcels_of_not_isLit hno, by omega⟩
  · have hyes : isLit (litOf o) = true := by
      by_contra hno
      simp [hno] at hf
    have hmem : litOf o ∈ [o.d, o.a, o.b].filter isLit := by simp [filter_isLit hone, hyes]
    have hbits : operandBits (litOf o) = f := by simpa [hyes] using hf
    have hparcels : litParcels (litOf o) = n := litParcels_of_fits hyes (hbits ▸ hfit) (by omega)
    exact ⟨hparcels, litNat_of_operandOf (hread _ (List.mem_filter.mp hmem).1) hyes (hparcels ▸ hlit)⟩

/-- The operands that were read, their literal parcels and the fields of the word agree. -/
theorem fields_of_decode {w n lit : Nat} {c : Opc} {v : ModVal} {i : Instr} (hhead : decodeHead w = .ok (c, v, n))
    (hrest : decodeRest c v w lit = .ok i) (hlit : lit < 256 ^ (4 * n)) :
    ∃ o, WordFields w c o v ∧ operandsOk c o v = true ∧ ofParts c o v = some i ∧ litParcels (litOf o) = n ∧ litNat (litOf o) = lit := by
  obtain ⟨hopc, h94, h82, hmod, hn, hn3, hlits⟩ := decodeHead_ok hhead
  obtain ⟨d, a, b, hd, ha, hb, hda, haa, hba, hof⟩ := decodeRest_ok hrest
  let o : Ops := { g := guardOf w, h := hintOf w, d := d, a := a, b := b }
  have hfilter := filter_kindL [d, a, b]
  simp only [List.map_cons, List.map_nil, operandBits_of_operandOf hd, operandBits_of_operandOf ha, operandBits_of_operandOf hb] at hfilter
  have hread : ∀ x ∈ [d, a, b], operandOf (operandBits x) lit = some x := by
    simp [operandBits_of_operandOf hd, operandBits_of_operandOf ha, operandBits_of_operandOf hb, hd, ha, hb]
  have hlt4 : n < 4 := hn ▸ Nat.mod_lt _ (by decide)
  rw [hfilter] at hlits
  obtain ⟨hone, hparcels, hval⟩ := literal_of_fields (o := o) hread hlits hlt4 hn3 hlit
  have hopcode : fieldAt w 0 8 = (opcCode c).toNat := (opcCode_of_opcOf hopc).symm
  exact ⟨o, ⟨hopcode, rfl, rfl, (operandBits_of_operandOf hd).symm, (operandBits_of_operandOf ha).symm, (operandBits_of_operandOf hb).symm,
    (checkMod_eq_some hmod).symm, h82, h94, hn.symm.trans hparcels.symm⟩, operandsOk_iff.mpr ⟨hda, haa, hba, hone⟩, hof, hparcels, hval⟩

/-- The parts that decoding finds are those of a well-formed term, whose encoding they fill bit by bit. -/
theorem decodedWordsEncode : Claims.DecodedWordsEncode := by
  unfold Claims.DecodedWordsEncode
  intro bs i n h
  unfold decode at h
  split at h
  · cases h
  next hlen =>
  dsimp only at h
  split at h
  · cases h
    exact ⟨rfl, Nat.not_lt.mp hlen, fun hne => absurd rfl hne⟩
  split at h
  · cases h
  next c v n hhead =>
  split at h
  · cases h
  next hlong =>
  split at h
  · cases h
  next i hrest =>
  cases h
  have hlen4 : ((bs.drop 12).take (4 * n)).length = 4 * n := by
    simp [lenOf] at hlong ⊢
    omega
  have hlit := leNat_lt ((bs.drop 12).take (4 * n))
  rw [hlen4] at hlit
  obtain ⟨o, hfields, hops, hof, hparcels, hval⟩ := fields_of_decode hhead hrest hlit
  have hparts := partsOf_of_ofParts hof
  have hmod : checkMod c (modCode v) = some v := by
    obtain ⟨-, -, -, hmod, -⟩ := decodeHead_ok hhead
    rw [checkMod_eq_some hmod, hmod]
  refine ⟨wf_of_parts hparts hops hmod hof, Nat.not_lt.mp hlong, fun _ => ?_⟩
  have h12 : (bs.take 12).length = 12 := by simp; omega
  have hword : wordOf c o v = leNat (bs.take 12) := hfields.wordOf_eq (by simpa [h12] using leNat_lt (bs.take 12))
  have hlow : leBytes 12 (leNat (bs.take 12)) = bs.take 12 := by simpa only [h12] using leBytes_leNat (bs.take 12)
  have hhigh := leBytes_leNat ((bs.drop 12).take (4 * n))
  rw [hlen4] at hhigh
  rw [encode_of_parts hparts, hword, hparcels, hval, hlow, hhigh, ← List.take_add, lenOf]

/-- OPC is looked at before anything else of a word (R106). -/
theorem unassignedOpcodes : Claims.UnassignedOpcodes := by
  unfold Claims.UnassignedOpcodes
  intro bs hlen
  refine ⟨decode_udf hlen, fun hne hfree => ?_⟩
  have hopc := fieldAt_take_first hlen
  have hnone : opcOf (bs.getD 0 0).toNat = none := by
    refine Option.eq_none_iff_forall_ne_some.mpr (fun c hc => hfree c (opcCode_of_opcOf hc))
  simp only [decode, if_neg (Nat.not_lt.mpr hlen), hopc, if_neg hne, decodeHead, hnone]

end Sys2Proof.Laws.Coding

section

open Sys2Proof Sys2Proof.Laws.Coding

/-- Settles O1: the word of a well-formed instruction has its parts in its fields, and every check of the decoder reads them back. -/
theorem decodeOfEncode : Obligations.DecodeOfEncode := by
  unfold Obligations.DecodeOfEncode
  intro i bs rest hwf henc
  rcases wf_cases hwf with rfl | ⟨c, o, v, hparts, hops, hmod, hof⟩ | ⟨hudf, hparts⟩
  · cases henc
    exact decode_udf (by simp [Laws.Length.leBytes_length]) rfl
  · rw [encode_of_parts hparts] at henc
    cases henc
    rw [decode_word rest hops hmod hof]
    simp [Laws.Length.leBytes_length, lenOf]
  · rw [encode_of_no_parts hudf hparts] at henc
    cases henc

/-- Settles O2: the decoder takes the fields of a word apart without loss, and looks at OPC first. -/
theorem decodingIsExact : Obligations.DecodingIsExact := ⟨decodedWordsEncode, unassignedOpcodes⟩

/-- Settles O3: the decoder is run on each word. -/
theorem specWords : Obligations.SpecWords := by
  unfold Obligations.SpecWords
  decide +kernel

end
end

section
/-! MFX and MTX (R153 to R156): a state in which MTX of a value that FPFLAGS does not allow waits for the vector engine and does not trap. -/

-- One proof after another: the compile of the whole text has a bound on its memory.
set_option Elab.async false

namespace Sys2Proof.Machine

open Sys2Proof.Claims

/-- The execute stream of core 0 in user mode, behind one vector operation that writes no scalar register. -/
def vectorUnderWay : State := { cores := [(0, { act := some {}, ex := { stopped := false }, vq := [{}] })] }

/-- MTX of 32 to FPFLAGS, which has five bits. -/
def mtxTooLarge : Ops := { d := .x .fpflags, a := .i 32 }

/-- TRAPCAUSE of the core that issues, after a step. -/
def causeAfter (o : Host.Outcome State Fault Refusal) : W64 :=
  match o with
  | .next t => (curCore t).tcause
  | _ => 0

theorem mtxTooLarge_ready : ready (.mtx mtxTooLarge) vectorUnderWay = true := by decide +kernel

theorem mtxTooLarge_notAllowed : ctlValueOk .fpflags (readSrc mtxTooLarge.a vectorUnderWay).1.toNat = false := by decide +kernel

/-- FPFLAGS waits for the vector engine before the value is looked at (R156). -/
theorem mtxTooLarge_waits : causeAfter (exec (.mtx mtxTooLarge) vectorUnderWay) = 0 := by decide +kernel

/-- The trap of a value that is not allowed does not come while FPFLAGS waits. -/
theorem not_controlRegisterTraps : ¬Claims.ControlRegisterTraps := by
  unfold Claims.ControlRegisterTraps
  intro h
  obtain ⟨-, -, hvalue⟩ := h vectorUnderWay mtxTooLarge .fpflags rfl rfl
  obtain ⟨t, hexec, htrap, -⟩ := hvalue rfl (.inr rfl) mtxTooLarge_notAllowed mtxTooLarge_ready
  have hwaits : (curCore t).tcause = 0 := (congrArg causeAfter hexec).symm.trans mtxTooLarge_waits
  exact absurd (htrap.symm.trans hwaits) (by decide)

end Sys2Proof.Machine

section

open Sys2Proof.Machine

/-- Refutes O22: MTX of FPFLAGS by the execute stream waits for the vector and matrix engines before its value is checked (R156), so that a
value which is not allowed does not trap in every state; the statement's last clause does not suppose that nothing is waited for. -/
theorem not_controlRegisters : ¬Obligations.ControlRegisters := by
  rintro ⟨-, -, htraps⟩
  exact not_controlRegisterTraps htraps

end
end

section
/-! Words whose guard is false (R72): what moves a stream on and no more, read after write; where such a word leaves its stream. -/

-- One proof after another: the compile of the whole text has a bound on its memory.
set_option Elab.async false

namespace Sys2Proof.Machine

open Sys2Proof.Claims

/- The core and the stream that issue, after an update. -/

section

variable (s : State)

@[simp] theorem curCore_updCurCore (f : Core → Core) : curCore (updCurCore s f) = f (curCore s) := coreOf_updCore_same s _ f

@[simp] theorem curStream_updCurCore (f : Core → Core) : curStream (updCurCore s f) = streamOf (f (curCore s)) s.cur.2 := by
  rw [curStream, curCore_updCurCore]
  rfl

@[simp] theorem curCore_updCur (f : Stream → Stream) : curCore (updCur s f) = setStream (curCore s) s.cur.2 (f (curStream s)) :=
  curCore_updCurCore s _

@[simp] theorem curStream_updCur (f : Stream → Stream) : curStream (updCur s f) = f (curStream s) := by
  rw [curStream, curCore_updCur]
  exact streamOf_setStream_same _ _ _

theorem otherUnits_updCurCore (f : Core → Core) : OtherUnits s (updCurCore s f) :=
  ⟨rfl, fun _ hc => coreOf_updCore_other s f hc⟩

end

/- A stream that moves on. -/

/-- A stream without its PC, its wait, its PP, its fetched lines, the YLD hint, and what sampling holds of it. -/
def streamBank (t : Stream) : Stream :=
  { t with pc := 0, wait := none, pp := false, buf := [], yld := false, sampleLeft := 0, markEng := false, markDone := false, markFlags := 0,
           markWall := 0 }

theorem streamOf_congr {k l : Core} {p : Bool} (hex : l.ex = k.ex) (hpi : l.pi = k.pi) : streamOf l p = streamOf k p := by
  rw [streamOf, streamOf, hex, hpi]

section

variable (k : Core) (p : Bool) (t : Stream)

theorem sup_setStream : (setStream k p t).sup = k.sup := by cases p <;> rfl
theorem supPc_setStream : (setStream k p t).supPc = k.supPc := by cases p <;> rfl
theorem supWait_setStream : (setStream k p t).supWait = k.supWait := by cases p <;> rfl

end

/-- A core without its streams and without the PC and the wait of its supervisor routine. -/
def coreBank (k : Core) : Core := { k with ex := {}, pi := {}, supPc := 0, supWait := none }

/-- The stream that issues has moved on, and nothing else has changed: no register, no queue, no unit. -/
structure MovesOn (s t : State) : Prop where
  units : OtherUnits s t
  core : coreBank (curCore t) = coreBank (curCore s)
  stream : streamBank (curStream t) = streamBank (curStream s)
  other : streamOf (curCore t) (!s.cur.2) = streamOf (curCore s) (!s.cur.2)

theorem MovesOn.refl (s : State) : MovesOn s s := ⟨⟨rfl, fun _ _ => rfl⟩, rfl, rfl, rfl⟩

theorem coreBank_setStream (k : Core) (p : Bool) (t : Stream) : coreBank (setStream k p t) = coreBank k := by
  cases p <;> rfl

theorem MovesOn.updCur (s : State) {f : Stream → Stream} (h : streamBank (f (curStream s)) = streamBank (curStream s)) : MovesOn s (updCur s f) where
  units := otherUnits_updCurCore s _
  core := by rw [curCore_updCur, coreBank_setStream]
  stream := by rw [curStream_updCur, h]
  other := by rw [curCore_updCur, streamOf_setStream_not]

theorem MovesOn.updSup (s : State) {f : Core → Core} (hbank : coreBank (f (curCore s)) = coreBank (curCore s))
    (hstreams : ∀ p, streamOf (f (curCore s)) p = streamOf (curCore s) p) : MovesOn s (updCurCore s f) where
  units := otherUnits_updCurCore s _
  core := by rw [curCore_updCurCore, hbank]
  stream := by rw [curStream_updCurCore]; exact congrArg streamBank (hstreams _)
  other := by rw [curCore_updCurCore, hstreams]

section

variable {s t u : State} (h : MovesOn s t)

include h

theorem MovesOn.cur : t.cur = s.cur := by
  have hcur := congrArg State.cur h.units.1
  exact hcur

theorem MovesOn.trans (h' : MovesOn t u) : MovesOn s u := by
  have hcur := h.cur
  obtain ⟨⟨hunits, hcores⟩, hcore, hstream, hother⟩ := h
  obtain ⟨⟨hunits', hcores'⟩, hcore', hstream', hother'⟩ := h'
  rw [hcur] at hcores' hother'
  refine ⟨⟨?_, fun c hc => (hcores' c hc).trans (hcores c hc)⟩, hcore'.trans hcore, hstream'.trans hstream, hother'.trans hother⟩
  have hu : { u with cores := s.cores } = { t with cores := s.cores } := congrArg (fun x : State => { x with cores := s.cores }) hunits'
  exact hu.trans hunits

theorem MovesOn.core_field {α : Type} (g : Core → α) (hg : ∀ k, g (coreBank k) = g k) : g (curCore t) = g (curCore s) := by
  rw [← hg, h.core, hg]

theorem MovesOn.stream_field {α : Type} (g : Stream → α) (hg : ∀ x, g (streamBank x) = g x) : g (curStream t) = g (curStream s) := by
  rw [← hg, h.stream, hg]

theorem MovesOn.supNow : supNow t = supNow s := by
  rw [Machine.supNow, Machine.supNow, h.cur, h.core_field Core.sup (fun _ => rfl)]

theorem MovesOn.readS (n : BitVec 6) : readS t n = readS s n := by
  rw [Machine.readS, Machine.readS, h.supNow, h.core_field Core.supS (fun _ => rfl), h.stream_field Stream.s (fun _ => rfl)]

theorem MovesOn.readK (n : BitVec 3) : readK t n = readK s n := by
  rw [Machine.readK, Machine.readK, h.supNow, h.core_field Core.supK (fun _ => rfl), h.stream_field Stream.k (fun _ => rfl)]

theorem MovesOn.frame : Frame s t := by
  refine ⟨h.units, h.core_field coreRest (fun _ => rfl), h.stream_field streamRest (fun _ => rfl), h.other, fun hr => ?_⟩
  rw [h.core_field Core.region (fun _ => rfl), hr]

theorem MovesOn.scalars : ScalarsBut s t [] := by
  intro j _
  refine ⟨h.readS j, fun v hv hd _ => ⟨v, ?_, hd, rfl, rfl⟩⟩
  rwa [h.core_field Core.vq (fun _ => rfl)]

theorem MovesOn.preds : PredsBut s t [] := fun j _ => h.readK j

end

/- The program counter and the wait, read after write. -/

section

variable (s : State)

theorem movesOn_setPc (v : W64) : MovesOn s (setPc s v) := by
  unfold setPc
  split
  · exact MovesOn.updSup s rfl (fun p => by cases p <;> rfl)
  · exact MovesOn.updCur s rfl

theorem movesOn_setWait (w : Option Wait) : MovesOn s (setWait s w) := by
  unfold setWait
  split
  · exact MovesOn.updSup s rfl (fun p => by cases p <;> rfl)
  · exact MovesOn.updCur s rfl

@[simp] theorem pcNow_setPc (v : W64) : pcNow (setPc s v) = v := by
  rw [pcNow, (movesOn_setPc s v).supNow]
  unfold setPc
  split
  · rw [curCore_updCurCore]
  · rw [curStream_updCur]

@[simp] theorem waitNow_setWait (w : Option Wait) : waitNow (setWait s w) = w := by
  rw [waitNow, (movesOn_setWait s w).supNow]
  unfold setWait
  split
  · rw [curCore_updCurCore]
  · rw [curStream_updCur]

/-- Writing the program counter leaves the wait. -/
@[simp] theorem waitNow_setPc (v : W64) : waitNow (setPc s v) = waitNow s := by
  rw [waitNow, waitNow, (movesOn_setPc s v).supNow]
  unfold setPc
  split
  · rw [curCore_updCurCore]
  · rw [curStream_updCur]

theorem supNow_updCur (f : Stream → Stream) : supNow (updCur s f) = supNow s := by
  rw [supNow, supNow, curCore_updCur, sup_setStream]
  rfl

theorem pcNow_updCur {f : Stream → Stream} (h : (f (curStream s)).pc = (curStream s).pc) : pcNow (updCur s f) = pcNow s := by
  rw [pcNow, pcNow, supNow_updCur, curStream_updCur, h, curCore_updCur, supPc_setStream]

theorem waitNow_updCur {f : Stream → Stream} (h : (f (curStream s)).wait = (curStream s).wait) : waitNow (updCur s f) = waitNow s := by
  rw [waitNow, waitNow, supNow_updCur, curStream_updCur, h, curCore_updCur, supWait_setStream]

theorem pp_setPc (v : W64) : (curStream (setPc s v)).pp = (curStream s).pp := by
  unfold setPc
  split
  · rw [curStream_updCurCore]
    exact congrArg Stream.pp (streamOf_congr rfl rfl)
  · rw [curStream_updCur]

theorem pp_setWait (w : Option Wait) : (curStream (setWait s w)).pp = (curStream s).pp := by
  unfold setWait
  split
  · rw [curStream_updCurCore]
    exact congrArg Stream.pp (streamOf_congr rfl rfl)
  · rw [curStream_updCur]

/- Where a stream goes on (R68, R72, R76). -/

theorem passMark_frame (t : Stream) : streamBank (passMark s t) = streamBank t ∧ (passMark s t).pc = t.pc ∧ (passMark s t).wait = t.wait
    ∧ (passMark s t).pp = t.pp := by
  unfold passMark endMark
  repeat' split
  all_goals exact ⟨rfl, rfl, rfl, rfl⟩

/-- The stream whose instruction has completed, at the program counter where it goes on. -/
def passedBy (o : Ops) (npc : Option W64) (pc : W64) (t : Stream) : Stream :=
  { passMark s t with buf := t.buf.filter (fun l => decide (l.line = pc.toNat / 64 ∨ l.line = pc.toNat / 64 + 1)),
                      yld := if npc.isSome then false else t.yld || o.h.yld, sampleLeft := t.sampleLeft - 1 }

variable (o : Ops) (npc : Option W64) (pc : W64)

theorem goOn_eq : goOn s o npc pc
    = if supNow s then setPc (setWait s none) pc else updCur (setPc (setWait s none) pc) (passedBy s o npc pc) := rfl

theorem passedBy_frame (t : Stream) : streamBank (passedBy s o npc pc t) = streamBank t ∧ (passedBy s o npc pc t).pc = t.pc
    ∧ (passedBy s o npc pc t).wait = t.wait ∧ (passedBy s o npc pc t).pp = t.pp := by
  obtain ⟨hbank, hpc, hwait, hpp⟩ := passMark_frame s t
  exact ⟨hbank, hpc, hwait, hpp⟩

/-- A stream that goes on stands at the program counter, waits for nothing, and has moved on. -/
theorem goOn_moves : MovesOn s (goOn s o npc pc) ∧ pcNow (goOn s o npc pc) = pc ∧ waitNow (goOn s o npc pc) = none
    ∧ (curStream (goOn s o npc pc)).pp = (curStream s).pp := by
  have hbase := (movesOn_setWait s none).trans (movesOn_setPc _ pc)
  have hpp : (curStream (setPc (setWait s none) pc)).pp = (curStream s).pp := (pp_setPc _ pc).trans (pp_setWait s none)
  have hwait : waitNow (setPc (setWait s none) pc) = none := by simp
  rw [goOn_eq]
  split
  · exact ⟨hbase, pcNow_setPc _ pc, hwait, hpp⟩
  · obtain ⟨gbank, gpc, gwait, gpp⟩ := passedBy_frame s o npc pc (curStream (setPc (setWait s none) pc))
    refine ⟨hbase.trans (MovesOn.updCur _ gbank), (pcNow_updCur _ gpc).trans (pcNow_setPc _ pc), (waitNow_updCur _ gwait).trans hwait, ?_⟩
    rw [curStream_updCur, gpp, hpp]

end

theorem endMark_frame (w : Nat) (fl : BitVec 4) (t : Stream) : streamBank (endMark w fl t) = streamBank t ∧ (endMark w fl t).pc = t.pc
    ∧ (endMark w fl t).pp = t.pp := by
  unfold endMark
  split <;> exact ⟨rfl, rfl, rfl⟩

theorem usePrefix_moves (s : State) : MovesOn s (usePrefix s s) ∧ pcNow (usePrefix s s) = pcNow s ∧ (curStream (usePrefix s s)).pp = false := by
  unfold usePrefix
  split
  · exact ⟨MovesOn.updCur s rfl, pcNow_updCur s rfl, by rw [curStream_updCur]⟩
  · next hpp => exact ⟨MovesOn.refl s, rfl, by simpa using hpp⟩

/-- A stream that is not stepped has no step to end (R396). -/
theorem afterStep_unstepped {s : State} (h : (supNow s || decide ((curCore s).stepping &&& stepBit s.cur.2 = 0)) = true) :
    afterStep s = s := by
  refine if_pos ?_
  simp only [Bool.or_eq_true, decide_eq_true_eq] at h ⊢
  rcases h with h | h
  · exact .inl (.inl h)
  · exact .inr h

end Sys2Proof.Machine

section

open Sys2Proof.Machine

/-- Settles O9: the word consumes what PFX left pending, ends the mark of a sampled instruction and goes on, each of which only moves the stream on. -/
theorem falseGuardHasNoEffect : Obligations.FalseGuardHasNoEffect := by
  unfold Obligations.FalseGuardHasNoEffect
  intro i m s hm hcheck hguard hstep
  obtain ⟨hprefix, hprefixPc, hprefixPp⟩ := usePrefix_moves s
  obtain ⟨hbank, hmarkPc, hmarkPp⟩ := endMark_frame s.wall 2 (curStream (usePrefix s s))
  have hmark := hprefix.trans (MovesOn.updCur _ hbank)
  obtain ⟨hgo, hpc, hwait, hpp⟩ := goOn_moves (updCur (usePrefix s s) (endMark s.wall 2)) m.o none (nextPc s m.o)
  have hall := hmark.trans hgo
  have hafter := afterStep_unstepped (s := goOn (updCur (usePrefix s s) (endMark s.wall 2)) m.o none (nextPc s m.o))
    (by rw [hall.supNow, hall.core_field Core.stepping (fun _ => rfl), hall.cur, hstep])
  refine ⟨_, (exec_word hm s).trans (issue_unguarded hcheck hguard), ?_⟩
  rw [hafter]
  refine ⟨hpc, hwait, hall.frame, hall.scalars, hall.preds, hall.core_field Core.q (fun _ => rfl), hall.core_field Core.act (fun _ => rfl), ?_⟩
  rw [hpp, curStream_updCur, hmarkPp, hprefixPp]

end
end

section
/-! Every row of the opcode table answers a next state (R72, R89, R106): a word always issues, and a step of an engine refuses only units
that the device has not. -/

-- One proof after another: the compile of the whole text has a bound on its memory.
set_option Elab.async false

namespace Sys2Proof.Machine

/-- A step that refuses the units beyond a number goes on for the others. -/
theorem next_of_lt {n lim : Nat} {t : State} (h : decide (n < lim) = true) :
    ∃ u, (if lim ≤ n then Host.Outcome.fault (.noSuchUnit n) else .next t : Host.Outcome State Fault Refusal) = .next u :=
  ⟨t, if_neg (Nat.not_le.mpr (of_decide_eq_true h))⟩

end Sys2Proof.Machine

section

open Sys2Proof Sys2Proof.Machine

/-- Settles O5, by the rows of the table: the words and the steps that name no unit, the steps that name one, and the host's accesses. -/
theorem everyRowGoesOn : Obligations.EveryRowGoesOn := by
  unfold Obligations.EveryRowGoesOn
  intro i s h inside
  cases i with
  -- the words: each is issued
  | udf | nop | br | brx | call | ret | brdec | steer | follow | retire | finish | realign | trap | pfx | launch | waitc | waitw | rdts |
    dlset | dltest | dlwait | add | sub | mul | mulh | div | rem | and | or | xor | andn | shl | shr | sar | rot | min | max | clz | ctz |
    popc | bfx | bfi | sext | zext | mov | sel | abs | lea | brev | bswap | mfx | mtx | cmp | tst | pand | por | pxor | pnot | pmov | ptos |
    lds | sts | ldv | stv | vlds | vsts | vldv | vstv | ldx | stx | feget | feset | vgath | vscat | ldg | stg | vldg | vstg | rld | rst |
    tabwait | tabtest | pref | aadd | amin | amax | aand | aor | axor | axchg | acas | afadd | aredv | areg | acommit | aabort | tspawn |
    fence | hbar | hbara | hbarw | abarm | abwait | abtest | fewait | wmark | cpy | cpy2 | tmaps | cpyt | send | sends | mcast | netpost |
    netpoll | pce | vadd | vsub | vmul | vfma | vmin | vmax | vabs | vneg | vand | vor | vxor | vshl | vshr | vcmp | vsel | vdot4 | vrcp |
    vrsq | vexp2 | vlog2 | vscale | vredadd | vredmax | vredmin | vargmax | vargmin | vperm | vbcast | vrot | viota | vmovsGet | vmovsPut |
    vclamp | vcvt | vquant | vdeq | vrand | vpln | vunpln | padd | psub | pmul | pcmp | gang | mma | mmaz | mmas | mzero | mdrain | mwait |
    sclsend | syscall | tret | ctxsv | ctxld | gauge | gread | tmark | idle | faultrpt | supstep =>
    exact ⟨_, rfl⟩
  -- the steps that name no unit
  | rackLaunchPacket | dispatcherTakePacket | prereqRecheck | bindTask | priorityAging | preempt | restore | messageForward | graphComplete
    | completionRecord | messageArrival | windowMarkArrival | substationTick | thermalRequestStep | slackReading | supplyOutOfBand |
    brownoutReset | asyncEventArrival | storeLanding | all | invalidationDone | chunkLanding | copyFaultParked | copyFailed | atomicPerform
    | orderedTaskCommit | packetReceive | ackReceive | retransmitTimer | contextClose | remoteOutcomeUnknown | reachabilityProbe |
    remoteReply | cancel | hold | clear | drop | query | sidingExpiry | expired | workRequestComplete | tableRefreshEntry | tableRefreshAll
    | tableRefreshDone | getparam | setparam | dstop | dsave | dgo | rackallow | reset | fwload | measure | powerOnReset | cxlHotReset |
    cxlFlr | watchdog | dispatcherReport | fatalErrorReset | bootPhaseAdvance | getVersion | getCapabilities | negotiateAlgorithms |
    getDigests | getCertificate | challenge | getMeasurements | telemetryRefresh | lastSequenceExpiry =>
    exact ⟨_, rfl⟩
  -- the steps whose first operand is a unit
  | loadingDone | stopBerth | berthFree | berthPriorityRaise | migrate | contextSave | waitConditionMet | timedWaitTimeout | waitCountExpiry
    | realignRelease | deadlineFire | scaleDelivery | predictorQuiet | laneFailure | maxw | packetForward | retryListTimeout | clearAck |
    tabletRackFull | sampleMark | loadDataWritten | fetchLineServed | activationStart | activationEnd | queueDeadlock | idleWake |
    ratioWindowComplete | gearStopStart | gearStopEnd | gearStop | layerImbalance | thermalTrip | asyncEventTaken | go | igo |
    vectorComplete | matrixProductStart | matrixComplete | gangFormed | gangJoinTimeout | gangProductStart | gangTimeout | scaleMissing |
    commit | heldMessageSend | regionTimeout | irrevocableRestart | linkRetrained | linkDown | flitCheckFail | plannedWidthChange |
    deadEntryFree | handlerRewrite | orderedTaskStart | windowPlacement | sampleRecord | peerRead | hbarPhaseComplete =>
    exact next_of_lt h
  | doorbell n => exact ⟨_, if_pos (of_decide_eq_true h)⟩
  | parkDelivery p k | parkDiscard p k =>
    cases p with
    | device => exact ⟨_, rfl⟩
    | berth c b => exact next_of_lt h
  | gaugeSample core idx value =>
    cases core with
    | some c =>
      have hunits : c < 1024 ∧ idx < 4 := of_decide_eq_true h
      exact ⟨s, if_neg (by omega)⟩
    | none => exact next_of_lt h
  | registerWrite bar offset size value =>
    have hbar : bar = 0 ∨ bar = 2 ∨ bar = 4 := of_decide_eq_true h
    exact ⟨_, if_neg (by omega)⟩
  | cxlMemWrite lpddr addr bytes =>
    change if hostRange s lpddr addr bytes.length = true then _ else _
    split
    · next hin => exact ⟨_, if_neg (by simp [hin])⟩
    · next hout => exact if_pos (by simpa using hout)
  | cxlMemRead lpddr addr len =>
    change if hostRange s lpddr addr len = true then _ else _
    split
    · next hin => exact ⟨_, if_neg (by simp [hin])⟩
    · next hout => exact if_pos (by simpa using hout)

end
end

section
/-! Activations (R66 to R68, R109 to R115, R118, R122): what sampling, a gang that ends and the release of USED keep of every core, and what
the steps at the ends of an activation leave. -/

-- One proof after another: the compile of the whole text has a bound on its memory.
set_option Elab.async false

namespace Sys2Proof.Machine

/- What every core keeps. -/

/-- A view of the cores that is the same in two states. -/
def Keeps {α : Type} (g : Core → α) (s t : State) : Prop := ∀ d, g (coreOf t d) = g (coreOf s d)

section

variable {α : Type} {g : Core → α}

theorem Keeps.refl (s : State) : Keeps g s s := fun _ => rfl

theorem Keeps.trans {s t u : State} (h : Keeps g s t) (h' : Keeps g t u) : Keeps g s u := fun d => (h' d).trans (h d)

theorem Keeps.of_cores {s t : State} (h : t.cores = s.cores) : Keeps g s t := fun d => by
  rw [coreOf, h]
  rfl

theorem Keeps.updCore (s : State) (c : Nat) {f : Core → Core} (h : g (f (coreOf s c)) = g (coreOf s c)) : Keeps g s (updCore s c f) := fun d => by
  by_cases hd : d = c
  · rw [hd, coreOf_updCore_same, h]
  · rw [coreOf_updCore_other s f hd]

theorem Keeps.foldl {β : Type} {f : State → β → State} (hf : ∀ t b, Keeps g t (f t b)) (l : List β) (s : State) :
    Keeps g s (l.foldl f s) := by
  induction l generalizing s with
  | nil => exact Keeps.refl s
  | cons b l ih => exact (hf s b).trans (ih _)

end

/- Gauges (R391, R416). -/

/-- A core without its gauges. -/
def ungauged (k : Core) : Core := { k with gauges := Vector.replicate 4 {} }

theorem sampleDevSource_keeps {α : Type} {g : Core → α} (s : State) (src unit v : Nat) : Keeps g s (sampleDevSource s src unit v) := by
  refine Keeps.foldl (fun t p => ?_) s.dgauges s
  split
  · obtain ⟨hcores, -⟩ := sampleDevGauge_sameSupply t p.1 v
    exact Keeps.of_cores hcores
  · exact Keeps.refl t

theorem sampleCoreGauge_keeps (s : State) (c : Nat) (i : BitVec 2) (v : Nat) : Keeps ungauged s (sampleCoreGauge s c i v) := by
  have hset : Keeps ungauged s (setCore s c (gaugeSet (coreOf s c) i (gaugeAdd (gaugeGet (coreOf s c) i) v).1)) :=
    Keeps.updCore s c (f := fun k => gaugeSet k i (gaugeAdd (gaugeGet (coreOf s c) i) v).1) rfl
  unfold sampleCoreGauge
  dsimp only
  split
  · exact hset.trans (Keeps.of_cores rfl)
  · exact hset

/-- A sample changes gauges alone. -/
theorem sampleSource_keeps (s : State) (c : Nat) (b : BitVec 2) (src v : Nat) : Keeps ungauged s (sampleSource s c b src v) := by
  refine (sampleDevSource_keeps s src 0 v).trans (Keeps.foldl (fun t i => ?_) [0, 1, 2, 3] _)
  dsimp only
  split
  · exact sampleCoreGauge_keeps t c i v
  · exact Keeps.refl t

theorem berthAt_congr {k l : Core} (h : l.berths = k.berths) (b : BitVec 2) : berthAt l b = berthAt k b := by
  rw [berthAt, getElem_congr_coll h]
  rfl

theorem Keeps.of_ungauged {s t : State} (h : Keeps ungauged s t) : Keeps Core.berths s t := fun d =>
  have hd := congrArg Core.berths (h d)
  hd

/- Gangs (R261, R263). -/

theorem updMat_keepsBerths (s : State) (c : Nat) (f : Mat → Mat) : Keeps Core.berths s (updMat s c f) := Keeps.updCore s c rfl

theorem loseMark_berths (wall : Nat) (k : Core) : (loseMark wall k).berths = k.berths := by
  unfold loseMark
  split <;> rfl

/-- A core that leaves its gang changes matrix state and marks of sampled instructions, and no berth. -/
theorem leaveGang_keepsBerths (s : State) (c : Nat) : Keeps Core.berths s (leaveGang s c) := by
  unfold leaveGang
  dsimp only
  refine Keeps.trans ?_ (updMat_keepsBerths _ c _)
  split
  · exact Keeps.foldl (fun t d => (updMat_keepsBerths t d _).trans (Keeps.updCore _ d (loseMark_berths _ _))) _ s
  · exact Keeps.foldl (fun t d => updMat_keepsBerths t d _) _ s

/- The choice of a message (R110). -/

/-- A berth without its USED count. -/
def unused (x : Berth) : Berth := { x with used := 0 }

/-- The berths of a core without their USED counts. -/
def unusedBerths (k : Core) : BitVec 2 → Berth := fun b => unused (berthAt k b)

theorem unusedBerths_setBerth {k : Core} {b : BitVec 2} {x : Berth} (h : unused x = unused (berthAt k b)) :
    unusedBerths (setBerth k b x) = unusedBerths k := by
  funext d
  by_cases hd : d = b
  · rw [hd, unusedBerths, berthAt_setBerth_same, h]
    rfl
  · rw [unusedBerths, berthAt_setBerth_other k x hd]
    rfl

/-- The release of USED counts changes nothing else of a berth. -/
theorem resetUsed_keeps (s : State) (c : Nat) : Keeps unusedBerths s (resetUsed s c) := by
  unfold resetUsed
  dsimp only
  split
  · exact Keeps.refl s
  · refine Keeps.foldl (fun t b => Keeps.updCore t c (unusedBerths_setBerth ?_)) allBerthNos s
    dsimp only
    split <;> rfl

theorem resetUsed_berth {α : Type} (s : State) (c : Nat) (b : BitVec 2) (f : Berth → α) (hf : ∀ x, f (unused x) = f x) :
    f (berthAt (coreOf (resetUsed s c) c) b) = f (berthAt (coreOf s c) b) := by
  rw [← hf, ← hf (berthAt (coreOf s c) b)]
  exact congrArg f (congrFun (resetUsed_keeps s c c) b)

theorem resetUsed_graphs (s : State) (c : Nat) : (resetUsed s c).graphs = s.graphs := by
  unfold resetUsed
  dsimp only
  split <;> rfl

/- The start of an activation (R112). -/

/-- The state in which an activation starts, before its start is sampled and the window store is looked at. -/
def startedAct (s : State) (c : Nat) (b : BitVec 2) (ch : BitVec 3) (m : Msg) : State :=
  let k := berthAt (coreOf s c) b
  updBerth (setCore s c (startCore s c b ch m (handlerOf k m) (BitVec.ofNat 64 (tagUtag m.route)) (BitVec.ofNat 64 k.acts))) c b (fun x =>
    { chanSet x ch (chanGet x ch).tail with prio := (graphOf s k.gid).prio, raised := 0, actWall := some s.wall })

theorem coreOf_startedAct (s : State) (c : Nat) (b : BitVec 2) (ch : BitVec 3) (m : Msg) :
    ∃ k, coreOf (startedAct s c b ch m) c
        = setBerth (startCore s c b ch m (handlerOf (berthAt (coreOf s c) b) m) (BitVec.ofNat 64 (tagUtag m.route))
            (BitVec.ofNat 64 (berthAt (coreOf s c) b).acts)) b k
      ∧ k.winStore = (berthAt (coreOf s c) b).winStore := by
  rw [startedAct, updBerth, coreOf_updCore_same, coreOf_setCore_same]
  exact ⟨_, rfl, rfl⟩

/-- Where the window store is empty, the core of a started activation is as the start left it, but for its gauges. -/
theorem ungauged_startAct {s : State} {c : Nat} {b : BitVec 2} (ch : BitVec 3) (m : Msg) (h : (berthAt (coreOf s c) b).winStore = []) :
    ungauged (coreOf (startAct s c b ch m) c) = ungauged (coreOf (startedAct s c b ch m) c) := by
  have hsample : Keeps ungauged (startedAct s c b ch m) (sampleStart (startedAct s c b ch m) c b m) :=
    ((sampleSource_keeps _ _ _ _ _).trans (sampleSource_keeps _ _ _ _ _)).trans (sampleSource_keeps _ _ _ _ _)
  obtain ⟨k, hcore, hstore⟩ := coreOf_startedAct s c b ch m
  have hberths := hsample.of_ungauged c
  have hempty : (berthAt (coreOf (sampleStart (startedAct s c b ch m) c b m) c) b).winStore = [] := by
    rw [berthAt_congr hberths, hcore, berthAt_setBerth_same, hstore, h]
  have hstart : startAct s c b ch m = releaseWins 65 (sampleStart (startedAct s c b ch m) c b m) c b := rfl
  rw [hstart, releaseWins_empty 65 hempty]
  exact hsample c

theorem fieldAt_zero (x n : Nat) : Sys2Proof.fieldAt x 0 n = x % 2 ^ n := by
  simp [Sys2Proof.fieldAt]

/-- What a started activation leaves of its core is what the start made of it, but for gauges and berths. -/
theorem startAct_field {α : Type} {s : State} {c : Nat} {b : BitVec 2} {ch : BitVec 3} {m : Msg} (h : (berthAt (coreOf s c) b).winStore = [])
    (f : Core → α) (hgauges : ∀ k, f (ungauged k) = f k) (hberth : ∀ k b x, f (setBerth k b x) = f k) :
    f (coreOf (startAct s c b ch m) c) = f (startCore s c b ch m (handlerOf (berthAt (coreOf s c) b) m) (BitVec.ofNat 64 (tagUtag m.route))
      (BitVec.ofNat 64 (berthAt (coreOf s c) b).acts)) := by
  obtain ⟨k, hcore, -⟩ := coreOf_startedAct s c b ch m
  rw [← hgauges, ungauged_startAct ch m h, hgauges, hcore, hberth]

/-- The core of a started activation (R112): its streams, its activation, and empty queues. -/
theorem startAct_leaves {s : State} {c : Nat} {b : BitVec 2} {ch : BitVec 3} {m : Msg} (h : (berthAt (coreOf s c) b).winStore = []) :
    let k := berthAt (coreOf s c) b
    let t := coreOf (startAct s c b ch m) c
    t.ex = startStream (coreOf s c).ex ((graphOf s k.gid).code + BitVec.ofNat 64 (4 * Sys2Proof.fieldAt (handlerOf k m).toNat 0 26)) false
        (BitVec.ofNat 64 (tagUtag m.route)) (BitVec.ofNat 64 m.len) (m.sender.setWidth 64) (BitVec.ofNat 64 k.acts) (k.lcore.setWidth 64)
    ∧ t.pi.stopped = !(handlerOf k m).getLsbD 62
    ∧ t.act = some { berth := b, chan := ch, msg := m, handler := handlerOf k m, startCyc := cycOf s c, startWall := s.wall }
    ∧ t.sup = false ∧ t.q = Vector.replicate 16 [] ∧ t.tabexp = 50000 :=
  ⟨startAct_field h Core.ex (fun _ => rfl) (fun _ _ _ => rfl), startAct_field h (fun k => k.pi.stopped) (fun _ => rfl) (fun _ _ _ => rfl),
    startAct_field h Core.act (fun _ => rfl) (fun _ _ _ => rfl), startAct_field h Core.sup (fun _ => rfl) (fun _ _ _ => rfl),
    startAct_field h Core.q (fun _ => rfl) (fun _ _ _ => rfl), startAct_field h Core.tabexp (fun _ => rfl) (fun _ _ _ => rfl)⟩

theorem exec_activationStart {s : State} {c : Nat} {x : Cand} (hc : c < 1024) (hact : (coreOf s c).act = none) (hgear : geared s c = false)
    (h : chooseNext (resetUsed s c) c = some x) : exec (.activationStart c) s = .next (startAct (resetUsed s c) c x.b x.chan x.msg) := by
  change execActivationStart c s = _
  simp [execActivationStart, show ¬1024 ≤ c by omega, hact, hgear, h]

/-- The scalar registers with which a stream starts: five values of its message, and 0 (R112). -/
theorem sGet_startStream (old : Stream) (pc : W64) (stopped : Bool) (s0 s1 s2 s3 s4 : W64) :
    sGet (startStream old pc stopped s0 s1 s2 s3 s4).s 0 = s0 ∧ sGet (startStream old pc stopped s0 s1 s2 s3 s4).s 1 = s1
    ∧ sGet (startStream old pc stopped s0 s1 s2 s3 s4).s 2 = s2 ∧ sGet (startStream old pc stopped s0 s1 s2 s3 s4).s 3 = s3
    ∧ sGet (startStream old pc stopped s0 s1 s2 s3 s4).s 4 = s4
    ∧ ∀ n : BitVec 6, 5 ≤ n.toNat → sGet (startStream old pc stopped s0 s1 s2 s3 s4).s n = 0 := by
  refine ⟨?_, ?_, ?_, ?_, ?_, fun n hn => ?_⟩
  case refine_6 =>
    have hlt := n.isLt
    simp only [sGet, startStream]
    repeat rw [Vector.getElem_set_ne (h := by omega)]
    exact Vector.getElem_replicate _
  all_goals simp [sGet, startStream]

/- The end of an activation (R115). -/

theorem writeTrace_cores (s : State) (c : Nat) (b : BitVec 2) (kind route entry cycs wall : Nat) :
    (writeTrace s c b kind route entry cycs wall).cores = s.cores := by
  unfold writeTrace
  dsimp only
  split <;> rfl

/-- An activation that ends, once its core has left the gang and the end is recorded, sampled and traced (R115, R132, R416, R418). -/
def endNoted (s0 : State) (c : Nat) (a : Act) : State :=
  let s := leaveGang s0 c
  let miss := missedMask (coreOf s c)
  let runc := cycOf s c - a.startCyc
  let s1 := if miss = 0 then s else putRec s { berthRec s c a.berth 0x0603 with engine := 11, detail := leBytes 1 miss }
  let s2 := sampleSource (sampleSource s1 c a.berth 3 runc) c a.berth 4 (s.wall - a.startWall)
  writeTrace s2 c a.berth 1 a.msg.route.toNat (4 * Sys2Proof.fieldAt a.handler.toNat 0 26) (min runc (2 ^ 32 - 1)) a.startWall

theorem endNoted_keepsBerths (s : State) (c : Nat) (a : Act) : Keeps Core.berths s (endNoted s c a) := by
  unfold endNoted
  dsimp only
  refine (leaveGang_keepsBerths s c).trans (Keeps.trans (Keeps.of_cores ?_) (((sampleSource_keeps _ _ _ _ _).trans
    (sampleSource_keeps _ _ _ _ _)).of_ungauged.trans (Keeps.of_cores (writeTrace_cores _ _ _ _ _ _ _ _))))
  split
  · rfl
  · exact putRec_cores _ _

/-- What the end of an activation does to its core, its graph and its berth. -/
theorem closeActivation_eq {s : State} {c : Nat} {a : Act} (h : (coreOf s c).act = some a) :
    ∃ (f : Core → Core) (gid : Nat) (g : Graph → Graph) (k : Berth → Berth),
      closeActivation s c = updBerth (updGraph (updCore (endNoted s c a) c f) gid g) c a.berth k
      ∧ (∀ x, (f x).act = none ∧ (f x).berths = x.berths) ∧ (∀ x, (g x).gid = x.gid)
      ∧ (∀ x, (k x).acts = x.acts + 1 ∧ (k x).pend = x.pend) := by
  unfold closeActivation
  rw [h]
  refine ⟨_, _, _, _, rfl, fun x => ⟨rfl, rfl⟩, fun x => ?_, fun x => ⟨rfl, rfl⟩⟩
  split <;> rfl

/-- The end of an activation counts it at its berth, whose events stay. -/
theorem closeActivation_counts {s : State} {c : Nat} {a : Act} (h : (coreOf s c).act = some a) :
    (coreOf (closeActivation s c) c).act = none
    ∧ (berthAt (coreOf (closeActivation s c) c) a.berth).acts = (berthAt (coreOf s c) a.berth).acts + 1
    ∧ (berthAt (coreOf (closeActivation s c) c) a.berth).pend = (berthAt (coreOf s c) a.berth).pend := by
  obtain ⟨f, gid, g, k, hclose, hf, -, hk⟩ := closeActivation_eq h
  obtain ⟨hact, hberths⟩ := hf (coreOf (endNoted s c a) c)
  obtain ⟨hacts, hpend⟩ := hk (berthAt (coreOf s c) a.berth)
  have hberth : berthAt (f (coreOf (endNoted s c a) c)) a.berth = berthAt (coreOf s c) a.berth :=
    berthAt_congr (hberths.trans (endNoted_keepsBerths s c a c)) a.berth
  rw [hclose, berthAt_updBerth_same, coreOf_updGraph, coreOf_updCore_same, hberth]
  refine ⟨?_, hacts, hpend⟩
  rw [updBerth, coreOf_updCore_same, coreOf_updGraph, coreOf_updCore_same]
  exact hact

theorem exec_activationEnd {s : State} {c : Nat} {a : Act} (hc : c < 1024) (hact : (coreOf s c).act = some a) (hex : (coreOf s c).ex.stopped = true)
    (hpi : (coreOf s c).pi.stopped = true) (hsup : (coreOf s c).sup = false) (hgear : geared s c = false) (hstores : storesLeft s c a.berth = false)
    (hfinish : a.finish = false) : exec (.activationEnd c) s = .next (flushPending (closeActivation s c) c a.berth) := by
  change execActivationEnd c s = _
  simp [execActivationEnd, show ¬1024 ≤ c by omega, hact, hex, hpi, hsup, hgear, hstores, hfinish]

theorem flushPending_nil {s : State} {c : Nat} {b : BitVec 2} (h : (berthAt (coreOf s c) b).pend = []) :
    flushPending s c b = updBerth s c b (fun x => { x with pend := [] }) := by
  rw [flushPending, h]
  rfl

/- Handlers (R118). -/

theorem exec_handlerRewrite {s : State} {c : Nat} {b : BitVec 2} {idx : BitVec 4} {e : W64} (hc : c < 1024)
    (hstate : (berthAt (coreOf s c) b).state ≠ .free)
    (hnew : (berthAt (coreOf s c) b).handlers.getD idx.toNat 0 ≠ e &&& ~~~(BitVec.ofNat 64 (3 * 2 ^ 52))) :
    exec (.handlerRewrite c b idx e) s = .next (updBerth s c b (fun x => { x with handlers := updAt x.handlers idx.toNat (fun _ =>
      let old := (berthAt (coreOf s c) b).handlers.getD idx.toNat 0
      if old.getLsbD 63 then old &&& ~~~(BitVec.ofNat 64 (2 ^ 63)) else e &&& ~~~(BitVec.ofNat 64 (3 * 2 ^ 52))) })) := by
  change execHandlerRewrite c b idx e s = _
  rw [execHandlerRewrite, if_neg (show ¬1024 ≤ c by omega)]
  exact congrArg _ (if_neg (not_or.mpr ⟨hstate, hnew⟩))

theorem updAt_getD {α : Type} (l : List α) (i j : Nat) (f : α → α) (d : α) :
    (updAt l i f).getD j d = if j = i ∧ i < l.length then f (l.getD i d) else l.getD j d := by
  unfold updAt
  split
  · next x hx =>
    obtain ⟨hi, rfl⟩ := List.getElem?_eq_some_iff.mp hx
    by_cases hj : j = i
    · subst hj
      simp [hi]
    · simp [hj, Ne.symm hj]
  · next hx =>
    rw [if_neg (fun h => absurd h.2 (by simpa using hx))]

/- Streams stuck on queues (R122). -/

/-- What the registers of a trap hold at entry to the supervisor routine (R381, R382). -/
theorem enterSup_registers (s : State) (c : Nat) (pilot : Bool) (pc rpc : W64) (t : TrapIn) (inreg : Bool) :
    (coreOf (enterSup s c pilot pc rpc t inreg) c).sup = true ∧ (coreOf (enterSup s c pilot pc rpc t inreg) c).tcause = causeOf t inreg
    ∧ (coreOf (enterSup s c pilot pc rpc t inreg) c).tpc = pc ∧ (coreOf (enterSup s c pilot pc rpc t inreg) c).tinfo = t.info
    ∧ (coreOf (enterSup s c pilot pc rpc t inreg) c).taddr = trapAddr s t ∧ (coreOf (enterSup s c pilot pc rpc t inreg) c).tstream = pilot := by
  rw [enterSup, coreOf_updCore_same]
  exact ⟨rfl, rfl, rfl, rfl, rfl, rfl⟩

theorem exec_queueDeadlock {s : State} {c : Nat} {a : Act} (hc : c < 1024) (hact : (coreOf s c).act = some a) (hsup : (coreOf s c).sup = false)
    (hgear : geared s c = false) (hstuck : stuck (coreOf s c) false = true) (hstuckPi : stuck (coreOf s c) true = true)
    (hex : (coreOf s c).ex.stopped = false) (hvq : (coreOf s c).vq = []) (hmat : (coreOf s c).mat.queue = [])
    (hcopies : s.copies.any (fun k => decide (k.core = c ∧ k.berth = a.berth)) = false) :
    exec (.queueDeadlock c) s = .next (deadlockTrap s c (waitsOnQueue (coreOf s c).ex).isNone
      (queueByte (coreOf s c).ex + 2 ^ 8 * queueByte (coreOf s c).pi)) := by
  change execQueueDeadlock c s = _
  simp only [execQueueDeadlock, if_neg (show ¬1024 ≤ c by omega), hact]
  rw [if_neg (by rw [hsup, hgear, hstuck, hstuckPi, hex, hvq, hmat, hcopies]; simp)]

/-- Outside a region a deadlock is taken as a plain trap. -/
theorem deadlockTrap_plain {s : State} {c : Nat} (pilot : Bool) (info : Nat) (hsup : (coreOf s c).sup = false)
    (hregion : (coreOf s c).region = none) :
    ∃ t, deadlockTrap s c pilot info = enterSup t c pilot (streamOf (coreOf s c) pilot).pc (streamOf (coreOf s c) pilot).pc
      { code := 0x0110, info := BitVec.ofNat 64 info } false := by
  rw [deadlockTrap, hregion]
  exact ⟨_, (if_neg (by simp)).trans (takeTrap_plain hsup hregion)⟩

/- Fetch (R68). -/

/-- The older of two requests, of one time that of the lower fetch stream (R68). -/
def olderReq (best : Option FetchReq) (x : FetchReq) : Option FetchReq :=
  match best with
  | none => some x
  | some y => if x.made < y.made ∨ (x.made = y.made ∧ x.fs < y.fs) then some x else some y

theorem oldestReq_eq (l : List FetchReq) : oldestReq l = l.foldl olderReq none := rfl

/-- The request that is served is one of those made. -/
theorem oldestReq_mem {l : List FetchReq} {r : FetchReq} (h : oldestReq l = some r) : r ∈ l := by
  have hne : l ≠ [] := by
    rintro rfl
    cases h
  obtain ⟨v, hv, hfold⟩ := foldl_choice_mem (f := olderReq) (fun _ => rfl) (fun y x => ite_eq_or_eq _ _ _) hne
  rw [oldestReq_eq, hfold] at h
  cases h
  exact hv

/-- A line given to streams of cores. -/
def giveLines (s : State) (who : List (Nat × Bool)) (l : FetchLine) : State := who.foldl (fun t w => giveLine t w.1 w.2 l) s

theorem giveLines_frame (who : List (Nat × Bool)) (l : FetchLine) (s : State) :
    (giveLines s who l).mem = s.mem ∧ (giveLines s who l).clusters = s.clusters := by
  induction who generalizing s with
  | nil => exact ⟨rfl, rfl⟩
  | cons w who ih => exact ih (giveLine s w.1 w.2 l)

theorem buf_giveLine (s : State) (c : Nat) (p : Bool) (l : FetchLine) (d : Nat) (q : Bool) :
    (streamOf (coreOf (giveLine s c p l) d) q).buf = (streamOf (coreOf s d) q).buf ++ if d = c ∧ q = p then [l] else [] := by
  by_cases hd : d = c
  · subst hd
    rw [giveLine, updStream, coreOf_updCore_same]
    cases p <;> cases q <;> simp [setStream, streamOf]
  · rw [giveLine, updStream, coreOf_updCore_other _ _ hd, if_neg (fun h => hd h.1), List.append_nil]

/-- A stream that a line was given to has it, whatever was given before or after. -/
theorem mem_buf_giveLines {who : List (Nat × Bool)} {l : FetchLine} {s : State} {d : Nat} {q : Bool}
    (h : l ∈ (streamOf (coreOf s d) q).buf ∨ (d, q) ∈ who) : l ∈ (streamOf (coreOf (giveLines s who l) d) q).buf := by
  induction who generalizing s with
  | nil => exact h.resolve_right List.not_mem_nil
  | cons w who ih =>
    refine ih ?_
    rw [buf_giveLine, List.mem_append]
    rcases h with h | h
    · exact .inl (.inl h)
    · rcases List.mem_cons.mp h with h | h
      · subst h
        exact .inl (.inr (by simp))
      · exact .inr h

theorem bufLine_isSome {t : Stream} {l : FetchLine} (h : l ∈ t.buf) : (bufLine t l.pasid l.line).isSome = true := by
  rw [bufLine, List.find?_isSome]
  exact ⟨l, h, by simp⟩

theorem noteTlb_frame (s : State) (st : Nat) (pasid : BitVec 20) (va : Nat) :
    (noteTlb s st pasid va).mem = s.mem ∧ (noteTlb s st pasid va).clusters = s.clusters := by
  unfold noteTlb
  dsimp only
  split <;> exact ⟨rfl, rfl⟩

/-- The requests of a cluster for the line of a request, and the streams that made them. -/
def sameLine (r q : FetchReq) : Bool := decide (q.pasid = r.pasid ∧ q.line = r.line)
def askers (s : State) (n : Nat) (r : FetchReq) : List (Nat × Bool) :=
  ((clusterOf s n).reqs.filter (sameLine r)).map (fun q => (8 * n + q.fs / 2, decide (q.fs % 2 = 1)))

/-- What the cluster holds once a line is fetched: its instruction cache with the line, and the requests for other lines. -/
def lineServed (s : State) (n : Nat) (k : Cluster) (r : FetchReq) (bs : List Byte) : State :=
  giveLines (noteTlb (setCluster s n k) (n / 8) r.pasid (64 * r.line)) (askers s n r) { pasid := r.pasid, line := r.line, bytes := bs }

theorem lineServed_frame (s : State) (n : Nat) (k : Cluster) (r : FetchReq) (bs : List Byte) :
    (lineServed s n k r bs).mem = s.mem ∧ clusterOf (lineServed s n k r bs) n = k := by
  obtain ⟨gmem, gclusters⟩ := giveLines_frame (askers s n r) { pasid := r.pasid, line := r.line, bytes := bs }
    (noteTlb (setCluster s n k) (n / 8) r.pasid (64 * r.line))
  obtain ⟨nmem, nclusters⟩ := noteTlb_frame (setCluster s n k) (n / 8) r.pasid (64 * r.line)
  refine ⟨gmem.trans nmem, ?_⟩
  rw [clusterOf, lineServed, gclusters, nclusters]
  exact clusterOf_setCluster_same s n k

theorem mem_askers {s : State} {n : Nat} {r : FetchReq} (h : r ∈ (clusterOf s n).reqs) :
    (8 * n + r.fs / 2, decide (r.fs % 2 = 1)) ∈ askers s n r :=
  List.mem_map.mpr ⟨r, List.mem_filter.mpr ⟨h, by simp [sameLine]⟩, rfl⟩

/-- The line that was fetched reaches every stream that asked for it, and those requests are no more. -/
theorem exec_fetchLineServed {s : State} {n : Nat} {r : FetchReq} {bs : List Byte} (hn : n < 128) (hr : oldestReq (clusterOf s n).reqs = some r)
    (hgear : (pairOf s (n / 2)).stopped = false) (hline : fetchLine s n r.pasid r.line = .line bs) :
    ∃ k : Cluster, k.reqs = (clusterOf s n).reqs.filter (fun q => !sameLine r q)
      ∧ exec (.fetchLineServed n) s = .next (lineServed s n k r bs) := by
  change ∃ k : Cluster, _ ∧ execFetchLineServed n s = _
  simp only [execFetchLineServed, if_neg (show ¬128 ≤ n by omega), hr, hgear, Bool.false_eq_true, if_false, hline]
  exact ⟨_, by split <;> rfl, rfl⟩

end Sys2Proof.Machine

section

open Sys2Proof.Machine

/-- Settles O49, clause by clause from what each step does. -/
theorem activationSteps : Obligations.ActivationSteps := by
  unfold Obligations.ActivationSteps
  intro s
  refine ⟨?_, ?_, ?_, ?_, ?_⟩
  · intro n r bs hn hr hgear hline
    obtain ⟨k, hreqs, hexec⟩ := exec_fetchLineServed hn hr hgear hline
    obtain ⟨hmem, hcluster⟩ := lineServed_frame s n k r bs
    refine ⟨_, hexec, fun q hq => ?_, bufLine_isSome (mem_buf_giveLines (.inr (mem_askers (oldestReq_mem hr)))), hmem⟩
    rw [hcluster, hreqs, List.mem_filter] at hq
    obtain ⟨-, hother⟩ := hq
    simpa only [sameLine, Bool.not_eq_true', decide_eq_false_iff_not] using hother
  · intro c x hc hact hgear hx hstore k h
    have hstore' := (resetUsed_berth s c x.b Berth.winStore (fun _ => rfl)).trans hstore
    obtain ⟨hex, hpi, hactNow, hsup, hq, htabexp⟩ := startAct_leaves (m := x.msg) (ch := x.chan) hstore'
    rw [resetUsed_berth s c x.b Berth.gid (fun _ => rfl), resetUsed_berth s c x.b Berth.acts (fun _ => rfl),
      resetUsed_berth s c x.b Berth.lcore (fun _ => rfl), resetUsed_berth s c x.b (fun k => handlerOf k x.msg) (fun _ => rfl),
      graphOf_congr (resetUsed_graphs s c), fieldAt_zero] at hex
    rw [resetUsed_berth s c x.b (fun k => handlerOf k x.msg) (fun _ => rfl)] at hpi
    obtain ⟨h0, h1, h2, h3, h4, hrest⟩ := sGet_startStream (coreOf (resetUsed s c) c).ex
      ((graphOf s k.gid).code + BitVec.ofNat 64 (4 * (h.toNat % 2 ^ 26))) false (BitVec.ofNat 64 (tagUtag x.msg.route))
      (BitVec.ofNat 64 x.msg.len) (x.msg.sender.setWidth 64) (BitVec.ofNat 64 k.acts) (k.lcore.setWidth 64)
    refine ⟨_, _, exec_activationStart hc hact hgear hx, hactNow, rfl, rfl, rfl, rfl, ?_⟩
    rw [hex]
    exact ⟨rfl, hpi, rfl, hsup, h0, h1, h2, h3, h4, hrest, rfl, hq, htabexp⟩
  · intro c a hc hact hex hpi hsup hgear hstores hfinish hpend
    obtain ⟨hnone, hacts, hkept⟩ := closeActivation_counts hact
    refine ⟨_, exec_activationEnd hc hact hex hpi hsup hgear hstores hfinish, ?_⟩
    rw [flushPending_nil (hkept.trans hpend)]
    refine ⟨?_, ?_⟩
    · rw [updBerth, coreOf_updCore_same]
      exact hnone
    · rw [berthAt_updBerth_same]
      exact hacts
  · intro c b idx e hc hstate hidx old new hnew
    refine ⟨_, exec_handlerRewrite hc hstate hnew, rfl, ?_, fun j hj => ?_⟩
    · rw [berthAt_updBerth_same, updAt_getD, if_pos ⟨rfl, hidx⟩]
    · rw [berthAt_updBerth_same, updAt_getD, if_neg (fun h => hj h.1)]
  · intro c a hc hact hsup hregion hgear hstuck hstuckPi hwaits hex hvq hmat hcopies
    have hpilot : (waitsOnQueue (coreOf s c).ex).isNone = false := by
      rw [← Option.not_isSome, hwaits]
      rfl
    obtain ⟨u, htrap⟩ := deadlockTrap_plain false (queueByte (coreOf s c).ex + 2 ^ 8 * queueByte (coreOf s c).pi) hsup hregion
    obtain ⟨rsup, rcause, rpc, rinfo, -⟩ := enterSup_registers u c false (coreOf s c).ex.pc (coreOf s c).ex.pc
      { code := 0x0110, info := BitVec.ofNat 64 (queueByte (coreOf s c).ex + 2 ^ 8 * queueByte (coreOf s c).pi) } false
    refine ⟨_, exec_queueDeadlock hc hact hsup hgear hstuck hstuckPi hex hvq hmat hcopies, ?_⟩
    rw [hpilot, htrap]
    exact ⟨rsup, rcause.trans (by simp [causeOf, Sys2Proof.bitNat]), rpc, rinfo⟩

end
end

section
/-! What the ends of activations and the failure of a graph leave (R65, R331, R386): no activation starts in them, and no graph comes or goes. -/

-- One proof after another: the compile of the whole text has a bound on its memory.
set_option Elab.async false

namespace Sys2Proof.Machine

theorem loseMark_act (wall : Nat) (k : Core) : (loseMark wall k).act = k.act := by
  unfold loseMark
  split <;> rfl

/-- Activations have at most ended between two states, and the graphs are those they were. -/
structure Winds (s t : State) : Prop where
  idle : ∀ d, (coreOf s d).act = none → (coreOf t d).act = none
  gids : t.graphs.map (·.gid) = s.graphs.map (·.gid)

namespace Winds

theorem refl (s : State) : Winds s s := ⟨fun _ => id, rfl⟩

theorem trans {s t u : State} (h : Winds s t) (h' : Winds t u) : Winds s u :=
  ⟨fun d hd => h'.idle d (h.idle d hd), h'.gids.trans h.gids⟩

theorem foldl {α : Type} {f : State → α → State} (hf : ∀ t a, Winds t (f t a)) (l : List α) (s : State) : Winds s (l.foldl f s) := by
  induction l generalizing s with
  | nil => exact refl s
  | cons a l ih => exact (hf s a).trans (ih _)

theorem of_cores {s t : State} (hc : t.cores = s.cores) (hg : t.graphs.map (·.gid) = s.graphs.map (·.gid)) : Winds s t :=
  ⟨fun d hd => by rwa [coreOf, hc], hg⟩

theorem updCore (s : State) (c : Nat) {f : Core → Core} (h : (coreOf s c).act = none → (f (coreOf s c)).act = none) :
    Winds s (updCore s c f) where
  idle d hd := by
    by_cases hdc : d = c
    · subst hdc
      rw [coreOf_updCore_same]
      exact h hd
    · rwa [coreOf_updCore_other s f hdc]
  gids := rfl

theorem updBerth (s : State) (c : Nat) (b : BitVec 2) (f : Berth → Berth) : Winds s (updBerth s c b f) := updCore s c id

theorem updMat (s : State) (c : Nat) (f : Mat → Mat) : Winds s (updMat s c f) := updCore s c id

theorem updGraph (s : State) (gid : Nat) {f : Graph → Graph} (hf : ∀ g, (f g).gid = g.gid) : Winds s (updGraph s gid f) :=
  of_cores rfl (map_gid_updGraph s gid hf)

theorem putRec (s : State) (r : RecIn) : Winds s (putRec s r) := by
  unfold Machine.putRec writeRec
  dsimp only
  split
  · exact of_cores rfl rfl
  · refine trans ?_ (updGraph _ _ ?_)
    · exact of_cores rfl rfl
    · exact fun _ => rfl

theorem deviceRec (s : State) (code engine eid : Nat) (detail : List Byte) : Winds s (deviceRec s code engine eid detail) := putRec s _

theorem unboundRec (s : State) (m : Msg) (eid detail : Nat) : Winds s (unboundRec s m eid detail) := putRec s _

theorem sampleDevGauge (s : State) (i v : Nat) : Winds s (sampleDevGauge s i v) := by
  unfold Machine.sampleDevGauge
  dsimp only
  split
  · refine trans ?_ (deviceRec _ _ _ _ _)
    exact of_cores rfl rfl
  · exact of_cores rfl rfl

theorem sampleCoreGauge (s : State) (c : Nat) (i : BitVec 2) (v : Nat) : Winds s (sampleCoreGauge s c i v) := by
  have hset : Winds s (setCore s c (gaugeSet (coreOf s c) i (gaugeAdd (gaugeGet (coreOf s c) i) v).1)) :=
    updCore s c (f := fun k => gaugeSet k i (gaugeAdd (gaugeGet (coreOf s c) i) v).1) id
  unfold Machine.sampleCoreGauge
  dsimp only
  split
  · exact hset.trans (of_cores rfl rfl)
  · exact hset

theorem sampleSource (s : State) (c : Nat) (b : BitVec 2) (src v : Nat) : Winds s (sampleSource s c b src v) := by
  unfold Machine.sampleSource sampleDevSource
  refine trans (foldl (fun t p => ?_) s.dgauges s) (foldl (fun t i => ?_) [0, 1, 2, 3] _)
  · split
    · exact sampleDevGauge t _ v
    · exact refl t
  · dsimp only
    split
    · exact sampleCoreGauge t c i v
    · exact refl t

theorem writeTrace (s : State) (c : Nat) (b : BitVec 2) (kind route entry cycs wall : Nat) :
    Winds s (writeTrace s c b kind route entry cycs wall) := by
  refine of_cores (writeTrace_cores s c b kind route entry cycs wall) ?_
  unfold Machine.writeTrace
  dsimp only
  split <;> rfl

theorem leaveGang (s : State) (c : Nat) : Winds s (leaveGang s c) := by
  unfold Machine.leaveGang
  dsimp only
  refine trans ?_ (updMat _ c _)
  split
  · exact foldl (fun t d => (updMat t d _).trans (updCore _ d (fun h => (loseMark_act _ _).trans h))) _ s
  · exact foldl (fun t d => updMat t d _) _ s

theorem endNoted (s : State) (c : Nat) (a : Act) : Winds s (endNoted s c a) := by
  unfold Machine.endNoted
  dsimp only
  refine (leaveGang s c).trans (trans ?_ (((sampleSource _ _ _ _ _).trans (sampleSource _ _ _ _ _)).trans (writeTrace _ _ _ _ _ _ _ _)))
  split
  · exact refl _
  · exact putRec _ _

theorem closeActivation (s : State) (c : Nat) : Winds s (closeActivation s c) := by
  cases h : (coreOf s c).act with
  | none =>
    unfold Machine.closeActivation
    rw [h]
    exact refl s
  | some a =>
    obtain ⟨f, gid, g, k, hclose, hf, hg, -⟩ := closeActivation_eq h
    rw [hclose]
    exact ((endNoted s c a).trans (updCore _ c (fun _ => (hf _).1))).trans ((updGraph _ gid hg).trans (updBerth _ c a.berth k))

theorem failGraph (s : State) (gid code : Nat) (task : Option Nat) : Winds s (failGraph s gid code task) := by
  unfold Machine.failGraph
  refine trans (foldl (fun t p => updBerth t _ _ _) _ s) (updGraph _ gid ?_)
  exact fun _ => rfl

theorem parkDevice (s : State) (m : Msg) : Winds s (parkDevice s m) := by
  unfold Machine.parkDevice
  split
  · refine trans ?_ (unboundRec _ m _ _)
    exact of_cores rfl rfl
  · exact (unboundRec s m _ _).trans (failGraph _ _ _ _)

theorem moveParked (s : State) (p : Parked) : Winds s (moveParked s p) := by
  unfold Machine.moveParked
  split
  · exact of_cores rfl rfl
  · exact (unboundRec s p.msg _ _).trans (failGraph _ _ _ _)

theorem reslice (s : State) (c : Nat) : Winds s (reslice s c) := by
  unfold Machine.reslice
  exact foldl (fun t b => updBerth t c b _) _ s

theorem releaseBerth (s : State) (c : Nat) (b : BitVec 2) : Winds s (releaseBerth s c b) := by
  unfold Machine.releaseBerth
  dsimp only
  refine trans ?_ (foldl parkDevice _ _)
  refine trans ?_ (foldl moveParked _ _)
  refine trans ?_ (foldl parkDevice _ _)
  refine trans ?_ (reslice _ c)
  refine trans ?_ (updBerth _ c b _)
  refine trans (updCore s c id) (updGraph _ _ ?_)
  exact fun _ => rfl

theorem endRun (s : State) (gid spawn : Nat) (st : OState) : Winds s (endRun s gid spawn st) := by
  unfold Machine.endRun
  refine trans ?_ (updGraph _ gid ?_)
  case refine_2 => exact fun _ => rfl
  split
  · next c b _ =>
    refine trans ?_ (reslice _ c)
    refine trans ?_ (updBerth _ c b _)
    exact trans (updCore s c id) (closeActivation _ c)
  · exact refl s

theorem abortOrdered (fuel : Nat) (s : State) (gid spawn : Nat) (own : Option OState) : Winds s (abortOrdered fuel s gid spawn own) := by
  induction fuel generalizing s spawn own with
  | zero => exact refl s
  | succ fuel ih =>
    have hkids : ∀ (l : List Nat) (s : State), Winds s (l.foldl (fun t i => match (graphOf t gid).ords[i]? with
        | some o => if o.st = .committed ∨ o.st = .discarded then t else Machine.endRun t gid i .discarded
        | none => t) s) := fun l s => foldl (fun t i => by
      split
      · split
        · exact refl t
        · exact endRun t gid i _
      · exact refl t) l s
    have hown : ∀ s : State, Winds s (match own with | some st => Machine.endRun s gid spawn st | none => s) := fun s => by
      split
      · exact endRun s gid spawn _
      · exact refl s
    have hreaders : ∀ (run : Nat) (l : List Nat) (s : State), Winds s (l.foldl (fun t i =>
        if i = spawn then t
        else
          match ordRegion t gid i with
          | some r => if readsForwarded r spawn run then Machine.abortOrdered fuel t gid i (some .accepted) else t
          | none => t) s) := fun run l s => foldl (fun t i => by
      split
      · exact refl t
      · split
        · split
          · exact ih t i _
          · exact refl t
        · exact refl t) l s
    exact (hkids _ s).trans ((hown _).trans (hreaders _ _ _))

end Winds

/- FAIL-TASK and FAIL-GRAPH (R386). -/

theorem logPending_keepsAct (s : State) (c : Nat) (b : BitVec 2) : Keeps Core.act s (logPending s c b) := by
  unfold logPending
  dsimp only
  refine Keeps.trans (Keeps.updCore s c rfl) (Keeps.trans (Keeps.foldl (fun t e => ?_) _ _) (Keeps.updCore _ c rfl))
  split
  · exact Keeps.refl t
  · exact Keeps.of_cores (putRec_cores _ _)

theorem Winds.logPending (s : State) (c : Nat) (b : BitVec 2) : Winds s (logPending s c b) := by
  unfold Machine.logPending
  dsimp only
  refine (Winds.updBerth s c b _).trans (Winds.trans (Winds.foldl (fun t e => ?_) _ _) (Winds.updBerth _ c b _))
  split
  · exact Winds.refl t
  · exact Winds.putRec _ _

theorem Winds.writeAcct (s : State) (c : Nat) (b : BitVec 2) (kind : Nat) : Winds s (writeAcct s c b kind) := Winds.of_cores rfl rfl

theorem Winds.abortedIf (ordered : Bool) (s : State) (gid task : Nat) :
    Winds s (if ordered then Machine.abortOrdered (abortDepth s gid) s gid task none else s) := by
  split
  · exact Winds.abortOrdered _ s gid task none
  · exact Winds.refl s

/-- The task of a running activation fails: the activation has ended (R386). -/
theorem failTask_ends {s : State} {c : Nat} {a : Act} (h : (coreOf s c).act = some a) (code : Nat) :
    (coreOf (failTask s c code) c).act = none ∧ Winds s (failTask s c code) := by
  have hqueued : (coreOf (updCore s c dropQueued) c).act = some a := by rw [coreOf_updCore_same]; exact h
  have hlogged : (coreOf (logPending (updCore s c dropQueued) c a.berth) c).act = some a :=
    (logPending_keepsAct (updCore s c dropQueued) c a.berth c).trans hqueued
  obtain ⟨hclosed, -⟩ := closeActivation_counts hlogged
  have hbefore : Winds s (closeActivation (logPending (updCore s c dropQueued) c a.berth) c) :=
    ((Winds.updCore s c id).trans (Winds.logPending _ c a.berth)).trans (Winds.closeActivation _ c)
  have hafter : Winds (closeActivation (logPending (updCore s c dropQueued) c a.berth) c) (failTask s c code) := by
    unfold failTask
    rw [h]
    dsimp only
    refine Winds.trans ?_ (Winds.abortedIf _ _ _ _)
    refine Winds.trans ?_ (Winds.releaseBerth _ c a.berth)
    refine Winds.trans (Winds.writeAcct _ c a.berth 3) (Winds.updGraph _ _ ?_)
    intro g
    dsimp only
    split <;> rfl
  exact ⟨hafter.idle c hclosed, hbefore.trans hafter⟩

theorem findGraph_isSome_iff {s : State} {gid : Nat} : (findGraph s gid).isSome = true ↔ gid ∈ s.graphs.map (·.gid) := by
  simp [findGraph, List.find?_isSome]

theorem Winds.findGraph {s t : State} (h : Winds s t) {gid : Nat} (hg : (findGraph s gid).isSome = true) : (findGraph t gid).isSome = true := by
  rw [findGraph_isSome_iff] at hg ⊢
  rwa [h.gids]

/-- A graph that is found and fails, is failing. -/
theorem failGraph_failing {s : State} {gid : Nat} (h : (findGraph s gid).isSome = true) (code : Nat) (task : Option Nat) :
    (graphOf (failGraph s gid code task) gid).failing = true := by
  have hstopped : ∀ l : List (Nat × BitVec 2), (findGraph (l.foldl (fun t p => updBerth t p.1 p.2 (fun k =>
      { k with state := .stopping, stopFor := some .failGraph })) s) gid).isSome = true := fun l =>
    (Winds.foldl (fun t p => Winds.updBerth t p.1 p.2 _) l s).findGraph h
  obtain ⟨g, hg⟩ := Option.isSome_iff_exists.mp (hstopped (berthsOf s gid))
  unfold failGraph graphOf
  dsimp only
  rw [findGraph_updGraph_same, hg]
  · rfl
  · exact fun _ => rfl

/-- The double trap of a running activation ends it and fails its graph (R383). -/
theorem doubleTrap_fails {s : State} {c : Nat} {a : Act} (hact : (coreOf s c).act = some a)
    (hgraph : (findGraph s (actBerth (coreOf s c)).gid).isSome = true) (second : Nat) :
    (graphOf (doubleTrap s c second) (actBerth (coreOf s c)).gid).failing = true ∧ (coreOf (doubleTrap s c second) c).act = none := by
  have hrec : ∃ u, Winds s u ∧ u.cores = s.cores ∧ doubleTrap s c second = failBerthGraph u c 0x0114 :=
    ⟨_, Winds.putRec s _, putRec_cores s _, rfl⟩
  obtain ⟨u, hwinds, hcores, hdouble⟩ := hrec
  have hcore : coreOf u c = coreOf s c := by rw [coreOf, hcores]; rfl
  obtain ⟨hended, htask⟩ := failTask_ends (s := u) (c := c) (a := a) (by rw [hcore, hact]) 0x0114
  rw [hdouble, failBerthGraph, hcore]
  exact ⟨failGraph_failing ((hwinds.trans htask).findGraph hgraph) _ _, (Winds.failGraph _ _ _ _).idle c hended⟩

end Sys2Proof.Machine
end

section
/-! The word at a program counter (R66, R67, R106, R107, R383): what a fetch comes to, and what a step that issues does with it. -/

-- One proof after another: the compile of the whole text has a bound on its memory.
set_option Elab.async false

namespace Sys2Proof.Machine

/- The first twelve bytes of a word (R70, R71). -/

/-- A word that decodes is UDF, or its first twelve bytes give its opcode, its modifier and its number of literal parcels. -/
theorem head_of_decode {bs : List Byte} {i : Instr} {n : Nat} (h : decode bs = .ok (i, n)) :
    n = 12 ∨ fieldAt (leNat (bs.take 12)) 0 8 ≠ 0 ∧ ∃ c v k, decodeHead (leNat (bs.take 12)) = .ok (c, v, k) ∧ lenOf k = n := by
  unfold decode at h
  dsimp only at h
  split at h
  · cases h
  · split at h
    · cases h
      exact .inl rfl
    · next h0 =>
      split at h
      · cases h
      · next c v k hhead =>
        split at h
        · cases h
        · split at h
          · cases h
          · cases h
            exact .inr ⟨h0, c, v, k, hhead, rfl⟩

/-- Bytes too few for the literal parcels that their first twelve ask for do not decode yet. -/
theorem decode_short {bs : List Byte} {c : Opc} {v : ModVal} {n : Nat} (h12 : 12 ≤ bs.length) (h0 : fieldAt (leNat (bs.take 12)) 0 8 ≠ 0)
    (hhead : decodeHead (leNat (bs.take 12)) = .ok (c, v, n)) (hlen : bs.length < lenOf n) : decode bs = .error .short := by
  rw [decode, if_neg (by omega)]
  dsimp only
  rw [if_neg h0, hhead]
  exact if_pos hlen

/-- A word decodes from its first twelve bytes, or these ask for its literal parcels. -/
theorem decode_take {bs : List Byte} {i : Instr} (h : decode bs = .ok (i, bs.length)) :
    decode (bs.take 12) = .ok (i, bs.length)
    ∨ decode (bs.take 12) = .error .short ∧ ∃ c v n, decodeHead (leNat (bs.take 12)) = .ok (c, v, n) ∧ lenOf n = bs.length := by
  by_cases h12 : bs.length ≤ 12
  · rw [List.take_of_length_le h12]
    exact .inl h
  · obtain hn | ⟨h0, c, v, n, hhead, hn⟩ := head_of_decode h
    · omega
    · have hlen : (bs.take 12).length = 12 := by rw [List.length_take]; omega
      have htake : (bs.take 12).take 12 = bs.take 12 := by rw [List.take_take, min_self]
      exact .inr ⟨decode_short (c := c) (v := v) (n := n) (by omega) (by rwa [htake]) (by rwa [htake]) (by omega), c, v, n, hhead, hn⟩

theorem length_of_decode {bs : List Byte} {i : Instr} (h : decode bs = .ok (i, bs.length)) : 12 ≤ bs.length := by
  by_contra hlt
  rw [decode, if_pos (by omega)] at h
  cases h

/-- Where the bytes of a word are in the lines of a stream, so are its first ones. -/
theorem gather_take {t : Stream} {pasid : BitVec 20} {a n m : Nat} {bs : List Byte} (h : gather t pasid a n = .bytes bs) (hm : m ≤ n) :
    gather t pasid a m = .bytes (bs.take m) := by
  induction m generalizing a n bs with
  | zero => rfl
  | succ m ih =>
    obtain ⟨n, rfl⟩ : ∃ k, n = k + 1 := ⟨n - 1, by omega⟩
    rw [gather] at h ⊢
    cases hl : bufLine t pasid (a / 64) with
    | none => rw [hl] at h; cases h
    | some l =>
      rw [hl] at h
      cases hf : l.fault with
      | some code => simp only [hf] at h; cases h
      | none =>
        cases hg : gather t pasid (a + 1) n with
        | bytes rest =>
          simp only [hf, hg, Got.bytes.injEq] at h
          subst h
          simp only [hf, ih hg (by omega), List.take_succ_cons]
        | missing line => simp only [hf, hg] at h; cases h
        | trap code addr => simp only [hf, hg] at h; cases h

/-- Where the bytes of a word of the supervisor routine can be read, so can its first ones. -/
theorem supCodes_take {s : State} {c a n m : Nat} {bs : List Byte} (h : supCodes s c a n = .ok bs) (hm : m ≤ n) :
    supCodes s c a m = .ok (bs.take m) := by
  induction m generalizing a n bs with
  | zero => rfl
  | succ m ih =>
    obtain ⟨n, rfl⟩ : ∃ k, n = k + 1 := ⟨n - 1, by omega⟩
    rw [supCodes] at h ⊢
    cases hb : supCode s c a with
    | error e => simp only [hb] at h; cases h
    | ok b =>
      cases hr : supCodes s c (a + 1) n with
      | error e => simp only [hb, hr] at h; cases h
      | ok rest =>
        simp only [hb, hr, Except.ok.injEq] at h
        subst h
        simp only [ih hr (by omega), List.take_succ_cons]

theorem inCode_of_le {g : Graph} {pc m n : Nat} (h : inCode g pc n = true) (hm : m ≤ n) : inCode g pc m = true := by
  simp only [inCode, rangeIn, decide_eq_true_eq] at h ⊢
  omega

/- What a fetch of user code comes to (R67, R106). -/

/-- The n bytes at the PC of a stream lie in the code of its graph. -/
abbrev wordInside (s : State) (c : Nat) (pilot : Bool) (n : Nat) : Bool :=
  inCode (graphOf s (actBerth (coreOf s c)).gid) (streamOf (coreOf s c) pilot).pc.toNat n

/-- The n bytes at the PC of a stream, from the lines it has. -/
abbrev wordBytes (s : State) (c : Nat) (pilot : Bool) (n : Nat) : Got :=
  gather (streamOf (coreOf s c) pilot) (actBerth (coreOf s c)).pasid (streamOf (coreOf s c) pilot).pc.toNat n

section

variable {s : State} {c : Nat} {pilot : Bool}

theorem fetchAt_outside (hin : wordInside s c pilot 12 = false) :
    fetchAt s c pilot = .trap { code := 0x0205 } := by
  rw [fetchAt]
  exact if_pos hin

variable (hin : wordInside s c pilot 12 = true)

include hin

theorem fetchAt_missing {l : Nat} (h : wordBytes s c pilot 12 = .missing l) :
    fetchAt s c pilot = .ask l := by
  simp only [fetchAt, hin, h, Bool.true_eq_false, if_false]

theorem fetchAt_trap {code a : Nat} (h : wordBytes s c pilot 12 = .trap code a) :
    fetchAt s c pilot = .trap { code := code, addr := some (BitVec.ofNat 64 a) } := by
  simp only [fetchAt, hin, h, Bool.true_eq_false, if_false]

variable {w : List Byte} (hw : wordBytes s c pilot 12 = .bytes w)

include hw

theorem fetchAt_refused {e : DErr} (h : decode w = .error e) (he : e ≠ .short) :
    fetchAt s c pilot = .trap { code := derrCode e, info := BitVec.ofNat 64 (derrField e) } := by
  cases e with
  | short => exact absurd rfl he
  | _ => simp only [fetchAt, hin, hw, h, Bool.true_eq_false, if_false]

theorem fetchAt_word {i : Instr} {n : Nat} (h : decode w = .ok (i, n)) : fetchAt s c pilot = .instr i := by
  simp only [fetchAt, hin, hw, h, Bool.true_eq_false, if_false]

variable {op : Opc} {v : ModVal} {n : Nat} (hshort : decode w = .error .short) (hhead : decodeHead (leNat w) = .ok (op, v, n))

include hshort hhead

theorem fetchAt_long_outside (h : wordInside s c pilot (lenOf n) = false) :
    fetchAt s c pilot = .trap { code := 0x0205 } := by
  simp only [fetchAt, hin, hw, hshort, hhead, h, Bool.true_eq_false, if_false, if_true]

variable (hlong : wordInside s c pilot (lenOf n) = true)

include hlong

theorem fetchAt_long_trap {code a : Nat} (h : wordBytes s c pilot (lenOf n) = .trap code a) :
    fetchAt s c pilot = .trap { code := code, addr := some (BitVec.ofNat 64 a) } := by
  simp only [fetchAt, hin, hw, hshort, hhead, hlong, h, Bool.true_eq_false, if_false]

variable {bs : List Byte} (hbs : wordBytes s c pilot (lenOf n) = .bytes bs)

include hbs

theorem fetchAt_long_refused {e : DErr} (h : decode bs = .error e) :
    fetchAt s c pilot = .trap { code := derrCode e, info := BitVec.ofNat 64 (derrField e) } := by
  simp only [fetchAt, hin, hw, hshort, hhead, hlong, hbs, h, Bool.true_eq_false, if_false]

theorem fetchAt_long_word {i : Instr} {k : Nat} (h : decode bs = .ok (i, k)) : fetchAt s c pilot = .instr i := by
  simp only [fetchAt, hin, hw, hshort, hhead, hlong, hbs, h, Bool.true_eq_false, if_false]

end

/-- A stream whose bytes at the PC decode fetches the instruction they decode to. -/
theorem fetchAt_decoded {s : State} {c : Nat} {pilot : Bool} {bs : List Byte} {i : Instr} (h : decode bs = .ok (i, bs.length))
    (hin : wordInside s c pilot bs.length = true) (hbs : wordBytes s c pilot bs.length = .bytes bs) :
    fetchAt s c pilot = .instr i := by
  have h12 := length_of_decode h
  have hin12 := inCode_of_le hin h12
  have hw := gather_take hbs h12
  obtain hword | ⟨hshort, op, v, n, hhead, hn⟩ := decode_take h
  · exact fetchAt_word hin12 hw hword
  · rw [← hn] at hin hbs
    exact fetchAt_long_word hin12 hw hshort hhead hin hbs h

/- What a fetch of the supervisor routine comes to (R383). -/

section

variable {s : State} {c : Nat}

theorem fetchSup_unread {e : Nat} (h : supCodes s c (coreOf s c).supPc.toNat 12 = .error e) : fetchSup s c = .trap { code := e } := by
  simp only [fetchSup, h]

theorem fetchSup_refused {w : List Byte} {e : DErr} (hw : supCodes s c (coreOf s c).supPc.toNat 12 = .ok w) (h : decode w = .error e)
    (he : e ≠ .short) : fetchSup s c = .trap { code := derrCode e, info := BitVec.ofNat 64 (derrField e) } := by
  cases e with
  | short => exact absurd rfl he
  | _ => simp only [fetchSup, hw, h]

theorem fetchSup_decoded {bs : List Byte} {i : Instr} (hbs : supCodes s c (coreOf s c).supPc.toNat bs.length = .ok bs)
    (h : decode bs = .ok (i, bs.length)) : fetchSup s c = .instr i := by
  have hw := supCodes_take hbs (length_of_decode h)
  obtain hword | ⟨hshort, op, v, n, hhead, hn⟩ := decode_take h
  · simp only [fetchSup, hw, hword]
  · rw [← hn] at hbs
    simp only [fetchSup, hw, hshort, hhead, hbs, h]

end

/-- The agenda says nothing of the bytes of the supervisor routine. -/
theorem supCodes_agenda (s : State) (r : List Move) (c a n : Nat) : supCodes { s with agenda := r } c a n = supCodes s c a n := by
  induction n generalizing a with
  | zero => rfl
  | succ n ih =>
    have hcode : supCode { s with agenda := r } c a = supCode s c a := by
      unfold supCode
      rfl
    rw [supCodes, supCodes, hcode, ih]

/- A step that issues (R384, R396). -/

section

variable {s : State} {c : Nat} {pilot : Bool} (hcan : canIssue s c pilot = true) (hstep : stepDue (coreOf s c) = none)
  (hevent : pilot = eventStream s c → eventDue s c = none)

include hcan hstep hevent

/-- A stream that may issue, with no STEP due and no event before it, does issue. -/
theorem issueMove_issues : issueMove c pilot s = if pilot then pilotMove c s else issueNow s c false := by
  have hmay : mayIssue s c pilot = true := by
    simp only [canIssue, Bool.and_eq_true] at hcan
    exact hcan.1.1
  have hnoevent : ¬((eventDue s c).isSome = true ∧ pilot = eventStream s c) := by
    rintro ⟨hdue, hpilot⟩
    rw [hevent hpilot] at hdue
    cases hdue
  simp only [issueMove, hmay, hstep, hcan, if_neg hnoevent, Bool.true_eq_false, Option.isSome_none, Bool.false_eq_true, if_false]

/-- A stream whose fetch is no instruction does what the fetch comes to, the pilot where the execute stream does not trap. -/
theorem issueMove_unfetched (hfetch : ∀ i, fetchNow s c pilot ≠ .instr i) {t : State}
    (hissue : issueNow s c pilot = .next t) (htrap : pilot = true → trapsNow s c false = none) : issueMove c pilot s = .next t := by
  rw [issueMove_issues hcan hstep hevent]
  cases pilot with
  | false => exact hissue
  | true =>
    have hsecond : comesSecond s c = false := by
      unfold comesSecond
      split
      · next i hi => exact absurd hi (hfetch i)
      · exact Bool.and_false _
    rw [if_pos rfl, pilotMove, hsecond, hissue, htrap rfl]
    simp [yieldTrap]

end

/- A fetch that ends in a trap (R107). -/

theorem abandonHbar_mem (s : State) (c : Nat) (w : Wait) : (abandonHbar s c w).mem = s.mem := by
  unfold abandonHbar
  split
  · split
    · dsimp only
      split <;> rfl
    · split <;> rfl
  · rfl

theorem abandonEngine_mem (s : State) (c : Nat) (w : Wait) : (abandonEngine s c w).mem = s.mem := by
  unfold abandonEngine
  split <;> rfl

theorem abandonWait_mem (s : State) (c : Nat) (pilot : Bool) : (abandonWait s c pilot).mem = s.mem := by
  unfold abandonWait
  split
  · rfl
  · exact (abandonEngine_mem _ c _).trans (abandonHbar_mem s c _)

theorem enterSup_mem (s : State) (c : Nat) (pilot : Bool) (pc rpc : W64) {t : TrapIn} (inreg : Bool) (ht : t.mat = false) :
    (enterSup s c pilot pc rpc t inreg).mem = s.mem := by
  unfold enterSup
  dsimp only
  rw [ht]
  exact (abandonWait_mem _ c true).trans (abandonWait_mem s c false)

theorem markTrap_mem (s : State) (c : Nat) (pilot : Bool) (t : TrapIn) : (markTrap s c pilot t).mem = s.mem := by
  unfold markTrap
  split <;> rfl

theorem causeOf_sync (code : Nat) (addr : Option W64) (info : W64) :
    causeOf { code := code, addr := addr, info := info } false = BitVec.ofNat 64 code := by
  simp [causeOf, Sys2Proof.bitNat]

/-- The state in which a fetch that fails is trapped: the stream has issued in this cyc. -/
def fetchIssued (s : State) (c : Nat) (pilot : Bool) : State := { setIssued s c pilot with cur := (c, pilot) }

theorem coreOf_fetchIssued (s : State) (c : Nat) (pilot : Bool) :
    coreOf (fetchIssued s c pilot) c = { coreOf s c with issued := (coreOf s c).issued ||| stepBit pilot } :=
  coreOf_updCore_same s c (fun k => { k with issued := k.issued ||| stepBit pilot })

theorem pc_fetchIssued (s : State) (c : Nat) (pilot : Bool) :
    (streamOf (coreOf (fetchIssued s c pilot) c) pilot).pc = (streamOf (coreOf s c) pilot).pc := by
  rw [coreOf_fetchIssued]
  cases pilot <;> rfl

/-- What the trap of a word that is not fetched leaves, outside regions: the trap registers, and memory as it was. -/
theorem fetchFails_leaves {s : State} {c : Nat} {pilot : Bool} {code : Nat} {addr : Option W64} {info : W64}
    (hsup : (coreOf s c).sup = false) (hregion : (coreOf s c).region = none) :
    let t := fetchFails s c pilot { code := code, addr := addr, info := info }
    let pc := (streamOf (coreOf s c) pilot).pc
    (coreOf t c).sup = true ∧ (coreOf t c).tcause = BitVec.ofNat 64 code ∧ (coreOf t c).tinfo = info ∧ (coreOf t c).tpc = pc
    ∧ (coreOf t c).taddr = addr.getD pc ∧ (coreOf t c).tstream = pilot ∧ t.mem = s.mem := by
  intro t pc
  have hsup' : (coreOf (fetchIssued s c pilot) c).sup = false := by rw [coreOf_fetchIssued]; exact hsup
  have hregion' : (coreOf (fetchIssued s c pilot) c).region = none := by rw [coreOf_fetchIssued]; exact hregion
  have henter : t = enterSup (markTrap (fetchIssued s c pilot) c pilot { code := code, addr := some (addr.getD pc), info := info })
      c pilot pc pc { code := code, addr := some (addr.getD pc), info := info } false := by
    change fetchTrap (fetchIssued s c pilot) c pilot _ = _
    rw [fetchTrap, hsup', if_neg (by simp), pc_fetchIssued]
    exact takeTrap_plain hsup' hregion'
  rw [henter]
  obtain ⟨rsup, rcause, rpc, rinfo, raddr, rstream⟩ := enterSup_registers
    (markTrap (fetchIssued s c pilot) c pilot { code := code, addr := some (addr.getD pc), info := info })
    c pilot pc pc { code := code, addr := some (addr.getD pc), info := info } false
  exact ⟨rsup, rcause.trans (causeOf_sync _ _ _), rinfo, rpc, raddr.trans (trapAddr_some rfl), rstream,
    (enterSup_mem _ c pilot pc pc false rfl).trans (markTrap_mem _ c pilot _)⟩

/-- Where the supervisor routine cannot be fetched, its activation ends and its graph fails (R383). -/
theorem fetchFails_double {s : State} {c : Nat} {a : Act} (hsup : (coreOf s c).sup = true) (hact : (coreOf s c).act = some a)
    (hgraph : (findGraph s (actBerth (coreOf s c)).gid).isSome = true) (t : TrapIn) :
    (graphOf (fetchFails s c false t) (actBerth (coreOf s c)).gid).failing = true ∧ (coreOf (fetchFails s c false t) c).act = none := by
  have hgid : (actBerth (coreOf (fetchIssued s c false) c)).gid = (actBerth (coreOf s c)).gid := by rw [coreOf_fetchIssued]; rfl
  have hsup' : (coreOf (fetchIssued s c false) c).sup = true := by rw [coreOf_fetchIssued]; exact hsup
  have hdouble : fetchFails s c false t = doubleTrap (fetchIssued s c false) c t.code := takeTrap_double hsup'
  rw [hdouble, ← hgid]
  exact doubleTrap_fails (by rw [coreOf_fetchIssued]; exact hact) (by rw [hgid]; exact hgraph) t.code

/- A line that has not come (R68). -/

theorem askLine_frame (s : State) (c : Nat) (pilot : Bool) (pasid : BitVec 20) (line : Nat) :
    (askLine s c pilot pasid line).mem = s.mem ∧ (askLine s c pilot pasid line).cores = s.cores := by
  unfold askLine
  dsimp only
  split <;> exact ⟨rfl, rfl⟩

/-- A line that has not come stands among the requests of the cluster, but where the request is parked. -/
theorem askLine_asks {s : State} {c : Nat} (pilot : Bool) (pasid : BitVec 20) (line : Nat) (hparked : (stationOf s (stationNo c)).parked = []) :
    ∃ q ∈ (clusterOf (askLine s c pilot pasid line) (clusterNo c)).reqs, q.fs = fetchNo c pilot ∧ q.pasid = pasid ∧ q.line = line := by
  unfold askLine
  dsimp only
  rw [hparked]
  split
  · next h =>
    simp only [List.any_nil, Bool.false_or, List.any_eq_true, decide_eq_true_eq] at h
    obtain ⟨q, hq, hfs, hline, hpasid⟩ := h
    exact ⟨q, hq, hfs, hpasid, hline⟩
  · rw [clusterOf_setCluster_same]
    exact ⟨_, List.mem_append_right _ (List.mem_singleton.mpr rfl), rfl, rfl, rfl⟩

/- The step (R67, R106, R384). -/

/-- A stream whose word decodes runs it, the pilot with regard to what the execute stream does in the cyc. -/
theorem stepRunsWord : Sys2Proof.Claims.StepRunsWord := by
  intro s c pilot r i bs n hagenda hcan hstep hevent hsup hn hdec hbs hin s1
  subst hn
  have hfetch : fetchNow s1 c pilot = .instr i := by
    have hat : fetchAt s1 c pilot = .instr i := fetchAt_decoded (s := s1) hdec hin hbs
    rw [fetchNow, if_neg (by rw [show (coreOf s1 c).sup = false from hsup]; simp), hat]
  have hnow : issueNow s1 c pilot = exec i (issuing s1 c pilot) := by rw [issueNow, hfetch]
  have hmove : step s = if pilot then pilotMove c s1 else issueNow s1 c false := by
    rw [step_agenda hagenda]
    exact issueMove_issues (s := s1) hcan hstep hevent
  refine ⟨fun hp => ?_, fun hp hfirst t ht => ?_, fun hp hsecond t ht => ?_⟩
  · subst hp
    exact hmove.trans hnow
  · subst hp
    rw [hmove, if_pos rfl, pilotMove, comesSecond, hfetch]
    dsimp only
    rw [hfirst, hnow, ht]
    rfl
  · subst hp
    rw [hmove, if_pos rfl, pilotMove, comesSecond, hfetch]
    dsimp only
    rw [hsecond, ht]
    rfl

/-- A word that fails steps 1 to 5 traps, whichever of them it fails. -/
theorem fetchFailuresTrap : Sys2Proof.Claims.FetchFailuresTrap := by
  intro s c pilot r hagenda hcan hstep hevent hsup hregion htrap x pasid inside got Traps Refused
  have hnow : ∀ f : Fetch, fetchAt s c pilot = f → fetchNow { s with agenda := r } c pilot = f := fun f hf => by
    rw [fetchNow, if_neg (by rw [show (coreOf { s with agenda := r } c).sup = false from hsup]; simp)]
    exact hf
  have hmove : ∀ f : Fetch, fetchAt s c pilot = f → (∀ i, f ≠ .instr i) → ∀ t, issueNow { s with agenda := r } c pilot = .next t →
      step s = .next t := fun f hf hi t ht => by
    rw [step_agenda hagenda]
    exact issueMove_unfetched (s := { s with agenda := r }) hcan hstep hevent (fun i h => hi i ((hnow f hf).symm.trans h)) ht htrap
  have traps : ∀ code field addr a, fetchAt s c pilot = .trap { code := code, addr := addr, info := BitVec.ofNat 64 field } →
      addr.getD x.pc = a → Traps code field a := fun code field addr a hf ha => by
    obtain ⟨rsup, rcause, rinfo, rpc, raddr, rstream, rmem⟩ := fetchFails_leaves (s := { s with agenda := r }) (c := c) (pilot := pilot)
      (code := code) (addr := addr) (info := BitVec.ofNat 64 field) hsup hregion
    refine ⟨_, hmove _ hf (fun i => Fetch.noConfusion) _ (by rw [issueNow, hnow _ hf]), rsup, rcause, rinfo, rpc, raddr.trans ha, rstream, rmem⟩
  have refused : ∀ e, e ≠ .short → fetchAt s c pilot = .trap { code := derrCode e, info := BitVec.ofNat 64 (derrField e) } → Refused e := by
    intro e he hf
    cases e with
    | short => exact absurd rfl he
    | opcode => exact traps _ _ _ _ hf rfl
    | operand n => exact traps _ _ _ _ hf rfl
    | encoding n => exact traps _ _ _ _ hf rfl
  refine ⟨fun hout => traps _ 0 none _ (fetchAt_outside (Bool.eq_false_iff.mpr hout)) rfl, fun hin => ⟨fun code a hgot => ?_, fun l hgot => ?_,
    fun w e hgot hdec he => ?_, fun w op v n hgot hdec hhead => ⟨fun hout => ?_, fun hlong => ⟨fun code a hgot' => ?_,
      fun bs e hgot' hdec' he => ?_⟩⟩⟩⟩
  · exact traps _ 0 _ _ (fetchAt_trap hin hgot) rfl
  · obtain ⟨amem, acores⟩ := askLine_frame { s with agenda := r } c pilot pasid l
    have hcore : coreOf (askLine { s with agenda := r } c pilot pasid l) c = coreOf s c := by rw [coreOf, acores]; rfl
    have hask := fetchAt_missing hin hgot
    refine ⟨_, hmove _ hask (fun i => Fetch.noConfusion) _ (by rw [issueNow, hnow _ hask]), ?_⟩
    exact ⟨(congrArg Core.sup hcore).trans hsup, congrArg (fun k => (streamOf k pilot).pc) hcore, amem,
      askLine_asks (s := { s with agenda := r }) pilot pasid l⟩
  · exact refused e he (fetchAt_refused hin hgot hdec he)
  · exact traps _ 0 none _ (fetchAt_long_outside hin hgot hdec hhead (Bool.eq_false_iff.mpr hout)) rfl
  · exact traps _ 0 _ _ (fetchAt_long_trap hin hgot hdec hhead hlong hgot') rfl
  · exact refused e he (fetchAt_long_refused hin hgot hdec hhead hlong hgot' hdec')

/-- The supervisor routine runs the words of its own bytes, and a word of it that fails is a double trap. -/
theorem supervisorSteps : Sys2Proof.Claims.SupervisorSteps := by
  intro s c r hagenda hcan hsup got gid
  have hnow : fetchNow { s with agenda := r } c false = fetchSup { s with agenda := r } c := if_pos hsup
  have hmove : step s = issueNow { s with agenda := r } c false := by
    rw [step_agenda hagenda]
    have hstep : stepDue (coreOf s c) = none := by simp [stepDue, hsup]
    have hevent : eventDue s c = none := by simp [eventDue, hsup]
    exact issueMove_issues (s := { s with agenda := r }) (pilot := false) hcan hstep (fun _ => hevent)
  have hcodes : ∀ n, supCodes { s with agenda := r } c (coreOf { s with agenda := r } c).supPc.toNat n = got n := fun n => supCodes_agenda s r c _ n
  refine ⟨fun i bs hbs hdec => ?_, fun hgraph hbad => ?_⟩
  · rw [hmove, issueNow, hnow, fetchSup_decoded ((hcodes _).trans hbs) hdec]
  · obtain ⟨a, hact⟩ : ∃ a, (coreOf s c).act = some a := by
      simp only [canIssue, mayIssue, Bool.and_eq_true, Option.isSome_iff_exists] at hcan
      exact hcan.1.1.1.1.2
    obtain ⟨t, ht⟩ : ∃ t, fetchSup { s with agenda := r } c = .trap t := by
      obtain ⟨e, he⟩ | ⟨w, e, hw, hdec, he⟩ := hbad
      · exact ⟨_, fetchSup_unread ((hcodes 12).trans he)⟩
      · exact ⟨_, fetchSup_refused ((hcodes 12).trans hw) hdec he⟩
    obtain ⟨hfailing, hended⟩ := fetchFails_double (s := { s with agenda := r }) hsup hact hgraph t
    exact ⟨_, by rw [hmove, issueNow, hnow, ht], hfailing, hended⟩

end Sys2Proof.Machine

section

open Sys2Proof.Machine

/-- Settles O4: the word at the PC runs, a fetch that fails traps, and the supervisor routine's steps are those of its words. -/
theorem stepRunsDecoded : Obligations.StepRunsDecoded := ⟨stepRunsWord, fetchFailuresTrap, supervisorSteps⟩

end
end

section
/-! Words that step 6 of R106 denies (R92, R105 to R107): what their trap leaves, and which words a mode and a stream deny. -/

-- One proof after another: the compile of the whole text has a bound on its memory.
set_option Elab.async false

namespace Sys2Proof.Machine

/- A trap leaves the registers of the execute stream (R381). -/

/-- The scalar registers and the predicates of the execute stream. -/
def exRegs (k : Core) : Vector W64 64 × Vector Bool 8 := (k.ex.s, k.ex.k)

theorem endMark_regs (w : Nat) (fl : BitVec 4) (t : Stream) : (endMark w fl t).s = t.s ∧ (endMark w fl t).k = t.k := by
  obtain ⟨hbank, -, -⟩ := endMark_frame w fl t
  have hs := congrArg Stream.s hbank
  have hk := congrArg Stream.k hbank
  exact ⟨hs, hk⟩

theorem updStream_keepsRegs (s : State) (c : Nat) (pilot : Bool) {f : Stream → Stream} (h : ∀ t, (f t).s = t.s ∧ (f t).k = t.k) :
    Keeps exRegs s (updStream s c pilot f) := by
  refine Keeps.updCore s c ?_
  cases pilot
  · exact Prod.ext (h _).1 (h _).2
  · rfl

theorem abandonHbar_keepsRegs (s : State) (c : Nat) (w : Wait) : Keeps exRegs s (abandonHbar s c w) := by
  unfold abandonHbar
  split
  · split
    · dsimp only
      split <;> exact Keeps.updCore s c rfl
    · split
      · exact Keeps.updCore s c rfl
      · exact Keeps.refl s
  · exact Keeps.refl s

theorem abandonEngine_keepsRegs (s : State) (c : Nat) (w : Wait) : Keeps exRegs s (abandonEngine s c w) := by
  unfold abandonEngine
  split
  · exact Keeps.updCore s c rfl
  · exact Keeps.updCore s c rfl
  · exact Keeps.refl s

/-- A stream whose instruction is abandoned (R130). -/
def abandoned (wall : Nat) (t : Stream) : Stream := { endMark wall 8 t with wait := none }

theorem abandoned_regs (wall : Nat) (t : Stream) : (abandoned wall t).s = t.s ∧ (abandoned wall t).k = t.k := endMark_regs wall 8 t

/-- The cores once the instruction at which a stream is held is abandoned. -/
theorem coreOf_abandonWait {s : State} {c : Nat} {pilot : Bool} {w : Wait} (h : (streamOf (coreOf s c) pilot).wait = some w) (d : Nat) :
    coreOf (abandonWait s c pilot) d
      = coreOf (updStream (abandonEngine (abandonHbar s c w) c w) c pilot (abandoned s.wall)) d := by
  rw [abandonWait, h]
  rfl

theorem abandonWait_keepsRegs (s : State) (c : Nat) (pilot : Bool) : Keeps exRegs s (abandonWait s c pilot) := by
  cases h : (streamOf (coreOf s c) pilot).wait with
  | none =>
    rw [abandonWait, h]
    exact Keeps.refl s
  | some w =>
    intro d
    rw [coreOf_abandonWait h]
    exact ((abandonHbar_keepsRegs s c w).trans (abandonEngine_keepsRegs _ c w)).trans
      (updStream_keepsRegs _ c pilot (abandoned_regs s.wall)) d

theorem markTrap_keepsRegs (s : State) (c : Nat) (pilot : Bool) (t : TrapIn) : Keeps exRegs s (markTrap s c pilot t) := by
  unfold markTrap
  split
  · exact Keeps.refl s
  · exact updStream_keepsRegs s c pilot (endMark_regs _ _)

theorem enterSup_keepsRegs (s : State) (c : Nat) (pilot : Bool) (pc rpc : W64) {t : TrapIn} (inreg : Bool) (ht : t.mat = false) :
    Keeps exRegs s (enterSup s c pilot pc rpc t inreg) := by
  unfold enterSup
  dsimp only
  rw [ht]
  refine ((abandonWait_keepsRegs s c false).trans (abandonWait_keepsRegs _ c true)).trans (Keeps.trans (Keeps.of_cores rfl) (Keeps.updCore _ c rfl))

/- A trap leaves which stream issues. -/

theorem abandonHbar_cur (s : State) (c : Nat) (w : Wait) : (abandonHbar s c w).cur = s.cur := by
  unfold abandonHbar
  split
  · split
    · dsimp only
      split <;> rfl
    · split <;> rfl
  · rfl

theorem abandonEngine_cur (s : State) (c : Nat) (w : Wait) : (abandonEngine s c w).cur = s.cur := by
  unfold abandonEngine
  split <;> rfl

theorem abandonWait_cur (s : State) (c : Nat) (pilot : Bool) : (abandonWait s c pilot).cur = s.cur := by
  unfold abandonWait
  split
  · rfl
  · exact (abandonEngine_cur _ c _).trans (abandonHbar_cur s c _)

theorem markTrap_cur (s : State) (c : Nat) (pilot : Bool) (t : TrapIn) : (markTrap s c pilot t).cur = s.cur := by
  unfold markTrap
  split <;> rfl

theorem enterSup_cur (s : State) (c : Nat) (pilot : Bool) (pc rpc : W64) {t : TrapIn} (inreg : Bool) (ht : t.mat = false) :
    (enterSup s c pilot pc rpc t inreg).cur = s.cur := by
  unfold enterSup
  dsimp only
  rw [ht]
  exact (abandonWait_cur _ c true).trans (abandonWait_cur s c false)

/-- What a synchronous trap of the stream that issues leaves, in user mode and outside regions: the trap registers, with memory and the
registers of the execute stream as they were (R107, R381, R382). -/
theorem trapNow_leaves {s : State} {code : Nat} {addr info : W64} (hsup : (curCore s).sup = false) (hregion : (curCore s).region = none) :
    let t := trapNow s { code := code, addr := some addr, info := info }
    t.cur = s.cur ∧ (curCore t).sup = true ∧ (curCore t).tcause = BitVec.ofNat 64 code ∧ (curCore t).tinfo = info
    ∧ (curCore t).tpc = pcNow s ∧ (curCore t).taddr = addr ∧ t.mem = s.mem ∧ (curCore t).ex.s = (curCore s).ex.s ∧ (curCore t).ex.k = (curCore s).ex.k := by
  intro t
  let x : TrapIn := { code := code, addr := some addr, info := info }
  let u := markTrap s s.cur.1 s.cur.2 x
  have henter : t = enterSup u s.cur.1 s.cur.2 (pcNow s) (pcNow s) x false := takeTrap_plain hsup hregion
  have hcur : t.cur = s.cur := by rw [henter, enterSup_cur _ _ _ _ _ _ rfl, markTrap_cur]
  have hregs : exRegs (coreOf t s.cur.1) = exRegs (curCore s) := by
    rw [henter]
    exact ((markTrap_keepsRegs s s.cur.1 s.cur.2 x).trans (enterSup_keepsRegs _ _ _ _ _ false rfl)) s.cur.1
  obtain ⟨hs, hk⟩ := Prod.mk.inj hregs
  have hmem : t.mem = s.mem := by rw [henter, enterSup_mem _ _ _ _ _ _ rfl, markTrap_mem]
  obtain ⟨rsup, rcause, rpc, rinfo, raddr, -⟩ := enterSup_registers u s.cur.1 s.cur.2 (pcNow s) (pcNow s) x false
  rw [← henter] at rsup rcause rpc rinfo raddr
  rw [curCore, hcur]
  exact ⟨rfl, rsup, rcause.trans (causeOf_sync _ _ _), rinfo, rpc, raddr.trans (trapAddr_some rfl), hmem, hs, hk⟩

theorem deniedWordsTrap : Sys2Proof.Claims.DeniedWordsTrap := by
  intro i m s code field hm hsup hregion hcheck
  obtain ⟨-, tsup, tcause, tinfo, tpc, taddr, tmem, ts, tk⟩ :=
    trapNow_leaves (code := code) (addr := pcNow s) (info := BitVec.ofNat 64 field) hsup hregion
  exact ⟨_, (exec_word hm s).trans (issue_denied hcheck), tsup, tcause, tinfo, tpc, taddr, tmem, ts, tk⟩

/- Step 6 (R92, R105, R106). -/

section

variable {s : State} {p : Perm} (o : Ops) (dRead : Bool)

theorem check6_pilotDenied (h : p = .execute ∨ p = .supervisor) (hpilot : s.cur.2 = true) : check6 s o p dRead = some (0x0104, 10) := by
  rcases h with rfl | rfl <;> simp [check6, hpilot]

theorem check6_executeDenied (hpilot : s.cur.2 = false) : check6 s o .pilot dRead = some (0x0104, 10) := by
  simp [check6, hpilot]

/-- In user mode a word of the supervisor group is denied for the queue or the channel that it names, and otherwise for its mode. -/
theorem check6_userDenied (hpilot : s.cur.2 = false) (huser : (curCore s).sup = false) : check6 s o .supervisor dRead
    = if srcDenied false false o.a || srcDenied false false o.b || (if dRead then srcDenied false false o.d else dstDenied false false o.d)
      then some (0x0104, 10) else some (0x0105, 11) := by
  have hsup : supNow s = false := by simp [supNow, huser]
  simp [check6, hpilot, hsup]

end

theorem modesAndStreams : Sys2Proof.Claims.ModesAndStreams := by
  intro i m s _
  refine ⟨fun hp hpilot => check6_pilotDenied _ _ (.inr hp) hpilot, fun hp hpilot huser => ?_,
    fun hp hpilot => check6_pilotDenied _ _ (.inl hp) hpilot, fun hp hpilot => ?_⟩
  · rw [hp]
    exact check6_userDenied _ _ hpilot huser
  · rw [hp]
    exact check6_executeDenied _ _ hpilot

end Sys2Proof.Machine

section

open Sys2Proof.Machine

/-- Settles O12: a denied word ends in the plain trap of its first failing check, and step 6 tests the stream and the operands before the
mode. -/
theorem deniedInstructions : Obligations.DeniedInstructions := ⟨deniedWordsTrap, modesAndStreams⟩

end
end

section
/-! Vector commands at issue (R91, R230 to R234, R254, R256): what a source consumes, what a word that is done or held leaves of the core that
issues, and the queue of the vector engine. -/

-- One proof after another: the compile of the whole text has a bound on its memory.
set_option Elab.async false

namespace Sys2Proof.Machine

open Sys2Proof.Claims

/-- The stream that issues is not stepped (R396). -/
def unstepped (s : State) : Bool := supNow s || decide ((curCore s).stepping &&& stepBit s.cur.2 = 0)

theorem MovesOn.unstepped {s t : State} (h : MovesOn s t) : unstepped t = unstepped s := by
  rw [Machine.unstepped, Machine.unstepped, h.supNow, h.core_field Core.stepping (fun _ => rfl), h.cur]

/- The core that issues, changed alone. -/

section

variable {s t u : State}

theorem otherUnits_cur (h : OtherUnits s t) : t.cur = s.cur := by
  have hcur := congrArg State.cur h.1
  exact hcur

theorem otherUnits_mem (h : OtherUnits s t) : t.mem = s.mem := by
  have hmem := congrArg State.mem h.1
  exact hmem

theorem otherUnits_trans (h : OtherUnits s t) (h' : OtherUnits t u) : OtherUnits s u := by
  have hcur := otherUnits_cur h
  obtain ⟨hunits, hcores⟩ := h
  obtain ⟨hunits', hcores'⟩ := h'
  rw [hcur] at hcores'
  have hu : { u with cores := s.cores } = { t with cores := s.cores } := congrArg (fun x : State => { x with cores := s.cores }) hunits'
  exact ⟨hu.trans hunits, fun c hc => (hcores' c hc).trans (hcores c hc)⟩

/-- Of all units only the core that issues has changed, and it is k. -/
structure CoreBecomes (s t : State) (k : Core) : Prop where
  units : OtherUnits s t
  core : curCore t = k

theorem CoreBecomes.refl (s : State) : CoreBecomes s s (curCore s) := ⟨⟨rfl, fun _ _ => rfl⟩, rfl⟩

theorem CoreBecomes.updCurCore (s : State) (f : Core → Core) : CoreBecomes s (updCurCore s f) (f (curCore s)) :=
  ⟨otherUnits_updCurCore s f, curCore_updCurCore s f⟩

theorem CoreBecomes.trans {k l : Core} (h : CoreBecomes s t k) (h' : CoreBecomes t u l) : CoreBecomes s u l :=
  ⟨otherUnits_trans h.units h'.units, h'.core⟩

/-- A core without what issuing a vector instruction moves on: its queues, its payload cursor, its berths, its region and the commands of the
vector engine. -/
def engineRest (k : Core) : Core :=
  { k with q := Vector.replicate 16 [], act := none, berths := Vector.replicate 4 {}, region := none, vq := [], opNext := 0 }

section

variable {k : Core} (h : CoreBecomes s t k) (hk : engineRest k = engineRest (curCore s))

include h hk

theorem CoreBecomes.field {α : Type} (g : Core → α) (hg : ∀ x, g (engineRest x) = g x) : g (curCore t) = g (curCore s) := by
  rw [h.core, ← hg, hk, hg]

theorem CoreBecomes.curStream : curStream t = curStream s := by
  rw [Machine.curStream, Machine.curStream, otherUnits_cur h.units, h.field hk (fun x => streamOf x s.cur.2) (fun _ => rfl)]

theorem CoreBecomes.supNow : supNow t = supNow s := by
  rw [Machine.supNow, Machine.supNow, otherUnits_cur h.units, h.field hk Core.sup (fun _ => rfl)]

theorem CoreBecomes.readS (n : BitVec 6) : readS t n = readS s n := by
  rw [Machine.readS, Machine.readS, h.supNow hk, h.curStream hk, h.field hk Core.supS (fun _ => rfl)]

theorem CoreBecomes.readK (n : BitVec 3) : readK t n = readK s n := by
  rw [Machine.readK, Machine.readK, h.supNow hk, h.curStream hk, h.field hk Core.supK (fun _ => rfl)]

theorem CoreBecomes.pcNow : pcNow t = pcNow s := by
  rw [Machine.pcNow, Machine.pcNow, h.supNow hk, h.curStream hk, h.field hk Core.supPc (fun _ => rfl)]

theorem CoreBecomes.unstepped : unstepped t = unstepped s := by
  rw [Machine.unstepped, Machine.unstepped, h.supNow hk, h.field hk Core.stepping (fun _ => rfl), otherUnits_cur h.units]

end

/-- Where registers hold what they held and no command has left the vector queue, no scalar has lost the result it waits for (R147). -/
theorem scalarsBut_of_readS (hread : ∀ n, readS t n = readS s n) (hvq : (curCore s).vq ⊆ (curCore t).vq) : ScalarsBut s t [] :=
  fun j _ => ⟨hread j, fun v hv hd _ => ⟨v, hvq hv, hd, rfl, rfl⟩⟩

end

/- A word that is done, or held (R72, R75, R129, R323). -/

section

variable (s : State)

theorem pinOp_becomes (s0 : State) (op : Operand) : ∃ r, CoreBecomes s (pinOp s0 op s) { curCore s with region := r } := by
  unfold pinOp
  split
  · exact ⟨_, CoreBecomes.updCurCore s _⟩
  · exact ⟨_, CoreBecomes.refl s⟩

/-- Pinning load slots changes the region alone (R323). -/
theorem notePins_becomes (i : Instr) (o : Ops) (d : Bool) (s0 : State) :
    ∃ r, CoreBecomes s (notePins i o d s0 s) { curCore s with region := r } := by
  obtain ⟨ra, ha⟩ := pinOp_becomes s s0 o.a
  obtain ⟨rb, hb⟩ := pinOp_becomes (pinOp s0 o.a s) s0 o.b
  obtain ⟨rd, hd⟩ := pinOp_becomes (pinOp s0 o.b (pinOp s0 o.a s)) s0 o.d
  rw [ha.core] at hb
  rw [hb.core] at hd
  unfold notePins
  split
  · exact ⟨_, CoreBecomes.refl s⟩
  · dsimp only
    split
    · exact ⟨rd, (ha.trans hb).trans hd⟩
    · exact ⟨rb, ha.trans hb⟩

theorem movesOn_usePrefix (s0 : State) : MovesOn s (usePrefix s0 s) := by
  unfold usePrefix
  split
  · exact MovesOn.updCur s rfl
  · exact MovesOn.refl s

@[simp] theorem pcNow_setWait (w : Option Wait) : pcNow (setWait s w) = pcNow s := by
  rw [pcNow, pcNow, (movesOn_setWait s w).supNow]
  unfold setWait
  split
  · rw [curCore_updCurCore]
  · rw [curStream_updCur]

/-- A word that is done pins what it read, and its stream moves on to the next instruction. -/
theorem runBody_fin_moves (i : Instr) (o : Ops) (d : Bool) {u : State} (hstep : unstepped u = true) :
    ∃ (r : Option Region) (p : State), CoreBecomes u p { curCore u with region := r } ∧ MovesOn p (runBody i o d s (.fin u none))
      ∧ pcNow (runBody i o d s (.fin u none)) = nextPc s o ∧ waitNow (runBody i o d s (.fin u none)) = none := by
  obtain ⟨r, hpins⟩ := notePins_becomes u i o d s
  have hprefix := movesOn_usePrefix (notePins i o d s u) s
  obtain ⟨hgo, hpc, hwait, -⟩ := goOn_moves (usePrefix s (notePins i o d s u)) o none (nextPc s o)
  have hmoves := hprefix.trans hgo
  have hafter := afterStep_unstepped (s := goOn (usePrefix s (notePins i o d s u)) o none (nextPc s o))
    (hmoves.unstepped.trans ((hpins.unstepped rfl).trans hstep))
  have hrun : runBody i o d s (.fin u none) = _ := (runBody_fin i o d s u none).trans hafter
  rw [hrun]
  exact ⟨r, _, hpins, hmoves, hpc, hwait⟩

theorem holdAt_eq (i : Instr) (why : WaitWhy) (aux : Nat) (data : List Byte) (q : Option SyncWait) :
    ∃ w : Wait, holdAt s i why aux data q = setWait { s with arrNext := s.arrNext + 1 } (some w) ∧ w.instr = i ∧ w.why = why := by
  unfold holdAt
  dsimp only
  split <;> exact ⟨_, rfl, rfl, rfl⟩

/-- A word that waits, and not for an event at which a step is abandoned, holds its stream where it stands. -/
theorem runBody_hold_moves (i : Instr) (o : Ops) (d : Bool) (u : State) {why : WaitWhy} (aux : Nat) (hwhy : waitsOnEvent why = false) :
    MovesOn { u with arrNext := u.arrNext + 1 } (runBody i o d s (.hold u why aux)) ∧ pcNow (runBody i o d s (.hold u why aux)) = pcNow u
      ∧ ∃ w : Wait, waitNow (runBody i o d s (.hold u why aux)) = some w ∧ w.instr = i ∧ w.why = why := by
  obtain ⟨w, heq, hi, hw⟩ := holdAt_eq u i why aux [] none
  have hrun : runBody i o d s (.hold u why aux) = setWait { u with arrNext := u.arrNext + 1 } (some w) := by
    rw [← heq]
    exact if_pos (by simp [hwhy])
  rw [hrun]
  exact ⟨movesOn_setWait _ _, pcNow_setWait _ _, w, waitNow_setWait _ _, hi, hw⟩

/-- What has moved on from a state with a later place for waits has, but for that place, moved on from the state itself (R170). -/
theorem otherUnits_samePlace {u t : State} {a : Nat} (h : OtherUnits { u with arrNext := a } t) : OtherUnits u (samePlace u t) := by
  obtain ⟨hunits, hcores⟩ := h
  have hu := congrArg (fun x : State => { x with arrNext := u.arrNext }) hunits
  exact ⟨hu, hcores⟩

end

/- A word that is ready (R75, R106). -/

/-- A word that is ready runs its body, waits for no queue, and is not stepped. -/
theorem exec_ready {i : Instr} {m : Meaning} {s : State} (hm : meaningOf i = some m) (h : ready i s = true) :
    exec i s = .next (runBody i m.o m.dRead s (m.body .issue s)) ∧ queueWait m.o m.dRead s = none
      ∧ unstepped s = true := by
  simp only [ready, issues, hm, Bool.and_eq_true, Option.isNone_iff_eq_none, Bool.not_eq_true'] at h
  obtain ⟨⟨⟨⟨⟨⟨hcheck, hguard⟩, hprefix⟩, hengine⟩, hcommit⟩, hstep⟩, hqueue⟩ := h
  exact ⟨(exec_word hm s).trans (issue_runs hcheck hguard hprefix hcommit hengine), hqueue, hstep⟩

/- Queues (R119). -/

@[simp] theorem qGet_qSet_same (k : Core) (q : BitVec 4) (l : List QEnt) : qGet (qSet k q l) q = l := by
  simp [qGet, qSet]

theorem qGet_qSet_other (k : Core) {q n : BitVec 4} (l : List QEnt) (h : n ≠ q) : qGet (qSet k q l) n = qGet k n := by
  have hne : q.toNat ≠ n.toNat := fun e => h (BitVec.eq_of_toNat_eq e.symm)
  simp [qGet, qSet, hne]

@[simp] theorem qGet_qAdd_same (k : Core) (q : BitVec 4) (e : QEnt) : qGet (qAdd k q e) q = qGet k q ++ [e] :=
  qGet_qSet_same k q _

theorem qGet_congr {k l : Core} (h : k.q = l.q) (n : BitVec 4) : qGet k n = qGet l n := by
  simp only [qGet, h]

/- The sources of a vector instruction (R113, R231). -/

section

variable (s : State)

theorem readChan_cases (c : BitVec 3) (n : Nat) :
    (readChan s c n).2 = s ∨ ∃ a, (readChan s c n).2 = updCurCore s (fun k => { k with act := a }) := by
  unfold readChan
  split
  · split
    · exact .inr ⟨_, rfl⟩
    · exact .inl rfl
  · exact .inl rfl

/-- Reading a source consumes nothing, the first entry of the queue that it names, or payload. -/
theorem vecSrc_cases (sc : Bool) (op : Operand) : (vecSrc sc op s).2 = s ∨ (∃ n, op = .q n ∧ (vecSrc sc op s).2 = qPop s n)
    ∨ ∃ a, (vecSrc sc op s).2 = updCurCore s (fun k => { k with act := a }) := by
  cases op with
  | q n =>
    cases sc
    · simp only [vecSrc, readVS, Bool.false_eq_true, if_false]
      split
      · exact .inr (.inl ⟨n, rfl, rfl⟩)
      · exact .inl rfl
    · simp only [vecSrc, readSrc, readSrcW, if_true]
      split
      · exact .inr (.inl ⟨n, rfl, rfl⟩)
      · exact .inl rfl
  | c n =>
    cases sc
    · exact (readChan_cases s n 256).imp_right .inr
    · exact (readChan_cases s n 8).imp_right .inr
  | _ => cases sc <;> exact .inl rfl

theorem vecSrc_becomes (sc : Bool) (op : Operand) : ∃ q a, CoreBecomes s (vecSrc sc op s).2 { curCore s with q := q, act := a } := by
  obtain h | ⟨n, -, h⟩ | ⟨a, h⟩ := vecSrc_cases s sc op
  · exact ⟨_, _, by rw [h]; exact CoreBecomes.refl s⟩
  · exact ⟨_, _, by rw [h]; exact CoreBecomes.updCurCore s _⟩
  · exact ⟨_, _, by rw [h]; exact CoreBecomes.updCurCore s _⟩

theorem qGet_qPop_same (n : BitVec 4) : qGet (curCore (qPop s n)) n = (qGet (curCore s) n).tail := by
  rw [qPop, curCore_updCurCore, qGet_qSet_same]

theorem qGet_vecSrc_other (sc : Bool) {op : Operand} {n : BitVec 4} (hop : op ≠ .q n) :
    qGet (curCore (vecSrc sc op s).2) n = qGet (curCore s) n := by
  obtain h | ⟨j, hj, h⟩ | ⟨a, h⟩ := vecSrc_cases s sc op
  · rw [h]
  · have hne : n ≠ j := fun e => hop (hj.trans (by rw [e]))
    rw [h, qPop, curCore_updCurCore, qGet_qSet_other _ _ hne]
  · rw [h, curCore_updCurCore]
    rfl

/-- A block that a vector source names is its data, and has left its queue. -/
theorem vecSrc_block {n : BitVec 4} {bs : List Byte} {l : List QEnt} (h : qGet (curCore s) n = .block bs :: l) :
    (vecSrc false (.q n) s).1 = .data bs ∧ qGet (curCore (vecSrc false (.q n) s).2) n = l := by
  have hsrc : vecSrc false (.q n) s = (.data bs, qPop s n) := by
    simp only [vecSrc, readVS, h, List.head?_cons, Bool.false_eq_true, if_false]
  rw [hsrc, qGet_qPop_same, h]
  exact ⟨rfl, rfl⟩

/-- A word that a scalar source names is its value, and has left its queue. -/
theorem vecSrc_word {n : BitVec 4} {x : W64} {l : List QEnt} (h : qGet (curCore s) n = .word x :: l) :
    (vecSrc true (.q n) s).1 = .scalar x ∧ qGet (curCore (vecSrc true (.q n) s).2) n = l := by
  have hsrc : vecSrc true (.q n) s = (.scalar x, qPop s n) := by
    simp only [vecSrc, readSrc, readSrcW, h, List.head?_cons, if_true]
  rw [hsrc, qGet_qPop_same, h]
  exact ⟨rfl, rfl⟩

end

/- The vector queue (R233, R254). -/

section

variable (i : Instr) (o : Ops) (m : VecMod) (aS bS rand : Bool) (s : State)

/-- Forming a command consumes its operands, and no more. -/
theorem vecCmd_becomes : ∃ q a, CoreBecomes s (vecCmd i o m aS bS rand s).2 { curCore s with q := q, act := a } := by
  obtain ⟨qa, aa, ha⟩ := vecSrc_becomes s aS o.a
  obtain ⟨qb, ab, hb⟩ := vecSrc_becomes (vecSrc aS o.a s).2 bS o.b
  rw [ha.core] at hb
  exact ⟨qb, ab, ha.trans hb⟩

section

variable {i o m aS bS rand s} {n : BitVec 4} {l : List QEnt}

/-- A block that OPA names is the command's data, and has left its queue unless OPB names the queue too. -/
theorem vecCmd_blockA {bs : List Byte} (ha : o.a = .q n) (haS : aS = false) (h : qGet (curCore s) n = .block bs :: l) :
    (vecCmd i o m aS bS rand s).1.a = .data bs ∧ (o.b ≠ .q n → qGet (curCore (vecCmd i o m aS bS rand s).2) n = l) := by
  obtain ⟨hdata, hleft⟩ := vecSrc_block s h
  rw [← ha, ← haS] at hdata hleft
  exact ⟨hdata, fun hb => (qGet_vecSrc_other _ bS hb).trans hleft⟩

theorem vecCmd_blockB {bs : List Byte} (hb : o.b = .q n) (hbS : bS = false) (ha : o.a ≠ .q n) (h : qGet (curCore s) n = .block bs :: l) :
    (vecCmd i o m aS bS rand s).1.b = .data bs ∧ qGet (curCore (vecCmd i o m aS bS rand s).2) n = l := by
  have hsrc := vecSrc_block (vecSrc aS o.a s).2 ((qGet_vecSrc_other s aS ha).trans h)
  rwa [← hb, ← hbS] at hsrc

theorem vecCmd_wordB {x : W64} (hb : o.b = .q n) (hbS : bS = true) (ha : o.a ≠ .q n) (h : qGet (curCore s) n = .word x :: l) :
    (vecCmd i o m aS bS rand s).1.b = .scalar x ∧ qGet (curCore (vecCmd i o m aS bS rand s).2) n = l := by
  have hsrc := vecSrc_word (vecSrc aS o.a s).2 ((qGet_vecSrc_other s aS ha).trans h)
  rwa [← hb, ← hbS] at hsrc

end

theorem advanceSeed_becomes (v : VCmd) : ∃ b, CoreBecomes s (advanceSeed v s) { curCore s with berths := b } := by
  unfold advanceSeed
  split
  · exact ⟨_, CoreBecomes.updCurCore s _⟩
  · exact ⟨_, CoreBecomes.refl s⟩

theorem pushCmd_becomes (v : VCmd) :
    CoreBecomes s (pushCmd s v) { curCore s with vq := (curCore s).vq ++ [v], opNext := (curCore s).opNext + 1 } :=
  CoreBecomes.updCurCore s _

/-- The core that issues once a command has joined the queue with its operands consumed. -/
theorem pushCmd_consumed_becomes : let c := vecCmd i o m aS bS rand s
    ∃ a b n, CoreBecomes s (pushCmd (advanceSeed c.1 c.2) c.1)
      { curCore s with q := (curCore c.2).q, act := a, berths := b, vq := (curCore s).vq ++ [c.1], opNext := n } := by
  intro c
  obtain ⟨q, a, hcmd⟩ := vecCmd_becomes i o m aS bS rand s
  obtain ⟨b, hseed⟩ := advanceSeed_becomes c.2 c.1
  have hpush := pushCmd_becomes (advanceSeed c.1 c.2) c.1
  have hq : (curCore c.2).q = q := congrArg Core.q hcmd.core
  rw [hcmd.core] at hseed
  rw [hseed.core] at hpush
  rw [hq]
  exact ⟨a, b, _, (hcmd.trans hseed).trans hpush⟩

variable {i o m aS bS rand s}

/-- A vector instruction whose checks pass, with room in the queue, is queued: in its trap window, or with its operands consumed (R254, R256). -/
theorem vecBody_queues {never plane : Bool} (hd : vBad s o.d = false) (ha : vBad s o.a = false) (hb : vBad s o.b = false)
    (hwidth : plane = true → effWidth s ≤ vbits (effMod s m).ty) (hqueue : queueWait o false s = none) (hroom : (curCore s).vq.length < 2) :
    let c := vecCmd i o m aS bS rand s
    vecBody i o m aS bS never plane rand s = if mayRaise c.1.m never && decide (c.1.en ≠ 0) then .hold (pushCmd s { c.1 with win := true }) .window 0
      else .fin (pushCmd (advanceSeed c.1 c.2) c.1) none := by
  have hplane : (plane && decide (vbits (effMod s m).ty < effWidth s)) = false := by
    cases plane with
    | false => rfl
    | true => simpa using hwidth rfl
  simp only [vecBody, hd, ha, hb, hplane, onReady, hqueue, Bool.or_self, Bool.false_eq_true, if_false, if_neg (Nat.not_le.mpr hroom)]

end

/- The instructions of the engine (R91). -/

/-- The meaning of each vector instruction: an execute-stream word whose body is that of the engine, with the classes of its sources. Its row
of vectorOf and its row of meaningOf are compared one by one. -/
theorem meaningOf_vector {i : Instr} {o : Ops} {m : VecMod} (h : vectorOf i = some (o, m)) :
    ∃ c v, partsOf i = some (c, o, v) ∧ meaningOf i = some
      { o := o, perm := .execute, dRead := false,
        body := fun _ s => vecBody i o m (vecOps i).2.1 (vecOps i).2.2 (neverRaises i) (isPlane c) (isVrand i) s } := by
  cases i <;> cases h <;> exact ⟨_, _, rfl, rfl⟩

/-- A vector instruction that is ready and passes its checks, with room in the queue, enters the engine. -/
theorem exec_vector {i : Instr} {s : State} {o : Ops} {m : VecMod} (hvec : vectorOf i = some (o, m)) (hready : ready i s = true)
    (hok : VectorOk i s o m) (hroom : (curCore s).vq.length < 2) :
    let c := vecCmd i o m (vecOps i).2.1 (vecOps i).2.2 (isVrand i) s
    exec i s = .next (runBody i o false s
        (if mayRaise c.1.m (neverRaises i) && decide (c.1.en ≠ 0) then .hold (pushCmd s { c.1 with win := true }) .window 0
         else .fin (pushCmd (advanceSeed c.1 c.2) c.1) none))
      ∧ unstepped s = true := by
  intro c
  obtain ⟨opc, v, hparts, hm⟩ := meaningOf_vector hvec
  obtain ⟨hexec, hqueue, hstep⟩ := exec_ready hm hready
  obtain ⟨hd, ha, hb, hplane⟩ := hok
  have hbody := vecBody_queues (i := i) (aS := (vecOps i).2.1) (bS := (vecOps i).2.2) (rand := isVrand i) (never := neverRaises i)
    (plane := isPlane opc) hd ha hb (hplane opc o v hparts) hqueue hroom
  exact ⟨hexec.trans (congrArg (fun b => Host.Outcome.next (runBody i o false s b)) hbody), hstep⟩

theorem vectorInstructionsIssue : Sys2Proof.Claims.VectorInstructionsIssue := by
  intro i s o m hvec hready hok hroom v
  let c := vecCmd i o m (vecOps i).2.1 (vecOps i).2.2 (isVrand i) s
  obtain ⟨hexec, hstep⟩ := exec_vector hvec hready hok hroom
  refine ⟨rfl, rfl, rfl, rfl, fun hquiet => ?_, fun hraise hen => ?_⟩
  · have hnow : (mayRaise v.m (neverRaises i) && decide (v.en ≠ 0)) = false := by
      rcases hquiet with h | h <;> simp [h]
    obtain ⟨a, b, n, hpush⟩ := pushCmd_consumed_becomes i o m (vecOps i).2.1 (vecOps i).2.2 (isVrand i) s
    obtain ⟨r, p, hpins, hmoves, hpc, hwait⟩ := runBody_fin_moves s i o false ((hpush.unstepped rfl).trans hstep)
    rw [hpush.core] at hpins
    have hall := hpush.trans hpins
    have hvq := (hmoves.core_field Core.vq (fun _ => rfl)).trans (congrArg Core.vq hall.core)
    have hq := (hmoves.core_field Core.q (fun _ => rfl)).trans (congrArg Core.q hall.core)
    have hread : ∀ j, readS (runBody i o false s (.fin (pushCmd (advanceSeed c.1 c.2) c.1) none)) j = readS s j := fun j =>
      (hmoves.readS j).trans (hall.readS rfl j)
    refine ⟨_, hexec.trans (by rw [hnow]; rfl), hvq, scalarsBut_of_readS hread (hvq ▸ List.subset_append_left _ _),
      fun j _ => (hmoves.readK j).trans (hall.readK rfl j), ⟨hpc, hwait⟩, otherUnits_trans hall.units hmoves.units, hq, ?_, ?_, ?_⟩
    · intro j bs l ha haS hj
      obtain ⟨hdata, hleft⟩ := vecCmd_blockA (i := i) (m := m) (bS := (vecOps i).2.2) (rand := isVrand i) ha haS hj
      exact ⟨hdata, fun hb => (qGet_congr hq j).trans (hleft hb)⟩
    · intro j bs l hb hbS ha hj
      obtain ⟨hdata, hleft⟩ := vecCmd_blockB (i := i) (m := m) (aS := (vecOps i).2.1) (rand := isVrand i) hb hbS ha hj
      exact ⟨hdata, (qGet_congr hq j).trans hleft⟩
    · intro j x l hb hbS ha hj
      obtain ⟨hdata, hleft⟩ := vecCmd_wordB (i := i) (m := m) (aS := (vecOps i).2.1) (rand := isVrand i) hb hbS ha hj
      exact ⟨hdata, (qGet_congr hq j).trans hleft⟩
  · have hwindow : (mayRaise v.m (neverRaises i) && decide (v.en ≠ 0)) = true := by rw [hraise, decide_eq_true hen]; rfl
    have hpush := pushCmd_becomes s { v with win := true }
    obtain ⟨hmoves, hpc, hwait⟩ := runBody_hold_moves s i o false (pushCmd s { v with win := true }) 0 (why := .window) rfl
    have hvq := (hmoves.core_field Core.vq (fun _ => rfl)).trans (congrArg Core.vq hpush.core)
    have hq := (hmoves.core_field Core.q (fun _ => rfl)).trans (congrArg Core.q hpush.core)
    have hread : ∀ j, readS _ j = readS s j := fun j => (hmoves.readS j).trans (hpush.readS rfl j)
    exact ⟨_, hexec.trans (by rw [hwindow]; rfl), hvq, scalarsBut_of_readS hread (hvq ▸ List.subset_append_left _ _),
      fun j _ => (hmoves.readK j).trans (hpush.readK rfl j), hpc.trans (hpush.pcNow rfl), hwait, hq,
      otherUnits_trans hpush.units (otherUnits_samePlace hmoves.units)⟩

end Sys2Proof.Machine
end

section
/-! Vector commands at their completion (R232, R233, R252 to R255): where a result goes, the flags it raises, and how a trap window ends. -/

-- One proof after another: the compile of the whole text has a bound on its memory.
set_option Elab.async false

namespace Sys2Proof.Machine

open Sys2Proof.Claims

/- The result (R147, R232). -/

/-- The entry that a result pushes (R232). -/
def resultEntry (r : VOut) : QEnt :=
  match r.scalar with
  | some x => .word x
  | none => .block r.bytes

/-- A core that a vector result has reached: through a queue or a scalar register of one of its banks. -/
def withResult (k : Core) (v : VCmd) (r : VOut) : Core :=
  match v.d with
  | .queue q => qAdd k q (resultEntry r)
  | .scalar n =>
    if v.sup then { k with supS := sSet k.supS n (r.scalar.getD 0) }
    else dropTag { k with ex := { k.ex with s := sSet k.ex.s n (r.scalar.getD 0) } } n
  | _ => k

/-- A memory that a vector result has reached: through a register of the store. -/
def withBlock (m : Memory) (d : VDst) (r : VOut) : Memory :=
  match d with
  | .reg a => wrBytes m a r.bytes
  | _ => m

section

variable (s : State) (c : Nat) (v : VCmd) (r : VOut)

theorem withResult_frame (k : Core) : (withResult k v r).vq = k.vq ∧ (withResult k v r).sup = k.sup ∧ (withResult k v r).stepping = k.stepping
    ∧ (withResult k v r).ex.fpflags = k.ex.fpflags := by
  unfold withResult
  split
  · exact ⟨rfl, rfl, rfl, rfl⟩
  · split <;> exact ⟨rfl, rfl, rfl, rfl⟩
  · exact ⟨rfl, rfl, rfl, rfl⟩

theorem vecWrite_eq : (vecWrite s c v r).mem = withBlock s.mem v.d r ∧ coreOf (vecWrite s c v r) c = withResult (coreOf s c) v r := by
  cases hd : v.d with
  | none =>
    simp only [vecWrite, withBlock, withResult, hd, and_self]
  | reg a =>
    simp only [vecWrite, withBlock, withResult, hd]
    exact ⟨trivial, rfl⟩
  | queue q =>
    simp only [vecWrite, withBlock, withResult, hd]
    exact ⟨rfl, coreOf_updCore_same s c _⟩
  | scalar n =>
    simp only [vecWrite, withBlock, withResult, hd]
    split <;> exact ⟨rfl, coreOf_updCore_same s c _⟩

/-- Writing a result leaves every other core, the full/empty bits and which stream issues. -/
theorem vecWrite_frame : (∀ d, d ≠ c → coreOf (vecWrite s c v r) d = coreOf s d) ∧ (vecWrite s c v r).fe = s.fe ∧ (vecWrite s c v r).cur = s.cur := by
  unfold vecWrite
  split
  · exact ⟨fun _ _ => rfl, rfl, rfl⟩
  · exact ⟨fun _ _ => rfl, rfl, rfl⟩
  · exact ⟨fun _ hd => coreOf_updCore_other s _ hd, rfl, rfl⟩
  · dsimp only
    split <;> exact ⟨fun _ hd => coreOf_updCore_other s _ hd, rfl, rfl⟩

theorem endEngine_frame (wall : Nat) (fl : BitVec 4) (t : Stream) : streamBank (endEngine wall fl t) = streamBank t := by
  unfold endEngine
  split <;> rfl

/-- The end of a sampled instruction in its engine changes the mark of the execute stream alone (R417). -/
theorem completeMark_eq (mark : Bool) :
    (∃ e, coreOf (completeMark s c mark) c = { coreOf s c with ex := e } ∧ streamBank e = streamBank (coreOf s c).ex)
      ∧ (∀ d, d ≠ c → coreOf (completeMark s c mark) d = coreOf s d) ∧ (completeMark s c mark).mem = s.mem
      ∧ (completeMark s c mark).fe = s.fe ∧ (completeMark s c mark).cur = s.cur := by
  cases mark with
  | false => exact ⟨⟨_, rfl, rfl⟩, fun _ _ => rfl, rfl, rfl, rfl⟩
  | true =>
    rw [completeMark, if_pos rfl, updStream]
    exact ⟨⟨_, coreOf_updCore_same s c _, endEngine_frame s.wall 0 _⟩, fun _ hd => coreOf_updCore_other s _ hd, rfl, rfl, rfl⟩

/-- The core whose command completes outside its trap window: it has the result, and its flags have joined FPFLAGS (R252). -/
theorem vecFinish_core : ∃ e, coreOf (vecFinish s c v r) c = { withResult (coreOf s c) v r with ex := e }
    ∧ streamBank e = streamBank { (withResult (coreOf s c) v r).ex with
        fpflags := (coreOf s c).ex.fpflags ||| BitVec.ofNat 5 (vecRaised v r) } := by
  obtain ⟨⟨e, he, hbank⟩, -⟩ := completeMark_eq (raiseFlags (vecWrite s c v r) c (vecRaised v r)) c v.mark
  obtain ⟨-, hcore⟩ := vecWrite_eq s c v r
  obtain ⟨-, -, -, hflags⟩ := withResult_frame v r (coreOf s c)
  rw [raiseFlags, updStream, coreOf_updCore_same, hcore] at he hbank
  exact ⟨e, he, by rw [← hflags]; exact hbank⟩

theorem vecFinish_frame : (vecFinish s c v r).mem = withBlock s.mem v.d r ∧ (∀ d, d ≠ c → coreOf (vecFinish s c v r) d = coreOf s d)
    ∧ (vecFinish s c v r).fe = s.fe ∧ (vecFinish s c v r).cur = s.cur := by
  obtain ⟨-, kcores, kmem, kfe, kcur⟩ := completeMark_eq (raiseFlags (vecWrite s c v r) c (vecRaised v r)) c v.mark
  obtain ⟨hmem, -⟩ := vecWrite_eq s c v r
  obtain ⟨wcores, wfe, wcur⟩ := vecWrite_frame s c v r
  exact ⟨kmem.trans hmem, fun d hd => (kcores d hd).trans ((coreOf_updCore_other _ _ hd).trans (wcores d hd)), kfe.trans wfe, kcur.trans wcur⟩

/-- What the core holds once its command has completed outside its trap window. -/
theorem vecFinish_leaves : (coreOf (vecFinish s c v r) c).vq = (coreOf s c).vq ∧ (coreOf (vecFinish s c v r) c).sup = (coreOf s c).sup
    ∧ (coreOf (vecFinish s c v r) c).stepping = (coreOf s c).stepping
    ∧ (coreOf (vecFinish s c v r) c).ex.fpflags = (coreOf s c).ex.fpflags ||| BitVec.ofNat 5 (vecRaised v r)
    ∧ (coreOf (vecFinish s c v r) c).q = (withResult (coreOf s c) v r).q ∧ (coreOf (vecFinish s c v r) c).supS = (withResult (coreOf s c) v r).supS
    ∧ (coreOf (vecFinish s c v r) c).ex.s = (withResult (coreOf s c) v r).ex.s := by
  obtain ⟨e, he, hbank⟩ := vecFinish_core s c v r
  obtain ⟨hvq, hsup, hstepping, -⟩ := withResult_frame v r (coreOf s c)
  have hflags := congrArg Stream.fpflags hbank
  have hs := congrArg Stream.s hbank
  rw [he]
  exact ⟨hvq, hsup, hstepping, hflags, rfl, rfl, hs⟩

end

/- A trap with no command in its trap window leaves the vector queue (R130, R381). -/

theorem abandonHbar_keepsVq (s : State) (c : Nat) (w : Wait) : Keeps Core.vq s (abandonHbar s c w) := by
  unfold abandonHbar
  split
  · split
    · dsimp only
      split <;> exact Keeps.updCore s c rfl
    · split
      · exact Keeps.updCore s c rfl
      · exact Keeps.refl s
  · exact Keeps.refl s

theorem dropPend_vq (t : TrapIn) (k : Core) : (dropPend t k).vq = k.vq := by
  unfold dropPend
  split <;> rfl

theorem vq_setStream (k : Core) (p : Bool) (t : Stream) : (setStream k p t).vq = k.vq := by cases p <;> rfl

section

variable {s : State} {c : Nat} (h : ∀ x ∈ (coreOf s c).vq, x.win = false)

include h

theorem abandonEngine_vq (w : Wait) : (coreOf (abandonEngine s c w) c).vq = (coreOf s c).vq := by
  unfold abandonEngine
  split
  · rw [coreOf_updCore_same]
    exact List.filter_eq_self.mpr (fun x hx => by simp [h x hx])
  · rw [updMat, coreOf_updCore_same]
  · rfl

theorem abandonWait_vq (pilot : Bool) : (coreOf (abandonWait s c pilot) c).vq = (coreOf s c).vq := by
  cases hwait : (streamOf (coreOf s c) pilot).wait with
  | none => rw [abandonWait, hwait]
  | some w =>
    have hhbar := abandonHbar_keepsVq s c w c
    rw [coreOf_abandonWait hwait, updStream, coreOf_updCore_same, vq_setStream, abandonEngine_vq (by rwa [hhbar]), hhbar]

theorem enterSup_vq (pilot : Bool) (pc rpc : W64) {t : TrapIn} (inreg : Bool) (ht : t.mat = false) :
    (coreOf (enterSup s c pilot pc rpc t inreg) c).vq = (coreOf s c).vq := by
  have hex := abandonWait_vq h false
  have hpi := abandonWait_vq (s := abandonWait s c false) (c := c) (by rwa [hex]) true
  unfold enterSup
  dsimp only
  rw [ht, coreOf_updCore_same]
  exact (dropPend_vq t _).trans (hpi.trans hex)

end

theorem markTrap_keepsVq (s : State) (c : Nat) (pilot : Bool) (t : TrapIn) : Keeps Core.vq s (markTrap s c pilot t) := by
  unfold markTrap
  split
  · exact Keeps.refl s
  · exact Keeps.updCore s c (vq_setStream _ _ _)

theorem trapNow_vq {s : State} {t : TrapIn} (hsup : (curCore s).sup = false) (hregion : (curCore s).region = none) (ht : t.mat = false)
    (h : ∀ x ∈ (curCore s).vq, x.win = false) : (coreOf (trapNow s t) s.cur.1).vq = (curCore s).vq := by
  have henter : trapNow s t = enterSup (markTrap s s.cur.1 s.cur.2 t) s.cur.1 s.cur.2 (pcNow s) (pcNow s) t false := takeTrap_plain hsup hregion
  have hmark := markTrap_keepsVq s s.cur.1 s.cur.2 t s.cur.1
  rw [henter, enterSup_vq (by rw [hmark]; exact h) _ _ _ _ ht, hmark]
  rfl

/- VECTOR_COMPLETE (R233). -/

/-- The sources of a command are consumed and SEED advances, as its trap window ends (R156, R254). -/
def consumed (v : VCmd) (s : State) : State :=
  advanceSeed v (vecCmd v.instr (vecOps v.instr).1 v.m (vecOps v.instr).2.1 (vecOps v.instr).2.2 (isVrand v.instr) s).2

theorem consumed_becomes (v : VCmd) (s : State) : ∃ q a b, CoreBecomes s (consumed v s) { curCore s with q := q, act := a, berths := b } := by
  obtain ⟨q, a, hcmd⟩ := vecCmd_becomes v.instr (vecOps v.instr).1 v.m (vecOps v.instr).2.1 (vecOps v.instr).2.2 (isVrand v.instr) s
  obtain ⟨b, hseed⟩ := advanceSeed_becomes (vecCmd v.instr (vecOps v.instr).1 v.m (vecOps v.instr).2.1 (vecOps v.instr).2.2 (isVrand v.instr) s).2 v
  rw [hcmd.core] at hseed
  exact ⟨q, a, b, hcmd.trans hseed⟩

/-- The oldest command has left the vector queue of a core. -/
def withoutOldest (s : State) (c : Nat) (rest : List VCmd) : State := updCore s c (fun k => { k with vq := rest })

/-- So it has, and the execute stream of the core is the one that issues: where its trap window ends. -/
def atWindow (s : State) (c : Nat) (rest : List VCmd) : State := asStream (withoutOldest s c rest) c false

theorem coreOf_withoutOldest (s : State) (c : Nat) (rest : List VCmd) : coreOf (withoutOldest s c rest) c = { coreOf s c with vq := rest } :=
  coreOf_updCore_same s c _

theorem coreOf_atWindow (s : State) (c : Nat) (rest : List VCmd) : coreOf (atWindow s c rest) c = { coreOf s c with vq := rest } :=
  coreOf_withoutOldest s c rest

section

variable {s : State} {c : Nat} {v : VCmd} {rest : List VCmd} (hc : c < 1024) (hvq : (coreOf s c).vq = v :: rest)
  (hgear : geared s c = false) (hblocked : vecBlocked (coreOf s c) v = false)

include hc hvq hgear hblocked

/-- The oldest command, blocked by nothing, leaves the queue and completes: in its trap window, or outside. -/
theorem exec_vectorComplete : exec (.vectorComplete c) s = .next (if v.win then vecWindow (withoutOldest s c rest) c v (vecResult s v)
    else vecFinish (withoutOldest s c rest) c v (vecResult s v)) := by
  change execVectorComplete c s = _
  simp only [execVectorComplete, if_neg (Nat.not_le.mpr hc), hvq, hgear, hblocked, Bool.or_self, Bool.false_eq_true, if_false]
  rfl

theorem exec_vectorComplete_outside (hwin : v.win = false) :
    exec (.vectorComplete c) s = .next (vecFinish (withoutOldest s c rest) c v (vecResult s v)) := by
  rw [exec_vectorComplete hc hvq hgear hblocked, hwin, if_neg Bool.false_ne_true]

/-- A trap window in which an enabled flag was raised ends in FP_TRAP (R255). -/
theorem exec_vectorComplete_traps (hwin : v.win = true) (hraised : v.en.toNat &&& vecRaised v (vecResult s v) ≠ 0) : ∃ raised addr info,
    exec (.vectorComplete c) s = .next (trapNow (raiseFlags (atWindow s c rest) c raised)
      { code := 0x0120, addr := some addr, info := info }) := by
  rw [exec_vectorComplete hc hvq hgear hblocked, hwin, if_pos rfl, vecWindow, if_neg hraised]
  exact ⟨_, _, _, rfl⟩

/-- A trap window in which no enabled flag was raised ends as its word is done (R254). -/
theorem exec_vectorComplete_done (hwin : v.win = true) (hraised : v.en.toNat &&& vecRaised v (vecResult s v) = 0) :
    let u := atWindow s c rest
    exec (.vectorComplete c) s = .next (runBody v.instr (vecOps v.instr).1 false u
      (.fin (vecFinish (consumed v u) c v (vecResult s v)) none)) := by
  rw [exec_vectorComplete hc hvq hgear hblocked, hwin, if_pos rfl, vecWindow, if_pos hraised]
  rfl

end

/- The execute stream in user mode. -/

section

variable {c : Nat}

/-- Its program counter and its wait are its own (R67, R383). -/
theorem executeStream_now {s : State} (hcur : s.cur = (c, false)) (hsup : (coreOf s c).sup = false) :
    pcNow s = (coreOf s c).ex.pc ∧ waitNow s = (coreOf s c).ex.wait := by
  simp [pcNow, waitNow, supNow, curStream, curCore, streamOf, hcur, hsup]

/-- A word of it that is done leaves it at the next instruction, with the queue of the vector engine and memory as the body left them. -/
theorem executeStream_done {s u : State} (i : Instr) (o : Ops) (hcur : u.cur = (c, false)) (hsup : (coreOf u c).sup = false)
    (hstep : (coreOf u c).stepping = 0) : let t := runBody i o false s (.fin u none)
    (coreOf t c).vq = (coreOf u c).vq ∧ (coreOf t c).ex.wait = none ∧ (coreOf t c).ex.pc = nextPc s o ∧ t.mem = u.mem := by
  intro t
  have hcore : curCore u = coreOf u c := by rw [curCore, hcur]
  obtain ⟨r, p, hpins, hmoves, hpc, hwait⟩ := runBody_fin_moves s i o false (u := u) (by simp [unstepped, hcore, hstep])
  rw [hcore] at hpins
  have tcur : t.cur = (c, false) := (hmoves.cur.trans (otherUnits_cur hpins.units)).trans hcur
  have tcore : curCore t = coreOf t c := by rw [curCore, tcur]
  have tvq := (hmoves.core_field Core.vq (fun _ => rfl)).trans (congrArg Core.vq hpins.core)
  have tsup := (hmoves.core_field Core.sup (fun _ => rfl)).trans (congrArg Core.sup hpins.core)
  rw [tcore] at tvq tsup
  obtain ⟨tpc, twait⟩ := executeStream_now tcur (tsup.trans hsup)
  exact ⟨tvq, twait.symm.trans hwait, tpc.symm.trans hpc, (otherUnits_mem hmoves.units).trans (otherUnits_mem hpins.units)⟩

/-- A trap of it leaves the trap registers, the vector queue where no command of it is in its trap window, and memory. -/
theorem executeStream_traps {s : State} {code : Nat} {addr info : W64} (hcur : s.cur = (c, false)) (hsup : (coreOf s c).sup = false)
    (hregion : (coreOf s c).region = none) (hvq : ∀ x ∈ (coreOf s c).vq, x.win = false) :
    let t := trapNow s { code := code, addr := some addr, info := info }
    (coreOf t c).vq = (coreOf s c).vq ∧ (coreOf t c).sup = true ∧ (coreOf t c).tcause = BitVec.ofNat 64 code
      ∧ (coreOf t c).tpc = (coreOf s c).ex.pc ∧ t.mem = s.mem := by
  intro t
  have hcore : curCore s = coreOf s c := by rw [curCore, hcur]
  rw [← hcore] at hregion hvq
  obtain ⟨hpc, -⟩ := executeStream_now hcur hsup
  rw [← hcore] at hsup
  obtain ⟨tcur, tsup, tcause, -, tpc, -, tmem, -⟩ := trapNow_leaves (code := code) (addr := addr) (info := info) hsup hregion
  have tvq := trapNow_vq (t := { code := code, addr := some addr, info := info }) hsup hregion rfl hvq
  rw [hcur, hcore] at tvq
  rw [curCore, tcur, hcur] at tsup tcause tpc
  exact ⟨tvq, tsup, tcause, tpc.trans hpc, tmem⟩

end

theorem coreOf_raiseFlags (s : State) (c raised : Nat) : coreOf (raiseFlags s c raised) c
    = { coreOf s c with ex := { (coreOf s c).ex with fpflags := (coreOf s c).ex.fpflags ||| BitVec.ofNat 5 raised } } :=
  coreOf_updCore_same s c _

/-- What a trap window in which no enabled flag was raised comes to, before its word is done: the result reaches OPD. -/
theorem vecFinish_consumed (s : State) (c : Nat) (v : VCmd) (rest : List VCmd) (r : VOut) :
    let w := vecFinish (consumed v (atWindow s c rest)) c v r
    w.cur = (c, false) ∧ (coreOf w c).vq = rest ∧ (coreOf w c).sup = (coreOf s c).sup ∧ (coreOf w c).stepping = (coreOf s c).stepping
      ∧ w.mem = withBlock s.mem v.d r := by
  obtain ⟨q, a, b, hfed⟩ := consumed_becomes v (atWindow s c rest)
  obtain ⟨wvq, wsup, wstepping, -⟩ := vecFinish_leaves (consumed v (atWindow s c rest)) c v r
  obtain ⟨wmem, -, -, wcur⟩ := vecFinish_frame (consumed v (atWindow s c rest)) c v r
  have hcur : (consumed v (atWindow s c rest)).cur = (c, false) := otherUnits_cur hfed.units
  have hcore : coreOf (consumed v (atWindow s c rest)) c = { coreOf (atWindow s c rest) c with q := q, act := a, berths := b } := by
    have h := hfed.core
    rwa [curCore, hcur] at h
  rw [hcore, coreOf_atWindow] at wvq wsup wstepping
  rw [otherUnits_mem hfed.units] at wmem
  exact ⟨wcur.trans hcur, wvq, wsup, wstepping, wmem⟩

theorem vectorCommandsComplete : Sys2Proof.Claims.VectorCommandsComplete := by
  intro s c v rest hc hvq hgear hblocked r
  have hcore := coreOf_withoutOldest s c rest
  refine ⟨fun hwin => ?_, fun hwin hraised hsup hregion hrest => ?_, fun hwin hraised hsup hstep => ?_⟩
  · obtain ⟨tvq, -, -, tflags, tq, tsupS, ts⟩ := vecFinish_leaves (withoutOldest s c rest) c v r
    obtain ⟨tmem, tcores, tfe, -⟩ := vecFinish_frame (withoutOldest s c rest) c v r
    rw [hcore] at tvq tflags tq tsupS ts
    refine ⟨_, exec_vectorComplete_outside hc hvq hgear hblocked hwin, tvq, tflags,
      fun d hd => (tcores d hd).trans (coreOf_updCore_other s _ hd), tfe, ?_⟩
    split
    · next hd => rw [hd] at tmem; exact tmem
    · next a hd => rw [hd] at tmem; exact tmem
    · next q hd =>
      refine ⟨by rw [hd] at tmem; exact tmem, (qGet_congr tq q).trans ?_⟩
      simp only [withResult, hd, qGet_qAdd_same]
      rfl
    · next n hd =>
      refine ⟨by rw [hd] at tmem; exact tmem, ?_⟩
      rw [tsupS, ts]
      simp only [withResult, hd]
      split
      · exact sGet_sSet_same _ _ _
      · exact sGet_sSet_same _ _ _
  · obtain ⟨raised, addr, info, hexec⟩ := exec_vectorComplete_traps hc hvq hgear hblocked hwin hraised
    have hu := coreOf_raiseFlags (atWindow s c rest) c raised
    rw [coreOf_atWindow] at hu
    obtain ⟨tvq, tsup, tcause, tpc, tmem⟩ := executeStream_traps (s := raiseFlags (atWindow s c rest) c raised) (code := 0x0120) (addr := addr)
      (info := info) (c := c) rfl (by rw [hu]; exact hsup) (by rw [hu]; exact hregion) (by rw [hu]; exact hrest)
    rw [hu] at tvq tpc
    exact ⟨_, hexec, tvq, tsup, tcause, tpc, tmem⟩
  · have hexec := exec_vectorComplete_done hc hvq hgear hblocked hwin hraised
    obtain ⟨wcur, wvq, wsup, wstepping, wmem⟩ := vecFinish_consumed s c v rest r
    obtain ⟨tvq, twait, tpc, tmem⟩ := executeStream_done (s := atWindow s c rest) v.instr (vecOps v.instr).1 wcur (wsup.trans hsup)
      (wstepping.trans hstep)
    obtain ⟨upc, -⟩ := executeStream_now (s := atWindow s c rest) (c := c) rfl (by rw [coreOf_atWindow]; exact hsup)
    rw [nextPc, upc, coreOf_atWindow] at tpc
    exact ⟨_, hexec, tvq.trans wvq, twait, tpc, tmem.trans wmem⟩

end Sys2Proof.Machine

section

open Sys2Proof.Machine

/-- Settles O41: a vector instruction joins the queue with its operands consumed or holds its stream in its trap window, and its command
writes its result, raises its flags and ends the window. -/
theorem vectorInstructions : Obligations.VectorInstructions := ⟨vectorInstructionsIssue, vectorCommandsComplete⟩

end
end

/-! Words that issue (R71, R72, R75, R106, R107, R119): what a word may change of its own core, what reading an operand and writing a result do
to it, and where a word that is done, held or trapped leaves its stream. -/

namespace Sys2Proof.Machine

open Sys2Proof.Claims

/- What a word may change of its own core. -/

/-- No unit but the cores has changed. -/
def CoresOnly (s t : State) : Prop := { t with cores := s.cores } = s

/-- A word has changed, of the cores, what issuing moves on, the scalar registers of l and the predicates of p. -/
structure Changes (s t : State) (l : List (BitVec 6)) (p : List (BitVec 3)) : Prop where
  frame : CoreFrame s t
  scalars : ScalarsBut s t l
  preds : PredsBut s t p

/-- The registers of a core, and the vector results that still wait for one. -/
def regBank (k : Core) : Bool × Vector W64 64 × Vector Bool 8 × (Vector W64 64 × Vector Bool 8) × (Vector W64 64 × Vector Bool 8) × List VCmd :=
  (k.sup, k.supS, k.supK, (k.ex.s, k.ex.k), (k.pi.s, k.pi.k), k.vq)

section

variable {s t u : State}

/-- A unit that is no core is as it was. -/
theorem CoresOnly.field {α : Type} (h : CoresOnly s t) (g : State → α) (hg : ∀ (x : State) cs, g { x with cores := cs } = g x) : g t = g s := by
  rw [← hg t s.cores, h]

theorem CoresOnly.mem (h : CoresOnly s t) : t.mem = s.mem := h.field State.mem (fun _ _ => rfl)

theorem CoresOnly.refl (s : State) : CoresOnly s s := rfl

theorem CoresOnly.trans (h : CoresOnly s t) (h' : CoresOnly t u) : CoresOnly s u := by
  have hu : { u with cores := s.cores } = { t with cores := s.cores } := congrArg (fun x : State => { x with cores := s.cores }) h'
  exact hu.trans h

theorem CoresOnly.otherUnits (h : CoresOnly s t) (hc : ∀ c, c ≠ s.cur.1 → coreOf t c = coreOf s c) : OtherUnits s t := ⟨h, hc⟩

theorem coreFrame_refl (s : State) : CoreFrame s s := ⟨fun _ _ => rfl, rfl, rfl, rfl, rfl, id⟩

theorem coreFrame_trans (h : CoreFrame s t) (h' : CoreFrame t u) : CoreFrame s u := by
  obtain ⟨hcores, hcore, hstream, hother, hcur, hregion⟩ := h
  obtain ⟨hcores', hcore', hstream', hother', hcur', hregion'⟩ := h'
  rw [hcur] at hcores' hother'
  exact ⟨fun c hc => (hcores' c hc).trans (hcores c hc), hcore'.trans hcore, hstream'.trans hstream, hother'.trans hother, hcur'.trans hcur,
    hregion' ∘ hregion⟩

theorem coreFrame_supNow (h : CoreFrame s t) : supNow t = supNow s := by
  obtain ⟨-, hcore, -, -, hcur, -⟩ := h
  have hsup : (curCore t).sup = (curCore s).sup := by
    have := congrArg Core.sup hcore
    exact this
  rw [supNow, supNow, hcur, hsup]

theorem frame_of_coreFrame (h : CoreFrame s t) (hu : CoresOnly s t) : Frame s t := by
  obtain ⟨hcores, hcore, hstream, hother, -, hregion⟩ := h
  exact ⟨⟨hu, hcores⟩, hcore, hstream, hother, hregion⟩

theorem scalarsBut_trans {l l' : List (BitVec 6)} (hsup : supNow t = supNow s) (h : ScalarsBut s t l) (h' : ScalarsBut t u l') :
    ScalarsBut s u (l ++ l') := by
  intro j hj
  rw [List.mem_append, not_or] at hj
  obtain ⟨hread, hwaits⟩ := h j hj.1
  obtain ⟨hread', hwaits'⟩ := h' j hj.2
  refine ⟨hread'.trans hread, fun v hv hd hs => ?_⟩
  obtain ⟨w, hw, hwd, hws, hwo⟩ := hwaits v hv hd hs
  obtain ⟨x, hx, hxd, hxs, hxo⟩ := hwaits' w hw hwd (hws.trans (hs.trans hsup.symm))
  exact ⟨x, hx, hxd, hxs.trans hws, hxo.trans hwo⟩

theorem predsBut_trans {p p' : List (BitVec 3)} (h : PredsBut s t p) (h' : PredsBut t u p') : PredsBut s u (p ++ p') := by
  intro j hj
  rw [List.mem_append, not_or] at hj
  exact (h' j hj.2).trans (h j hj.1)

theorem Changes.trans {l l' : List (BitVec 6)} {p p' : List (BitVec 3)} (h : Changes s t l p) (h' : Changes t u l' p') :
    Changes s u (l ++ l') (p ++ p') :=
  ⟨coreFrame_trans h.frame h'.frame, scalarsBut_trans (coreFrame_supNow h.frame) h.scalars h'.scalars, predsBut_trans h.preds h'.preds⟩

/-- Where a core holds its registers and the vector queue has not changed, the stream that issues reads what it read. -/
theorem reads_of_regBank (hcur : t.cur = s.cur) (h : regBank (curCore t) = regBank (curCore s)) :
    supNow t = supNow s ∧ (∀ n, readS t n = readS s n) ∧ (∀ n, readK t n = readK s n) ∧ (curCore t).vq = (curCore s).vq := by
  simp only [regBank, Prod.mk.injEq] at h
  obtain ⟨hsup, hsupS, hsupK, ⟨hexS, hexK⟩, ⟨hpiS, hpiK⟩, hvq⟩ := h
  have hnow : supNow t = supNow s := by rw [supNow, supNow, hcur, hsup]
  have hs : (curStream t).s = (curStream s).s := by
    rw [curStream, curStream, hcur, streamOf, streamOf]
    split
    · exact hpiS
    · exact hexS
  have hk : (curStream t).k = (curStream s).k := by
    rw [curStream, curStream, hcur, streamOf, streamOf]
    split
    · exact hpiK
    · exact hexK
  refine ⟨hnow, fun n => ?_, fun n => ?_, hvq⟩
  · rw [readS, readS, hnow, hsupS, hs]
  · rw [readK, readK, hnow, hsupK, hk]

theorem registers_of_regBank (hcur : t.cur = s.cur) (h : regBank (curCore t) = regBank (curCore s)) :
    ScalarsBut s t [] ∧ PredsBut s t [] := by
  obtain ⟨-, hs, hk, hvq⟩ := reads_of_regBank hcur h
  exact ⟨scalarsBut_of_readS hs (by rw [hvq]; exact List.Subset.refl _), fun n _ => hk n⟩

/-- A change of the core that issues which keeps its registers. -/
theorem Changes.of_core {f : Core → Core} (hrest : coreRest (f (curCore s)) = coreRest (curCore s))
    (hregs : regBank (f (curCore s)) = regBank (curCore s)) (hstreams : ∀ p, streamOf (f (curCore s)) p = streamOf (curCore s) p)
    (hregion : (curCore s).region = none → (f (curCore s)).region = none) : Changes s (updCurCore s f) [] [] := by
  obtain ⟨hs, hk⟩ := registers_of_regBank (s := s) (t := updCurCore s f) rfl (by rw [curCore_updCurCore]; exact hregs)
  refine ⟨⟨fun c hc => coreOf_updCore_other s f hc, ?_, ?_, ?_, rfl, ?_⟩, hs, hk⟩
  · rw [curCore_updCurCore, hrest]
  · rw [curStream_updCurCore]; exact congrArg streamRest (hstreams _)
  · rw [curCore_updCurCore, hstreams]
  · rwa [curCore_updCurCore]

theorem Changes.refl (s : State) : Changes s s [] [] := by
  obtain ⟨hs, hk⟩ := registers_of_regBank (s := s) rfl rfl
  exact ⟨coreFrame_refl s, hs, hk⟩

/-- Where the cores are the same, no register has changed. -/
theorem Changes.of_cores (hcores : t.cores = s.cores) (hcur : t.cur = s.cur) : Changes s t [] [] := by
  have hcore : ∀ c, coreOf t c = coreOf s c := fun c => by rw [coreOf, coreOf, hcores]
  have hnow : curCore t = curCore s := by rw [curCore, curCore, hcur, hcore]
  have hstream : curStream t = curStream s := by rw [curStream, curStream, hnow, hcur]
  obtain ⟨hs, hk⟩ := registers_of_regBank (s := s) (t := t) hcur (by rw [hnow])
  exact ⟨⟨fun c _ => hcore c, by rw [hnow], by rw [hstream], by rw [hnow], hcur, fun h => by rw [hnow, h]⟩, hs, hk⟩

end

/- Operands read, and results written. -/

section

variable (s : State)

theorem readChan_moves (c : BitVec 3) (n : Nat) : (readChan s c n).2 = s ∨ ∃ (a : Act) (x : Nat), (curCore s).act = some a
    ∧ (readChan s c n).2 = updCurCore s (fun k => { k with act := some { a with cursor := x } }) := by
  unfold readChan
  split
  · next a ha =>
    split
    · exact .inr ⟨a, _, ha, rfl⟩
    · exact .inl rfl
  · exact .inl rfl

/-- Reading a scalar source consumes nothing, the first entry of the queue that it names, or payload (R75, R113). -/
theorem readSrcW_moves (op : Operand) (zx w : Bool) : (readSrcW op zx w s).2 = s
    ∨ (∃ n, op = .q n ∧ (readSrcW op zx w s).2 = qPop s n)
    ∨ ∃ (a : Act) (x : Nat), (curCore s).act = some a
        ∧ (readSrcW op zx w s).2 = updCurCore s (fun k => { k with act := some { a with cursor := x } }) := by
  cases op with
  | q n =>
    simp only [readSrcW]
    split
    · exact .inr (.inl ⟨n, rfl, rfl⟩)
    · exact .inl rfl
  | c n =>
    cases w
    · exact (readChan_moves s n 8).imp_right .inr
    · exact (readChan_moves s n 4).imp_right .inr
  | _ => exact .inl rfl

theorem changes_qPop (n : BitVec 4) : Changes s (qPop s n) [] [] :=
  Changes.of_core rfl rfl (fun p => by cases p <;> rfl) id

theorem changes_qPush (n : BitVec 4) (e : QEnt) : Changes s (qPush s n e) [] [] :=
  Changes.of_core rfl rfl (fun p => by cases p <;> rfl) id

theorem changes_readSrcW (op : Operand) (zx w : Bool) : Changes s (readSrcW op zx w s).2 [] [] := by
  obtain h | ⟨n, -, h⟩ | ⟨a, x, ha, h⟩ := readSrcW_moves s op zx w
  · rw [h]; exact Changes.refl s
  · rw [h]; exact changes_qPop s n
  · rw [h]
    refine Changes.of_core ?_ rfl (fun p => by cases p <;> rfl) id
    simp only [coreRest, ha, Option.map_some]

theorem coresOnly_readSrcW (op : Operand) (zx w : Bool) : CoresOnly s (readSrcW op zx w s).2 := by
  obtain h | ⟨n, -, h⟩ | ⟨a, x, -, h⟩ := readSrcW_moves s op zx w <;> rw [h] <;> rfl

/-- Reading a source leaves every queue that it does not name. -/
theorem qGet_readSrcW_other {op : Operand} (zx w : Bool) {n : BitVec 4} (hop : op ≠ .q n) :
    qGet (curCore (readSrcW op zx w s).2) n = qGet (curCore s) n := by
  obtain h | ⟨j, hj, h⟩ | ⟨a, x, -, h⟩ := readSrcW_moves s op zx w
  · rw [h]
  · have hne : n ≠ j := fun e => hop (hj.trans (by rw [e]))
    rw [h, qPop, curCore_updCurCore, qGet_qSet_other _ _ hne]
  · rw [h, curCore_updCurCore]
    rfl

theorem changes_readSrc (op : Operand) : Changes s (readSrc op s).2 [] [] := changes_readSrcW s op false false
theorem coresOnly_readSrc (op : Operand) : CoresOnly s (readSrc op s).2 := coresOnly_readSrcW s op false false

/- Scalar registers. -/

theorem writeS_readS_same (n : BitVec 6) (v : W64) : readS (writeS s n v) n = v := by
  unfold writeS
  split
  · next h =>
    have hsup : supNow (updCurCore s (fun c => dropResult { c with supS := sSet c.supS n v } true n)) = true := by
      rw [← h, supNow, supNow, curCore_updCurCore]
      rfl
    rw [readS, hsup, if_pos rfl, curCore_updCurCore]
    exact sGet_sSet_same _ _ _
  · next h =>
    split
    · rw [readS, supNow_updCur, if_neg h, curStream_updCur]
      exact sGet_sSet_same _ _ _
    · next hp =>
      have hsup : supNow (updCurCore s (fun c => dropResult (dropTag { c with ex := { c.ex with s := sSet c.ex.s n v } } n) false n)) = false := by
        rw [supNow, curCore_updCurCore]
        simpa [supNow, hp, dropResult, dropTag] using h
      rw [readS, hsup, if_neg Bool.false_ne_true, curStream_updCurCore]
      rw [Bool.not_eq_true] at hp
      rw [hp]
      exact sGet_sSet_same _ _ _

end

end Sys2Proof.Machine

/-! Words that write registers (R74, R77, R147): what a scalar register or a predicate that is written leaves of its core. -/

namespace Sys2Proof.Machine

open Sys2Proof.Claims

section

variable (s : State)

theorem vecRest_dropped (v : VCmd) (sup : Bool) (n : BitVec 6) :
    vecRest (if v.d = .scalar n ∧ v.sup = sup then { v with d := .none } else v) = vecRest v := by
  split
  · next h => simp [vecRest, h.1]
  · rfl

theorem coreRest_dropResult (k : Core) (sup : Bool) (n : BitVec 6) : coreRest (dropResult k sup n) = coreRest k := by
  have hvq : (dropResult k sup n).vq.map vecRest = k.vq.map vecRest := by
    simp only [dropResult, List.map_map]
    exact List.map_congr_left (fun v _ => vecRest_dropped v sup n)
  have hrest : coreRest (dropResult k sup n) = { coreRest k with vq := (dropResult k sup n).vq.map vecRest } := rfl
  rw [hrest, hvq]
  rfl

/-- A result that waits for another register is still waited for (R147). -/
theorem mem_dropResult {k : Core} {sup : Bool} {n j : BitVec 6} {v : VCmd} (hv : v ∈ k.vq) (hd : v.d = .scalar j) (hj : j ≠ n) :
    v ∈ (dropResult k sup n).vq := by
  refine List.mem_map.mpr ⟨v, hv, if_neg ?_⟩
  rintro ⟨hn, -⟩
  rw [hd, VDst.scalar.injEq] at hn
  exact hj hn

/-- The core that issues once a scalar register of its stream has been written (R77, R147, R323). -/
def wroteS (s : State) (n : BitVec 6) (v : W64) (c : Core) : Core :=
  if supNow s then dropResult { c with supS := sSet c.supS n v } true n
  else if s.cur.2 then { c with pi := { c.pi with s := sSet c.pi.s n v } }
  else dropResult (dropTag { c with ex := { c.ex with s := sSet c.ex.s n v } } n) false n

theorem writeS_eq (n : BitVec 6) (v : W64) : writeS s n v = updCurCore s (wroteS s n v) := by
  unfold writeS wroteS
  split
  · rfl
  · split
    · next hp =>
      rw [updCur, updStream, hp]
      rfl
    · rfl

theorem wroteS_frame (n : BitVec 6) (v : W64) (k : Core) : coreRest (wroteS s n v k) = coreRest k ∧ (wroteS s n v k).sup = k.sup
    ∧ (wroteS s n v k).supK = k.supK ∧ (∀ p, (streamOf (wroteS s n v k) p).k = (streamOf k p).k)
    ∧ (∀ p, streamRest (streamOf (wroteS s n v k) p) = streamRest (streamOf k p))
    ∧ streamOf (wroteS s n v k) (!s.cur.2) = streamOf k (!s.cur.2) ∧ (k.region = none → (wroteS s n v k).region = none) := by
  unfold wroteS
  split
  · next h =>
    refine ⟨coreRest_dropResult _ _ _, rfl, rfl, fun p => by cases p <;> rfl, fun p => by cases p <;> rfl, ?_, id⟩
    cases s.cur.2 <;> rfl
  · split
    · next hp =>
      exact ⟨rfl, rfl, rfl, fun p => by cases p <;> rfl, fun p => by cases p <;> rfl, by rw [hp]; rfl, id⟩
    · next hp =>
      refine ⟨coreRest_dropResult _ _ _, rfl, rfl, fun p => by cases p <;> rfl, fun p => by cases p <;> rfl, ?_, fun h => ?_⟩
      · rw [Bool.not_eq_true] at hp
        rw [hp]
        rfl
      · simp [dropResult, dropTag, h]

theorem readS_writeS_other {n j : BitVec 6} (v : W64) (h : j ≠ n) : readS (writeS s n v) j = readS s j := by
  have hsup : supNow (writeS s n v) = supNow s := by
    rw [writeS_eq, supNow, supNow, curCore_updCurCore, (wroteS_frame s n v _).2.1]
    rfl
  rw [readS, readS, hsup, writeS_eq, curCore_updCurCore, curStream_updCurCore]
  unfold wroteS
  split
  · exact sGet_sSet_other _ _ h
  · split
    · next hp =>
      rw [curStream, hp]
      exact sGet_sSet_other _ _ h
    · next hp =>
      rw [Bool.not_eq_true] at hp
      rw [curStream, hp]
      exact sGet_sSet_other _ _ h

theorem mem_vq_writeS {n j : BitVec 6} (x : W64) {v : VCmd} (hv : v ∈ (curCore s).vq) (hd : v.d = .scalar j) (h : j ≠ n) :
    v ∈ (curCore (writeS s n x)).vq := by
  rw [writeS_eq, curCore_updCurCore]
  unfold wroteS
  split
  · exact mem_dropResult hv hd h
  · split
    · exact hv
    · exact mem_dropResult hv hd h

theorem changes_writeS (n : BitVec 6) (v : W64) : Changes s (writeS s n v) [n] [] := by
  obtain ⟨hrest, hsup, hsupK, hk, hstream, hother, hregion⟩ := wroteS_frame s n v (curCore s)
  have hnow : supNow (writeS s n v) = supNow s := by
    rw [writeS_eq, supNow, supNow, curCore_updCurCore, hsup]
    rfl
  refine ⟨?_, fun j hj => ?_, fun j _ => ?_⟩
  · rw [writeS_eq]
    refine ⟨fun c hc => coreOf_updCore_other s _ hc, ?_, ?_, ?_, rfl, ?_⟩
    · rw [curCore_updCurCore, hrest]
    · rw [curStream_updCurCore]; exact hstream _
    · rw [curCore_updCurCore, hother]
    · rwa [curCore_updCurCore]
  · rw [List.mem_singleton] at hj
    exact ⟨readS_writeS_other s v hj, fun w hw hd _ => ⟨w, mem_vq_writeS s v hw hd hj, hd, rfl, rfl⟩⟩
  · rw [readK, readK, hnow, writeS_eq, curCore_updCurCore, curStream_updCurCore, hsupK, hk]
    rfl

theorem coresOnly_writeS (n : BitVec 6) (v : W64) : CoresOnly s (writeS s n v) := by
  rw [writeS_eq]
  rfl

/- Predicates. -/

/-- The core that issues once a predicate of its stream has been written (R74, R77). -/
def wroteK (s : State) (n : BitVec 3) (v : Bool) (c : Core) : Core :=
  if supNow s then { c with supK := kSet c.supK n v }
  else setStream c s.cur.2 { streamOf c s.cur.2 with k := kSet (streamOf c s.cur.2).k n v }

theorem writeK_eq (n : BitVec 3) (v : Bool) : writeK s n v = updCurCore s (wroteK s n v) := by
  unfold writeK wroteK
  split <;> rfl

theorem wroteK_frame (n : BitVec 3) (v : Bool) (k : Core) : coreRest (wroteK s n v k) = coreRest k ∧ (wroteK s n v k).sup = k.sup
    ∧ (wroteK s n v k).supS = k.supS ∧ (wroteK s n v k).vq = k.vq ∧ (∀ p, (streamOf (wroteK s n v k) p).s = (streamOf k p).s)
    ∧ (∀ p, streamRest (streamOf (wroteK s n v k) p) = streamRest (streamOf k p))
    ∧ streamOf (wroteK s n v k) (!s.cur.2) = streamOf k (!s.cur.2) ∧ (wroteK s n v k).region = k.region
    ∧ (wroteK s n v k).q = k.q ∧ (wroteK s n v k).dl = k.dl := by
  unfold wroteK
  split
  · exact ⟨rfl, rfl, rfl, rfl, fun p => by cases p <;> rfl, fun p => by cases p <;> rfl, by cases s.cur.2 <;> rfl, rfl, rfl, rfl⟩
  · cases s.cur.2 <;>
    exact ⟨rfl, rfl, rfl, rfl, fun p => by cases p <;> rfl, fun p => by cases p <;> rfl, rfl, rfl, rfl, rfl⟩

theorem supNow_writeK (n : BitVec 3) (v : Bool) : supNow (writeK s n v) = supNow s := by
  rw [writeK_eq, supNow, supNow, curCore_updCurCore, (wroteK_frame s n v _).2.1]
  rfl

theorem readK_zero : readK s 0 = true := by
  unfold readK
  split <;> exact kGet_zero _

theorem readK_writeK_same {n : BitVec 3} (v : Bool) (h : n ≠ 0) : readK (writeK s n v) n = v := by
  rw [readK, supNow_writeK, writeK_eq, curCore_updCurCore, curStream_updCurCore]
  unfold wroteK
  split
  · exact kGet_kSet_same _ _ h
  · rw [streamOf_setStream_same]
    exact kGet_kSet_same _ _ h

theorem readK_writeK_other {n j : BitVec 3} (v : Bool) (h : j ≠ n) : readK (writeK s n v) j = readK s j := by
  rw [readK, readK, supNow_writeK, writeK_eq, curCore_updCurCore, curStream_updCurCore]
  unfold wroteK
  split
  · exact kGet_kSet_other _ _ h
  · rw [streamOf_setStream_same]
    exact kGet_kSet_other _ _ h

theorem changes_writeK (n : BitVec 3) (v : Bool) : Changes s (writeK s n v) [] [n] := by
  obtain ⟨hrest, hsup, hsupS, hvq, hs, hstream, hother, hregion, -⟩ := wroteK_frame s n v (curCore s)
  have hread : ∀ j, readS (writeK s n v) j = readS s j := fun j => by
    rw [readS, readS, supNow_writeK, writeK_eq, curCore_updCurCore, curStream_updCurCore, hsupS, hs]
    rfl
  refine ⟨?_, scalarsBut_of_readS hread ?_, fun j hj => readK_writeK_other s v (List.mem_singleton.not.mp hj)⟩
  · rw [writeK_eq]
    refine ⟨fun c hc => coreOf_updCore_other s _ hc, ?_, ?_, ?_, rfl, ?_⟩
    · rw [curCore_updCurCore, hrest]
    · rw [curStream_updCurCore]; exact hstream _
    · rw [curCore_updCurCore, hother]
    · rw [curCore_updCurCore, hregion]; exact id
  · rw [writeK_eq, curCore_updCurCore, hvq]
    exact List.Subset.refl _

theorem coresOnly_writeK (n : BitVec 3) (v : Bool) : CoresOnly s (writeK s n v) := by
  rw [writeK_eq]
  rfl

theorem writeK_frame (n : BitVec 3) (v : Bool) : (curCore (writeK s n v)).q = (curCore s).q ∧ (curCore (writeK s n v)).dl = (curCore s).dl := by
  obtain ⟨-, -, -, -, -, -, -, -, hq, hdl⟩ := wroteK_frame s n v (curCore s)
  rw [writeK_eq, curCore_updCurCore]
  exact ⟨hq, hdl⟩

/-- What a predicate write leaves is the result of a predicate destination (R74, R158). -/
theorem predResult_writeK (n : BitVec 3) (v : Bool) : PredResult s (writeK s n v) (.k n) v :=
  ⟨fun h => readK_writeK_same s v h, readK_zero _, (changes_writeK s n v).preds⟩

end

end Sys2Proof.Machine

/-! Words that are done, held or trapped (R72, R75, R107, R129): where each leaves its stream, and what it passes on. -/

namespace Sys2Proof.Machine

open Sys2Proof.Claims

/- Results (R74, R134). -/

/-- The scalar register that a destination names. -/
def scalarIn (op : Operand) : List (BitVec 6) := match op with | .s n => [n] | _ => []

/-- A value written to a destination is its result, where nothing but operands was consumed before. -/
theorem writeDst_result {s u : State} (op : Operand) (v : W64) (h : Changes s u [] []) (hu : CoresOnly s u)
    (hq : ∀ n, op = .q n → qGet (curCore u) n = qGet (curCore s) n) :
    Result s (writeDst op v u) op v ∧ Changes s (writeDst op v u) (scalarIn op) [] ∧ CoresOnly s (writeDst op v u) := by
  cases op with
  | s n =>
    have hw := h.trans (changes_writeS u n v)
    exact ⟨⟨writeS_readS_same u n v, hw.scalars⟩, hw, hu.trans (coresOnly_writeS u n v)⟩
  | q n =>
    have hw := h.trans (changes_qPush u n (.word v))
    refine ⟨⟨hw.scalars, ?_⟩, hw, hu.trans rfl⟩
    rw [writeDst, qPush, curCore_updCurCore, qGet_qAdd_same, hq n rfl]
  | _ => exact ⟨h.scalars, h, hu⟩

/-- A result stands after what changes no scalar register and no queue. -/
theorem result_kept {s t t' : State} {d : Operand} {v : W64} (hsup : supNow t = supNow s) (hs : ScalarsBut t t' [])
    (hq : (curCore t').q = (curCore t).q) (hr : Result s t d v) : Result s t' d v := by
  have hkept : ∀ l, ScalarsBut s t l → ScalarsBut s t' l := fun l h => by
    have hall := scalarsBut_trans hsup h hs
    rwa [List.append_nil] at hall
  cases d with
  | s n => exact ⟨((hs n List.not_mem_nil).1).trans hr.1, hkept [n] hr.2⟩
  | q n => exact ⟨hkept [] hr.1, (qGet_congr hq n).trans hr.2⟩
  | _ => exact hkept [] hr

/- A word that is done (R68, R72, R75, R323). -/

/-- A word that is done has moved its stream on, and has pinned load slots of its region: nothing else has changed. -/
structure PassesOn (u t : State) : Prop where
  units : OtherUnits u t
  core : coreBank { curCore t with region := none } = coreBank { curCore u with region := none }
  stream : streamBank (curStream t) = streamBank (curStream u)
  other : streamOf (curCore t) (!u.cur.2) = streamOf (curCore u) (!u.cur.2)
  region : (curCore u).region = none → (curCore t).region = none

section

variable {s t u : State}

theorem MovesOn.passesOn (h : MovesOn u t) : PassesOn u t :=
  ⟨h.units, h.core_field (fun k => coreBank { k with region := none }) (fun _ => rfl), h.stream, h.other, fun hr => by
    rw [h.core_field Core.region (fun _ => rfl), hr]⟩

theorem CoreBecomes.passesOn {r : Option Region} (h : CoreBecomes u t { curCore u with region := r }) (hr : (curCore u).region = none → r = none) :
    PassesOn u t := by
  refine ⟨h.units, by rw [h.core], by rw [h.curStream rfl], ?_, fun hu => by rw [h.core]; exact hr hu⟩
  rw [h.core]
  exact streamOf_congr rfl rfl

section

variable (h : PassesOn u t)

include h

theorem PassesOn.cur : t.cur = u.cur := otherUnits_cur h.units

theorem PassesOn.trans {x : State} (h' : PassesOn t x) : PassesOn u x := by
  refine ⟨otherUnits_trans h.units h'.units, h'.core.trans h.core, h'.stream.trans h.stream, ?_, h'.region ∘ h.region⟩
  have hother := h'.other
  rw [h.cur] at hother
  exact hother.trans h.other

theorem PassesOn.core_field {α : Type} (g : Core → α) (hg : ∀ k, g (coreBank { k with region := none }) = g k) : g (curCore t) = g (curCore u) := by
  rw [← hg, h.core, hg]

theorem PassesOn.stream_field {α : Type} (g : Stream → α) (hg : ∀ x, g (streamBank x) = g x) : g (curStream t) = g (curStream u) := by
  rw [← hg, h.stream, hg]

theorem PassesOn.supNow : supNow t = supNow u := by
  rw [Machine.supNow, Machine.supNow, h.cur, h.core_field Core.sup (fun _ => rfl)]

theorem PassesOn.readS (n : BitVec 6) : readS t n = readS u n := by
  rw [Machine.readS, Machine.readS, h.supNow, h.core_field Core.supS (fun _ => rfl), h.stream_field Stream.s (fun _ => rfl)]

theorem PassesOn.readK (n : BitVec 3) : readK t n = readK u n := by
  rw [Machine.readK, Machine.readK, h.supNow, h.core_field Core.supK (fun _ => rfl), h.stream_field Stream.k (fun _ => rfl)]

theorem PassesOn.unstepped : unstepped t = unstepped u := by
  rw [Machine.unstepped, Machine.unstepped, h.supNow, h.core_field Core.stepping (fun _ => rfl), h.cur]

theorem PassesOn.qGet (n : BitVec 4) : qGet (curCore t) n = qGet (curCore u) n := qGet_congr (h.core_field Core.q (fun _ => rfl)) n

theorem PassesOn.changes : Changes u t [] [] := by
  refine ⟨⟨h.units.2, h.core_field coreRest (fun _ => rfl), h.stream_field streamRest (fun _ => rfl), h.other, h.cur, h.region⟩,
    scalarsBut_of_readS h.readS ?_, fun n _ => h.readK n⟩
  rw [h.core_field Core.vq (fun _ => rfl)]
  exact List.Subset.refl _

theorem PassesOn.coresOnly : CoresOnly u t := h.units.1

/-- What a word has changed before it was done. -/
theorem PassesOn.after {l : List (BitVec 6)} {p : List (BitVec 3)} (hs : Changes s u l p) : Changes s t l p := by
  have hall := hs.trans h.changes
  rwa [List.append_nil, List.append_nil] at hall

theorem PassesOn.scalars {l : List (BitVec 6)} (hsup : Machine.supNow u = Machine.supNow s) (hs : ScalarsBut s u l) : ScalarsBut s t l := by
  have hall := scalarsBut_trans hsup hs h.changes.scalars
  rwa [List.append_nil] at hall

theorem PassesOn.preds {p : List (BitVec 3)} (hs : PredsBut s u p) : PredsBut s t p := by
  have hall := predsBut_trans hs h.changes.preds
  rwa [List.append_nil] at hall

theorem PassesOn.result {d : Operand} {v : W64} (hsup : Machine.supNow u = Machine.supNow s) (hr : Result s u d v) : Result s t d v :=
  result_kept hsup h.changes.scalars (h.core_field Core.q (fun _ => rfl)) hr

theorem PassesOn.predResult {n : BitVec 3} {v : Bool} (hr : PredResult s u (.k n) v) : PredResult s t (.k n) v := by
  obtain ⟨hval, hzero, hpreds⟩ := hr
  exact ⟨fun hn => (h.readK n).trans (hval hn), (h.readK 0).trans hzero, h.preds hpreds⟩

end

theorem region_pinOp (s0 : State) (op : Operand) (h : (curCore s).region = none) : (curCore (pinOp s0 op s)).region = none := by
  unfold pinOp
  split
  · rw [pinSlot, curCore_updCurCore, h]
    rfl
  · exact h

theorem region_notePins (i : Instr) (o : Ops) (d : Bool) (s0 : State) (h : (curCore s).region = none) :
    (curCore (notePins i o d s0 s)).region = none := by
  have hab := region_pinOp s0 o.b (region_pinOp s0 o.a h)
  unfold notePins
  split
  · exact h
  · dsimp only
    split
    · exact region_pinOp s0 o.d hab
    · exact hab

theorem passesOn_pinOp (s s0 : State) (op : Operand) : PassesOn s (pinOp s0 op s) := by
  obtain ⟨r, h⟩ := pinOp_becomes s s0 op
  refine h.passesOn (fun hr => ?_)
  have := region_pinOp s0 op hr
  rwa [h.core] at this

theorem passesOn_notePins (s : State) (i : Instr) (o : Ops) (d : Bool) (s0 : State) : PassesOn s (notePins i o d s0 s) := by
  obtain ⟨r, h⟩ := notePins_becomes s i o d s0
  refine h.passesOn (fun hr => ?_)
  have := region_notePins i o d s0 hr
  rwa [h.core] at this

/-- A word that is done passes on, to the program counter that it gives or to the next instruction, and waits no more. -/
theorem runBody_fin_passes (i : Instr) (o : Ops) (d : Bool) (s : State) {u : State} (npc : Option W64) (hstep : unstepped u = true) :
    let t := runBody i o d s (.fin u npc)
    PassesOn u t ∧ pcNow t = npc.getD (nextPc s o) ∧ waitNow t = none
      ∧ ((curStream s).pp = false → (curStream t).pp = (curStream u).pp) := by
  intro t
  have hpins := passesOn_notePins u i o d s
  have hprefix := movesOn_usePrefix (notePins i o d s u) s
  obtain ⟨hgo, hpc, hwait, hpp⟩ := goOn_moves (usePrefix s (notePins i o d s u)) o npc (npc.getD (nextPc s o))
  have hall := hpins.trans (hprefix.trans hgo).passesOn
  have hrun : t = goOn (usePrefix s (notePins i o d s u)) o npc (npc.getD (nextPc s o)) :=
    (runBody_fin i o d s u npc).trans (afterStep_unstepped (hall.unstepped.trans hstep))
  rw [hrun]
  refine ⟨hall, hpc, hwait, fun hs => hpp.trans ?_⟩
  have hsame : usePrefix s (notePins i o d s u) = notePins i o d s u := if_neg (by simp [hs])
  obtain ⟨r, hbecomes⟩ := notePins_becomes u i o d s
  rw [hsame, hbecomes.curStream rfl]

/- A word that is held (R75, R129). -/

/-- A word that waits holds its stream where it stands: nothing has changed but its wait and the place of the next one. -/
theorem runBody_hold_holds (i : Instr) (o : Ops) (d : Bool) (s : State) (why : WaitWhy) (aux : Nat) (hstep : unstepped s = true) :
    let t := runBody i o d s (.hold s why aux)
    MovesOn { s with arrNext := s.arrNext + 1 } t ∧ pcNow t = pcNow s ∧ ∃ w : Wait, waitNow t = some w ∧ w.instr = i := by
  intro t
  obtain ⟨w, heq, hi, -⟩ := holdAt_eq s i why aux [] none
  have hmoves := movesOn_setWait { s with arrNext := s.arrNext + 1 } (some w)
  have hrun : t = setWait { s with arrNext := s.arrNext + 1 } (some w) := by
    rw [← heq] at hmoves ⊢
    refine if_pos ?_
    have hun := hmoves.unstepped.trans hstep
    simp only [unstepped, Bool.or_eq_true, decide_eq_true_eq] at hun ⊢
    exact .inl hun
  rw [hrun]
  exact ⟨hmoves, pcNow_setWait _ _, w, waitNow_setWait _ _, hi⟩

end

/- A word that issues (R72, R75, R106). -/

section

variable {i : Instr} {m : Meaning} {s : State}

/-- A word that issues passes step 6, runs its body in any phase, and is not stepped. -/
theorem issues_iff (hm : meaningOf i = some m) : issues i s = true ↔ check6 s m.o m.perm m.dRead = none ∧ guardOk s m.o.g = true ∧ prefixBad s i = false
    ∧ engineWait s i m.o = false ∧ overflowWaits s = false ∧ unstepped s = true := by
  simp only [issues, hm, Bool.and_eq_true, Option.isNone_iff_eq_none, Bool.not_eq_true', unstepped, and_assoc]

theorem ready_iff (hm : meaningOf i = some m) : ready i s = true ↔ issues i s = true ∧ queueWait m.o m.dRead s = none := by
  simp only [ready, hm, Bool.and_eq_true, Option.isNone_iff_eq_none]

theorem exec_issues (hm : meaningOf i = some m) (h : issues i s = true) :
    exec i s = .next (runBody i m.o m.dRead s (m.body .issue s)) ∧ unstepped s = true := by
  obtain ⟨hcheck, hguard, hprefix, hengine, hcommit, hstep⟩ := (issues_iff hm).mp h
  exact ⟨(exec_word hm s).trans (issue_runs hcheck hguard hprefix hcommit hengine), hstep⟩

/-- A stream that reads a queue does not write it (R78). -/
theorem canWrite_of_canRead {pilot : Bool} {q : BitVec 4} (h : canRead pilot q = true) : canWrite pilot q = false := by
  revert q pilot
  decide

/-- Step 6 has let every operand through (R78, R106). -/
theorem check6_passes {o : Ops} {p : Perm} {dRead : Bool} (h : check6 s o p dRead = none) : srcDenied s.cur.2 (supNow s) o.a = false
    ∧ srcDenied s.cur.2 (supNow s) o.b = false ∧ (if dRead then srcDenied s.cur.2 (supNow s) o.d else dstDenied s.cur.2 (supNow s) o.d) = false := by
  refine ⟨?_, ?_, ?_⟩ <;> by_contra hc <;> rw [Bool.not_eq_false] at hc <;> simp [check6, hc] at h

/-- A queue that a word writes is none of its sources (R78). -/
theorem issues_queues (hm : meaningOf i = some m) (h : issues i s = true) (hd : m.dRead = false) {n : BitVec 4} (hn : m.o.d = .q n) :
    m.o.a ≠ .q n ∧ m.o.b ≠ .q n := by
  obtain ⟨hcheck, -⟩ := (issues_iff hm).mp h
  obtain ⟨ha, hb, hw⟩ := check6_passes hcheck
  have hwrite : canWrite s.cur.2 n = true := by
    simp only [hd, hn, Bool.false_eq_true, if_false, dstDenied, Bool.or_eq_false_iff, Bool.not_eq_false'] at hw
    exact hw.2
  have hsrc : ∀ op : Operand, srcDenied s.cur.2 (supNow s) op = false → op ≠ .q n := by
    rintro op hop rfl
    simp only [srcDenied, Bool.or_eq_false_iff, Bool.not_eq_false'] at hop
    rw [canWrite_of_canRead hop.2] at hwrite
    exact absurd hwrite Bool.false_ne_true
  exact ⟨hsrc _ ha, hsrc _ hb⟩

end

/- A word that traps (R107, R381, R382). -/

/-- The trap registers after a synchronous trap of the stream that issues, in user mode and outside regions. -/
theorem trapNow_registers {s : State} {x : TrapIn} (hsup : (curCore s).sup = false) (hregion : (curCore s).region = none) (hasync : x.async = false)
    (hmat : x.mat = false) : let t := trapNow s x
    (curCore t).sup = true ∧ (curCore t).tcause = BitVec.ofNat 64 x.code ∧ (curCore t).tinfo = x.info ∧ (curCore t).tpc = pcNow s
      ∧ (∀ a, x.addr = some a → (curCore t).taddr = a) := by
  intro t
  let u := markTrap s s.cur.1 s.cur.2 x
  have henter : t = enterSup u s.cur.1 s.cur.2 (pcNow s) (pcNow s) x false := takeTrap_plain hsup hregion
  have hcur : t.cur = s.cur := by rw [henter, enterSup_cur _ _ _ _ _ _ hmat, markTrap_cur]
  obtain ⟨rsup, rcause, rpc, rinfo, raddr, -⟩ := enterSup_registers u s.cur.1 s.cur.2 (pcNow s) (pcNow s) x false
  rw [← henter] at rsup rcause rpc rinfo raddr
  rw [curCore, hcur]
  have hcause : causeOf x false = BitVec.ofNat 64 x.code := by simp [causeOf, hasync, bitNat]
  exact ⟨rsup, rcause.trans hcause, rinfo, rpc, fun a ha => raddr.trans (trapAddr_some ha)⟩

end Sys2Proof.Machine

/-! Traps that words take, and jumps (R90, R134, R138, R388). -/

namespace Sys2Proof.Machine

open Sys2Proof.Claims

/- Words that trap (R90, R138, R388). -/

section

variable {s : State} {o : Ops}

theorem exec_trap (h : ready (.trap o) s = true) : exec (.trap o) s = .next (trapNow s { code := 0x0112, info := (readSrc o.a s).1 }) := by
  obtain ⟨hexec, hqueue, -⟩ := exec_ready rfl h
  rw [hexec]
  simp only [trapBody, onReady, hqueue, runBody]

theorem exec_syscall (h : ready (.syscall o) s = true) : exec (.syscall o) s
    = .next (trapNow s { code := 0x0113, addr := some (readSrc o.b (readSrc o.a s).2).1, info := (readSrc o.a s).1 }) := by
  obtain ⟨hexec, hqueue, -⟩ := exec_ready rfl h
  rw [hexec]
  simp only [syscallBody, onReady, hqueue, runBody]

/- Jumps (R134). -/

theorem exec_br (h : ready (.br o) s = true) :
    exec (.br o) s = .next (runBody (.br o) o false s (.fin (readSrc o.a s).2 (some (pcNow s + 4 * (readSrc o.a s).1)))) := by
  obtain ⟨hexec, hqueue, -⟩ := exec_ready rfl h
  rw [hexec]
  simp only [brBody, onReady, hqueue, relTarget]

theorem exec_call (h : ready (.call o) s = true) : exec (.call o) s = .next (runBody (.call o) o false s
    (.fin (writeDst o.d (nextPc s o) (readSrc o.a s).2) (some (pcNow s + 4 * (readSrc o.a s).1)))) := by
  obtain ⟨hexec, hqueue, -⟩ := exec_ready rfl h
  rw [hexec]
  simp only [callBody, onReady, hqueue, relTarget]

theorem exec_brdec (h : ready (.brdec o) s = true) : exec (.brdec o) s = .next (runBody (.brdec o) o false s
    (.fin (pinOp s o.d (writeDst o.d ((readSrc o.d s).1 - 1) (readSrc o.a s).2))
      (if (readSrc o.d s).1 - 1 ≠ 0 then some (pcNow s + 4 * (readSrc o.a s).1) else none))) := by
  obtain ⟨hexec, hqueue, -⟩ := exec_ready rfl h
  rw [hexec]
  simp only [brdecBody, onReady, hqueue, relTarget]

/-- BRX and RET act alike (R134). -/
theorem exec_jump {i : Instr} (hi : i = .brx o ∨ i = .ret o) (h : ready i s = true) :
    exec i s = .next (runBody i o false s (jumpTo o s)) ∧ unstepped s = true := by
  rcases hi with rfl | rfl
  all_goals
    obtain ⟨hexec, hqueue, hstep⟩ := exec_ready rfl h
    refine ⟨hexec.trans ?_, hstep⟩
    simp only [brxBody, retBody, onReady, hqueue]

end

/-- A stream that is not stepped is still not stepped once a word has changed registers and queues. -/
theorem Changes.unstepped {s t : State} {l : List (BitVec 6)} {p : List (BitVec 3)} (h : Changes s t l p) : unstepped t = unstepped s := by
  have hsup := coreFrame_supNow h.frame
  obtain ⟨-, hcore, -, -, hcur, -⟩ := h.frame
  have hstep : (curCore t).stepping = (curCore s).stepping := by
    have := congrArg Core.stepping hcore
    exact this
  rw [Machine.unstepped, Machine.unstepped, hsup, hstep, hcur]

/-- A word that has only changed registers and queues, is done, and goes on at a program counter. -/
theorem runBody_fin_changes {i : Instr} {o : Ops} {d : Bool} {s u : State} (npc : Option W64) {l : List (BitVec 6)} {p : List (BitVec 3)}
    (hstep : unstepped s = true) (h : Changes s u l p) (hu : CoresOnly s u) : let t := runBody i o d s (.fin u npc)
    PassesOn u t ∧ pcNow t = npc.getD (following s o) ∧ waitNow t = none ∧ ScalarsBut s t l ∧ PredsBut s t p ∧ Frame s t := by
  intro t
  obtain ⟨hpass, hpc, hwait, -⟩ := runBody_fin_passes i o d s npc (h.unstepped.trans hstep)
  have hall := hpass.after h
  exact ⟨hpass, hpc, hwait, hall.scalars, hall.preds, frame_of_coreFrame hall.frame (hu.trans hpass.coresOnly)⟩

theorem branches : Sys2Proof.Claims.Branches := by
  intro s o
  refine ⟨fun h => ?_, fun h => ?_, fun h => ?_, fun i hi h haligned => ?_⟩
  · obtain ⟨hexec, hstep⟩ := exec_issues rfl h
    obtain ⟨hpass, hpc, hwait, hs, hk, hframe⟩ := runBody_fin_changes (i := .nop o) (o := o) (d := false) none hstep (Changes.refl s) rfl
    exact ⟨_, hexec, hpc, hs, hk, hpass.core_field Core.q (fun _ => rfl), hpass.core_field Core.act (fun _ => rfl), hwait, hframe⟩
  · obtain ⟨-, -, hstep⟩ := exec_ready rfl h
    obtain ⟨-, hpc, hwait, hs, hk, hframe⟩ := runBody_fin_changes (i := .br o) (o := o) (d := false) (some (pcNow s + 4 * (readSrc o.a s).1)) hstep
      (changes_readSrc s o.a) (coresOnly_readSrc s o.a)
    exact ⟨_, exec_br h, hpc, hs, hk, hwait, hframe⟩
  · obtain ⟨-, -, hstep⟩ := exec_ready rfl h
    obtain ⟨hissues, -⟩ := (ready_iff rfl).mp h
    obtain ⟨hresult, hwrite, honly⟩ := writeDst_result o.d (nextPc s o) (changes_readSrc s o.a) (coresOnly_readSrc s o.a)
      (fun n hn => qGet_readSrcW_other s false false (issues_queues rfl hissues rfl hn).1)
    obtain ⟨hpass, hpc, hwait, -, hk, hframe⟩ := runBody_fin_changes (i := .call o) (o := o) (d := false)
      (some (pcNow s + 4 * (readSrc o.a s).1)) hstep hwrite honly
    exact ⟨_, exec_call h, hpc, hpass.result (coreFrame_supNow hwrite.frame) hresult, hk, hwait, hframe⟩
  · obtain ⟨hexec, hstep⟩ := exec_jump hi h
    obtain ⟨-, hpc, hwait, hs, hk, hframe⟩ := runBody_fin_changes (i := i) (o := o) (d := false) (some (readSrc o.a s).1) hstep
      (changes_readSrc s o.a) (coresOnly_readSrc s o.a)
    rw [jumpTo, if_neg (not_not.mpr haligned)] at hexec
    exact ⟨_, hexec, hpc, hs, hk, hwait, hframe⟩

theorem misalignedJumps : Sys2Proof.Claims.MisalignedJumps := by
  intro s o i hi hsup hregion h hmisaligned
  obtain ⟨hexec, -⟩ := exec_jump hi h
  rw [jumpTo, if_pos hmisaligned] at hexec
  obtain ⟨tsup, tcause, tinfo, tpc, -⟩ := trapNow_registers (x := { code := 0x0206, info := (readSrc o.a s).1 }) hsup hregion rfl rfl
  exact ⟨_, hexec, tsup, tcause, tinfo, tpc⟩

theorem countedBranch : Sys2Proof.Claims.CountedBranch := by
  intro s o n hn h
  obtain ⟨-, -, hstep⟩ := exec_ready rfl h
  have hexec := exec_brdec h
  have hold : (readSrc o.d s).1 = readS s n := by rw [hn]; rfl
  obtain ⟨hresult, hwrite, honly⟩ := writeDst_result (.s n) (readS s n - 1) (changes_readSrc s o.a) (coresOnly_readSrc s o.a) (fun _ hq => nomatch hq)
  have hpin := passesOn_pinOp (writeDst (.s n) (readS s n - 1) (readSrc o.a s).2) s (.s n)
  rw [hold, hn] at hexec
  obtain ⟨hpass, hpc, hwait, hs, hk, hframe⟩ := runBody_fin_changes (i := .brdec o) (o := o) (d := false)
    (if readS s n - 1 ≠ 0 then some (pcNow s + 4 * (readSrc o.a s).1) else none) hstep (hpin.after hwrite) (honly.trans hpin.coresOnly)
  refine ⟨_, hexec, ?_, hs, hk, ?_, hwait, hframe⟩
  · exact (hpass.readS n).trans ((hpin.readS n).trans hresult.1)
  · rw [hpc]
    split <;> rfl

end Sys2Proof.Machine

section

open Sys2Proof.Machine Sys2Proof.Claims

/-- Settles O11: each of the three words ends in a plain trap whose registers R381 and R382 give. -/
theorem trappingInstructions : Obligations.TrappingInstructions := by
  unfold Obligations.TrappingInstructions
  intro s hsup hregion
  refine ⟨?_, fun o h => ?_, fun o h => ?_⟩
  · obtain ⟨tsup, tcause, tinfo, tpc, taddr⟩ := trapNow_registers (x := { code := 0x0101, addr := some (pcNow s), info := 1 }) hsup hregion rfl rfl
    exact ⟨_, rfl, tsup, tcause, tinfo, tpc, taddr _ rfl⟩
  · obtain ⟨tsup, tcause, tinfo, tpc, -⟩ := trapNow_registers (x := { code := 0x0112, info := (readSrc o.a s).1 }) hsup hregion rfl rfl
    exact ⟨_, exec_trap h, tsup, tcause, tinfo, tpc⟩
  · obtain ⟨tsup, tcause, tinfo, tpc, taddr⟩ := trapNow_registers
      (x := { code := 0x0113, addr := some (readSrc o.b (readSrc o.a s).2).1, info := (readSrc o.a s).1 }) hsup hregion rfl rfl
    exact ⟨_, exec_syscall h, tsup, tcause, tinfo, taddr _ rfl, tpc⟩

/-- Settles O17: each word consumes its operands, writes its register or queue, and goes on at its target or traps. -/
theorem controlTransfers : Obligations.ControlTransfers := ⟨branches, misalignedJumps, countedBranch⟩

end

/-! Tokens, prefixes and the ends of streams (R114, R119, R135, R139). -/

namespace Sys2Proof.Machine

open Sys2Proof.Claims

/- Tokens (R119, R135, R283). -/

theorem steerPushes {s : State} {o : Ops} {n : BitVec 4} (hd : o.d = .q n) (h : ready (.steer o) s = true) :
    ∃ t : State, exec (.steer o) s = .next t ∧ qGet (curCore t) n = qGet (curCore s) n ++ [.token ((curGraph s).code + 4 * (readSrc o.a s).1)]
      ∧ pcNow t = following s o ∧ ScalarsBut s t [] ∧ PredsBut s t [] ∧ waitNow t = none ∧ Frame s t := by
  obtain ⟨hexec, hqueue, hstep⟩ := exec_ready rfl h
  obtain ⟨hissues, -⟩ := (ready_iff rfl).mp h
  obtain ⟨hne, -⟩ := issues_queues rfl hissues rfl hd
  have hbody : steerBody o .issue s = .fin (qPush (readSrc o.a s).2 n (.token ((curGraph s).code + 4 * (readSrc o.a s).1))) none := by
    rw [steerBody, onReady, hqueue, hd]
  have hchanges := (changes_readSrc s o.a).trans (changes_qPush (readSrc o.a s).2 n (.token ((curGraph s).code + 4 * (readSrc o.a s).1)))
  obtain ⟨hpass, hpc, hwait, hs, hk, hframe⟩ := runBody_fin_changes (i := .steer o) (o := o) (d := false) none hstep hchanges
    ((coresOnly_readSrc s o.a).trans rfl)
  refine ⟨_, hexec.trans (congrArg (fun b => Host.Outcome.next (runBody (.steer o) o false s b)) hbody), ?_, hpc, hs, hk, hwait, hframe⟩
  rw [hpass.qGet, qPush, curCore_updCurCore, qGet_qAdd_same, readSrc, qGet_readSrcW_other s false false hne]

theorem followPops {s : State} {o : Ops} {n : BitVec 4} {pc : W64} {l : List QEnt} (ha : o.a = .q n)
    (hq : qGet (curCore s) n = .token pc :: l) (hready : qReady (curCore s) n ≠ 0) (hstores : pusherStores s = false) (h : issues (.follow o) s = true) :
    ∃ t : State, exec (.follow o) s = .next t ∧ qGet (curCore t) n = l ∧ pcNow t = pc ∧ ScalarsBut s t [] ∧ PredsBut s t [] ∧ waitNow t = none
      ∧ Frame s t := by
  obtain ⟨hexec, hstep⟩ := exec_issues rfl h
  have hbody : followBody o .issue s = .fin (qPop s n) (some pc) := by
    simp only [followBody, ha, if_neg hready, hstores, hq, List.head?_cons, Bool.false_eq_true, if_false]
  obtain ⟨hpass, hpc, hwait, hs, hk, hframe⟩ := runBody_fin_changes (i := .follow o) (o := o) (d := false) (some pc) hstep (changes_qPop s n) rfl
  refine ⟨_, hexec.trans (congrArg (fun b => Host.Outcome.next (runBody (.follow o) o false s b)) hbody), ?_, hpc, hs, hk, hwait, hframe⟩
  rw [hpass.qGet, qGet_qPop_same, hq]
  rfl

/- Prefixes and the ends of streams (R114, R139, R141). -/

/-- PFX issues only where nothing that an earlier PFX left is pending (R139). -/
theorem pp_of_issues_pfx {s : State} {o : Ops} {m : PfxMod} (h : issues (.pfx o m) s = true) : (curStream s).pp = false := by
  obtain ⟨-, -, hprefix, -⟩ := (issues_iff rfl).mp h
  by_contra hpp
  rw [Bool.not_eq_false] at hpp
  have hbad : prefixBad s (.pfx o m) = true := by
    unfold prefixBad
    rw [if_pos hpp]
    cases modOf .pfx (curStream s).pfxv.toNat with
    | none => rfl
    | some v => cases v <;> rfl
  rw [hbad] at hprefix
  exact absurd hprefix.symm Bool.false_ne_true

theorem regBank_setStream {k : Core} {p : Bool} {x : Stream} (hs : x.s = (streamOf k p).s) (hk : x.k = (streamOf k p).k) :
    regBank (setStream k p x) = regBank k := by
  cases p
  all_goals
    simp only [streamOf, Bool.false_eq_true, if_false, if_true] at hs hk
    simp only [regBank, setStream, Bool.false_eq_true, if_false, if_true, hs, hk]

/-- The stream that issues, changed but for its registers. -/
theorem registers_updCur {s : State} {f : Stream → Stream} (hs : (f (curStream s)).s = (curStream s).s) (hk : (f (curStream s)).k = (curStream s).k) :
    ScalarsBut s (updCur s f) [] ∧ PredsBut s (updCur s f) [] := by
  refine registers_of_regBank (t := updCur s f) rfl ?_
  rw [curCore_updCur]
  exact regBank_setStream hs hk

theorem unstepped_updCur (s : State) (f : Stream → Stream) : unstepped (updCur s f) = unstepped s := by
  have hstepping : (curCore (updCur s f)).stepping = (curCore s).stepping := by
    rw [curCore_updCur]
    cases s.cur.2 <;> rfl
  rw [unstepped, unstepped, supNow_updCur, hstepping]
  rfl

theorem prefixIsPending : Sys2Proof.Claims.PrefixIsPending := by
  intro s o m _ h
  obtain ⟨hexec, hstep⟩ := exec_issues rfl h
  have hpp := pp_of_issues_pfx h
  obtain ⟨hs, hk⟩ := registers_updCur (s := s) (f := fun t => { t with pp := true, pfxv := BitVec.ofNat 16 (modCode (.pfx m)) }) rfl rfl
  obtain ⟨hpass, hpc, hwait, hpending⟩ := runBody_fin_passes (.pfx o m) o false s none
    ((unstepped_updCur s (fun t => { t with pp := true, pfxv := BitVec.ofNat 16 (modCode (.pfx m)) })).trans hstep)
  refine ⟨_, hexec, (hpending hpp).trans ?_, (hpass.stream_field Stream.pfxv (fun _ => rfl)).trans ?_, hpc,
    hpass.scalars (supNow_updCur s _) hs, hpass.preds hk, hwait, otherUnits_trans (otherUnits_updCurCore s _) hpass.units⟩
  · rw [curStream_updCur]
  · rw [curStream_updCur]

/-- FINISH, or RETIRE in an ordered task, marks the activation (R114, R329). -/
def markFinish (s : State) (finish : Bool) : State :=
  if finish then updCurCore s (fun k => { k with act := k.act.map (fun a => { a with finish := true }) }) else s

theorem markFinish_leaves (s : State) (finish : Bool) : let u := markFinish s finish
    OtherUnits s u ∧ (∀ p, streamOf (curCore u) p = streamOf (curCore s) p)
      ∧ (curCore u).act = (curCore s).act.map (fun a => { a with finish := a.finish || finish })
      ∧ regBank (curCore u) = regBank (curCore s) ∧ (curCore u).stepping = (curCore s).stepping := by
  cases finish with
  | false =>
    refine ⟨⟨rfl, fun _ _ => rfl⟩, fun _ => rfl, ?_, rfl, rfl⟩
    cases h : (curCore s).act <;> simp [markFinish, h]
  | true =>
    refine ⟨?_, fun p => ?_, ?_, ?_, ?_⟩ <;> rw [markFinish, if_pos rfl]
    · exact otherUnits_updCurCore s _
    all_goals rw [curCore_updCurCore]
    · exact streamOf_congr rfl rfl
    · simp
    · rfl

theorem endStream_stops {s : State} (fin : Bool) (hopen : explicitOpen s = false)
    (hidle : s.cur.2 = true ∨ (enginesIdle s = true ∧ sendsDone s s.cur.1 = true ∧ (curCore s).mat.failed = none)) :
    endStream fin s = .fin (markFinish (updCur s (fun t => { t with stopped := true })) (fin || (curBerth s).ordered)) none := by
  have hwaits : (!s.cur.2 && !(enginesIdle s && sendsDone s s.cur.1)) = false := by
    rcases hidle with hp | ⟨he, hd, -⟩
    · simp [hp]
    · simp [he, hd]
  have hmat : (if s.cur.2 then none else matFailure s) = none := by
    rcases hidle with hp | ⟨-, -, hm⟩
    · simp [hp]
    · simp [matFailure, hm]
  simp only [endStream, hopen, hwaits, hmat, markFinish, Bool.false_eq_true, if_false]
  split <;> rfl

/-- RETIRE and FINISH run the same body (R114). -/
theorem exec_endStream {s : State} {o : Ops} {i : Instr} (hi : i = .retire o ∨ i = .finish o) (h : issues i s = true) :
    exec i s = .next (runBody i o false s (endStream (decide (i = .finish o)) s)) ∧ unstepped s = true := by
  rcases hi with rfl | rfl
  · exact exec_issues rfl h
  · have hfin : decide (Instr.finish o = .finish o) = true := decide_eq_true rfl
    rw [hfin]
    exact exec_issues rfl h

theorem streamsEnd : Sys2Proof.Claims.StreamsEnd := by
  intro s o i hi h _ hopen hidle
  obtain ⟨hexec, hstep⟩ := exec_endStream hi h
  rw [endStream_stops _ hopen hidle] at hexec
  let u := updCur s (fun t => { t with stopped := true })
  let finish := decide (i = .finish o) || (curBerth s).ordered
  obtain ⟨hunits, hstreams, hact, hbank, hstepping⟩ := markFinish_leaves u finish
  have hcore : curCore u = setStream (curCore s) s.cur.2 { curStream s with stopped := true } := curCore_updCur s _
  have hregs : regBank (curCore (markFinish u finish)) = regBank (curCore s) := by
    rw [hbank, hcore]
    exact regBank_setStream rfl rfl
  have hcur : (markFinish u finish).cur = s.cur := (otherUnits_cur hunits).trans rfl
  obtain ⟨hsup, -⟩ := reads_of_regBank hcur hregs
  have hun : unstepped (markFinish u finish) = true := by
    rw [← hstep, ← unstepped_updCur s (fun t => { t with stopped := true }), unstepped, unstepped, hstepping, hsup, supNow_updCur, hcur]
    rfl
  obtain ⟨hpass, -⟩ := runBody_fin_passes i o false s none hun
  have hother := hpass.other
  rw [hcur, hstreams, hcore, streamOf_setStream_not] at hother
  refine ⟨_, hexec, ?_, hother, ?_, hpass.scalars hsup (registers_of_regBank hcur hregs).1,
    otherUnits_trans (otherUnits_updCurCore s _) (otherUnits_trans hunits hpass.units)⟩
  · rw [hpass.stream_field Stream.stopped (fun _ => rfl), curStream, hcur, hstreams, hcore, streamOf_setStream_same]
  · rw [hpass.core_field Core.act (fun _ => rfl), hact, hcore]
    have hsame : (setStream (curCore s) s.cur.2 { curStream s with stopped := true }).act = (curCore s).act := by cases s.cur.2 <;> rfl
    rw [hsame]
    simp only [finish, Bool.or_assoc]

end Sys2Proof.Machine

section

open Sys2Proof.Machine Sys2Proof.Claims

/-- Settles O18: STEER's token is the last of its queue, and FOLLOW goes on at the oldest of its own. -/
theorem steerAndFollow : Obligations.SteerAndFollow := by
  unfold Obligations.SteerAndFollow
  exact fun s o n => ⟨steerPushes, fun pc l => followPops⟩

/-- Settles O19: PFX issues only where nothing is pending, and so leaves what it sets; an end of a stream changes what it marks and no more. -/
theorem prefixAndStreamEnds : Obligations.PrefixAndStreamEnds := ⟨prefixIsPending, streamsEnd⟩

end

/-! Counts (R137, R144): the words that wait for a number of cyc or ns. -/

namespace Sys2Proof.Machine

open Sys2Proof.Claims

/- Counts (R137, R144). -/

section

variable {s : State} {o : Ops} {i : Instr}

/-- The start of a count of a stream that is not held is its own issue (R129, R144). -/
theorem waitStart_now (h : waitNow s = none) : waitStart s = (cycOf s s.cur.1, edgeOf s s.cur.1) := by rw [waitStart, h]

/-- A word whose count has passed consumes its operand and is done. -/
theorem exec_count_passed (hcount : (i = .waitc o ∧ (readSrc o.a s).1 = 0) ∨ (i = .waitw o ∧ (readSrc o.a s).1 = 0)
    ∨ (i = .realign o ∧ realignPeers s s.cur.1 s.cur.2 = [])) (h : ready i s = true) :
    exec i s = .next (runBody i o false s (.fin (readSrc o.a s).2 none)) ∧ unstepped s = true := by
  obtain ⟨rfl, hn⟩ | ⟨rfl, hn⟩ | ⟨rfl, hpeers⟩ := hcount
  all_goals
    obtain ⟨hexec, hqueue, hstep⟩ := exec_ready rfl h
    refine ⟨hexec.trans ?_, hstep⟩
  · have hzero : (readSrc o.a s).1.toNat ≤ cycOf s s.cur.1 - (waitStart s).1 := by simp [hn]
    simp only [waitcBody, onReady, hqueue, if_pos hzero]
  · have hzero : (readSrc o.a s).1.toNat ≤ edgeOf s s.cur.1 - (waitStart s).2 := by simp [hn]
    simp only [waitwBody, onReady, hqueue, if_pos hzero]
  · simp only [realignBody, onReady, hqueue, hpeers, List.isEmpty_nil, and_self, or_true, if_true, realignDone]

/-- A word whose count has not passed is held where it stands. -/
theorem exec_count_holds (hcount : (i = .waitc o ∧ (readSrc o.a s).1 ≠ 0) ∨ (i = .waitw o ∧ (readSrc o.a s).1 ≠ 0)
    ∨ (i = .realign o ∧ (readSrc o.a s).1 ≠ 0 ∧ realignPeers s s.cur.1 s.cur.2 ≠ [])) (hwait : waitNow s = none) (h : ready i s = true) :
    exec i s = .next (runBody i o false s (.hold s .count 0)) ∧ unstepped s = true := by
  have hpos : (readSrc o.a s).1 ≠ 0 → 0 < (readSrc o.a s).1.toNat := fun hn => by
    rw [Nat.pos_iff_ne_zero]
    exact fun h0 => hn (BitVec.eq_of_toNat_eq h0)
  obtain ⟨rfl, hn⟩ | ⟨rfl, hn⟩ | ⟨rfl, hn, hpeers⟩ := hcount
  all_goals
    obtain ⟨hexec, hqueue, hstep⟩ := exec_ready rfl h
    have hcount := hpos hn
    refine ⟨hexec.trans ?_, hstep⟩
  · simp only [waitcBody, onReady, hqueue, waitStart_now hwait, Nat.sub_self, if_neg (Nat.not_le.mpr hcount)]
  · simp only [waitwBody, onReady, hqueue, waitStart_now hwait, Nat.sub_self, if_neg (Nat.not_le.mpr hcount)]
  · have hdue : realignDue s o = false := by
      simp only [realignDue, waitStart_now hwait, Nat.sub_self, decide_eq_false_iff_not]
      omega
    have hfree : (realignPeers s s.cur.1 s.cur.2).isEmpty = false := by rwa [List.isEmpty_eq_false_iff]
    simp only [realignBody, onReady, hqueue, hdue, hfree, Bool.false_eq_true, and_false, or_false, if_false]

end

theorem countsPassed : Sys2Proof.Claims.CountsPassed := by
  intro s o i hcount h
  obtain ⟨hexec, hstep⟩ := exec_count_passed hcount h
  obtain ⟨-, hpc, hwait, hs, hk, hframe⟩ := runBody_fin_changes (i := i) (o := o) (d := false) none hstep (changes_readSrc s o.a)
    (coresOnly_readSrc s o.a)
  exact ⟨_, hexec, hpc, hs, hk, hwait, hframe⟩

theorem countsHold : Sys2Proof.Claims.CountsHold := by
  intro s o i hcount hwait h
  obtain ⟨hexec, hstep⟩ := exec_count_holds hcount hwait h
  obtain ⟨hmoves, hpc, w, hw, hi⟩ := runBody_hold_holds i o false s .count 0 hstep
  obtain ⟨-, hcore, hstream, hother, hregion⟩ := hmoves.frame
  refine ⟨_, hexec, hpc, ?_, hmoves.scalars, hmoves.preds, hmoves.core_field Core.q (fun _ => rfl), hmoves.core_field Core.act (fun _ => rfl),
    otherUnits_samePlace hmoves.units, hcore, hstream, hother, hregion⟩
  rw [hw, Option.map_some, hi]

end Sys2Proof.Machine

section

open Sys2Proof.Machine Sys2Proof.Claims

/-- Settles O20: a count of 0 is passed at once, and any other is compared with the time since the word issued, which is 0. -/
theorem countedWaits : Obligations.CountedWaits := ⟨countsPassed, countsHold⟩

end

/-! Deadline slots (R131, R144): their fields, and the words that read and write them. -/

namespace Sys2Proof.Machine

open Sys2Proof.Claims

/- The fields of a deadline slot (R131). -/

section

variable (n : Nat) (seen base fired armed : Bool)

/-- A word whose number has a flag at a place holds the flag there. -/
theorem getLsbD_of_bitNat {x j : Nat} {b : Bool} (hj : j < 64) (h : x / 2 ^ j % 2 = bitNat b) : (BitVec.ofNat 64 x).getLsbD j = b := by
  rw [BitVec.getLsbD_ofNat, Nat.testBit_eq_decide_div_mod_eq, h]
  cases b <;> simp [bitNat, hj]

theorem dlArmed_dlWord : dlArmed (dlWord n seen base fired armed) = armed := by
  have hs := Laws.Coding.bitNat_le seen
  have hb := Laws.Coding.bitNat_le base
  have hf := Laws.Coding.bitNat_le fired
  have ha := Laws.Coding.bitNat_le armed
  exact getLsbD_of_bitNat (by decide) (by omega)

theorem dlFired_dlWord : dlFired (dlWord n seen base fired armed) = fired := by
  have hs := Laws.Coding.bitNat_le seen
  have hb := Laws.Coding.bitNat_le base
  have hf := Laws.Coding.bitNat_le fired
  exact getLsbD_of_bitNat (by decide) (by omega)

theorem dlBase_dlWord : dlBase (dlWord n seen base fired armed) = base := by
  have hs := Laws.Coding.bitNat_le seen
  have hb := Laws.Coding.bitNat_le base
  exact getLsbD_of_bitNat (by decide) (by omega)

theorem dlSeen_dlWord : dlSeen (dlWord n seen base fired armed) = seen := by
  have hs := Laws.Coding.bitNat_le seen
  exact getLsbD_of_bitNat (by decide) (by omega)

theorem dlTarget_dlWord (h : n < 2 ^ 60) : dlTarget (dlWord n seen base fired armed) = n := by
  rw [dlTarget, fieldAt_zero, dlWord, BitVec.toNat_ofNat]
  omega

theorem dlTarget_lt (v : W64) : dlTarget v < 2 ^ 60 := by
  rw [dlTarget, fieldAt_zero]
  exact Nat.mod_lt _ (by decide)

end

section

variable (k : Core)

theorem dlGet_dlSet_same (i : BitVec 2) (v : W64) : dlGet (dlSet k i v) i = v := by simp [dlGet, dlSet]

theorem dlGet_dlSet_other {i j : BitVec 2} (v : W64) (h : j ≠ i) : dlGet (dlSet k i v) j = dlGet k j := by
  have hne : i.toNat ≠ j.toNat := fun he => h (BitVec.eq_of_toNat_eq he.symm)
  simp [dlGet, dlSet, Vector.getElem_set_ne, hne]

theorem dlGet_congr {k l : Core} (h : l.dl = k.dl) (i : BitVec 2) : dlGet l i = dlGet k i := by rw [dlGet, dlGet, h]

end

/- Words that change registers, and of their own core also more. -/

/-- A word has changed its own core alone: of its registers the scalars of l and the predicates of p, and not what its stream executes in. -/
structure Regs (s t : State) (l : List (BitVec 6)) (p : List (BitVec 3)) : Prop where
  units : OtherUnits s t
  sup : supNow t = supNow s
  step : unstepped t = unstepped s
  scalars : ScalarsBut s t l
  preds : PredsBut s t p

section

variable {s t u : State} {l l' : List (BitVec 6)} {p p' : List (BitVec 3)}

theorem Changes.regs (h : Changes s t l p) (ht : CoresOnly s t) : Regs s t l p :=
  ⟨ht.otherUnits h.frame.1, coreFrame_supNow h.frame, h.unstepped, h.scalars, h.preds⟩

theorem Regs.trans (h : Regs s t l p) (h' : Regs t u l' p') : Regs s u (l ++ l') (p ++ p') :=
  ⟨otherUnits_trans h.units h'.units, h'.sup.trans h.sup, h'.step.trans h.step, scalarsBut_trans h.sup h.scalars h'.scalars,
    predsBut_trans h.preds h'.preds⟩

/-- A change of the core that issues which keeps its registers and its step. -/
theorem Regs.of_core {f : Core → Core} (hregs : regBank (f (curCore s)) = regBank (curCore s))
    (hstep : (f (curCore s)).stepping = (curCore s).stepping) : Regs s (updCurCore s f) [] [] := by
  have hbank : regBank (curCore (updCurCore s f)) = regBank (curCore s) := by rw [curCore_updCurCore, hregs]
  obtain ⟨hsup, -⟩ := reads_of_regBank (s := s) (t := updCurCore s f) rfl hbank
  obtain ⟨hs, hk⟩ := registers_of_regBank (s := s) (t := updCurCore s f) rfl hbank
  refine ⟨otherUnits_updCurCore s f, hsup, ?_, hs, hk⟩
  rw [unstepped, unstepped, hsup, curCore_updCurCore, hstep]
  rfl

/-- A word that has changed its own core is done, and goes on. -/
theorem runBody_fin_regs {i : Instr} {o : Ops} {d : Bool} (npc : Option W64) (hstep : unstepped s = true) (h : Regs s u l p) :
    let t := runBody i o d s (.fin u npc)
    PassesOn u t ∧ pcNow t = npc.getD (following s o) ∧ waitNow t = none ∧ ScalarsBut s t l ∧ PredsBut s t p ∧ OtherUnits s t := by
  intro t
  obtain ⟨hpass, hpc, hwait, -⟩ := runBody_fin_passes i o d s npc (h.step.trans hstep)
  exact ⟨hpass, hpc, hwait, hpass.scalars h.sup h.scalars, hpass.preds h.preds, otherUnits_trans h.units hpass.units⟩

/-- A result written after changes that leave the scalar registers, and the queue that takes it. -/
theorem result_of_scalars {d : Operand} {v : W64} (hsup : supNow u = supNow s) (hs : ScalarsBut s u [])
    (hq : ∀ n, d = .q n → qGet (curCore u) n = qGet (curCore s) n) (hr : Result u t d v) : Result s t d v := by
  cases d with
  | s n => exact ⟨hr.1, scalarsBut_trans hsup hs hr.2⟩
  | q n => exact ⟨scalarsBut_trans hsup hs hr.1, hr.2.trans (by rw [hq n rfl])⟩
  | _ => exact scalarsBut_trans hsup hs hr

/-- A predicate written before changes that leave the predicates. -/
theorem Regs.predResult {n : BitVec 3} {v : Bool} (h : PredResult s u (.k n) v) (h' : Regs u t l []) : PredResult s t (.k n) v := by
  obtain ⟨hval, hzero, hpreds⟩ := h
  refine ⟨fun hn => (h'.preds n (List.not_mem_nil)).trans (hval hn), readK_zero t, ?_⟩
  have hall := predsBut_trans hpreds h'.preds
  rwa [List.append_nil] at hall

/-- A predicate written after changes that leave the predicates. -/
theorem Regs.predResult_writeK (h : Regs s u l []) (n : BitVec 3) (v : Bool) : PredResult s (writeK u n v) (.k n) v := by
  obtain ⟨hval, hzero, hpreds⟩ := Machine.predResult_writeK u n v
  exact ⟨hval, hzero, predsBut_trans h.preds hpreds⟩

/-- Registers and queues that change leave the deadline slots. -/
theorem Changes.dl (h : Changes s t l p) : (curCore t).dl = (curCore s).dl := by
  obtain ⟨-, hcore, -⟩ := h.frame
  have := congrArg Core.dl hcore
  exact this

end

theorem Regs.dlSet (s : State) (i : BitVec 2) (v : W64) : Regs s (updCurCore s (fun k => dlSet k i v)) [] [] := Regs.of_core rfl rfl
theorem Regs.dlWrite (s : State) (i : BitVec 2) (v : W64) : Regs s (updCurCore s (fun k => dlWrite k i v)) [] [] := Regs.of_core rfl rfl

/- Time stamps and deadline slots (R131, R144). -/

section

variable {s : State} {o : Ops}

/-- RDTS writes CYC and WALL to a pair of registers (R144). -/
theorem rdts_result {n : BitVec 6} (hd : o.d = .s n) (h : issues (.rdts o) s = true) :
    ∃ t : State, exec (.rdts o) s = .next t ∧ readS t n = BitVec.ofNat 64 (cycOf s s.cur.1) ∧ readS t (n + 1) = BitVec.ofNat 64 (edgeOf s s.cur.1)
      ∧ ScalarsBut s t [n, n + 1] ∧ PredsBut s t [] ∧ pcNow t = following s o ∧ waitNow t = none ∧ Frame s t := by
  obtain ⟨hexec, hstep⟩ := exec_issues rfl h
  have hne : n ≠ n + 1 := by bv_omega
  let u := writeS s n (BitVec.ofNat 64 (cycOf s s.cur.1))
  have hbody : rdtsBody o .issue s = .fin (writeS u (n + 1) (BitVec.ofNat 64 (edgeOf s s.cur.1))) none := by
    rw [rdtsBody, hd]
    rfl
  have hpair := (changes_writeS s n (BitVec.ofNat 64 (cycOf s s.cur.1))).trans (changes_writeS u (n + 1) (BitVec.ofNat 64 (edgeOf s s.cur.1)))
  obtain ⟨hpass, hpc, hwait, hs, hk, hframe⟩ := runBody_fin_changes (i := .rdts o) (o := o) (d := false) none hstep hpair
    ((coresOnly_writeS s n _).trans (coresOnly_writeS u (n + 1) _))
  refine ⟨_, hexec.trans (congrArg (fun b => Host.Outcome.next (runBody (.rdts o) o false s b)) hbody), (hpass.readS n).trans ?_,
    (hpass.readS (n + 1)).trans (writeS_readS_same u (n + 1) _), hs, hk, hpc, hwait, hframe⟩
  exact (readS_writeS_other u _ hne).trans (writeS_readS_same s n _)

/-- DLSET arms its slot (R144). -/
theorem dlset_result {m : SlotMod} (h : ready (.dlset o m) s = true) :
    let n := (readSrc o.a s).1.toNat
    let target := min (if m.base = false then cycOf s s.cur.1 + n else if m.abs = false then s.wall + n else n) (2 ^ 60 - 1)
    ∃ t : State, exec (.dlset o m) s = .next t ∧ dlGet (curCore t) m.slot = dlWord target false m.base false true
      ∧ (∀ j, j ≠ m.slot → dlGet (curCore t) j = dlGet (curCore s) j)
      ∧ ScalarsBut s t [] ∧ PredsBut s t [] ∧ pcNow t = following s o ∧ OtherUnits s t := by
  intro n target
  obtain ⟨hexec, hqueue, hstep⟩ := exec_ready rfl h
  have hbody : dlsetBody o m .issue s
      = .fin (updCurCore (readSrc o.a s).2 (fun k => dlWrite k m.slot (dlWord target false m.base false true))) none := by
    simp only [dlsetBody, onReady, hqueue]
    rfl
  have hread := changes_readSrc s o.a
  have hregs := (hread.regs (coresOnly_readSrc s o.a)).trans (Regs.dlWrite (readSrc o.a s).2 m.slot (dlWord target false m.base false true))
  obtain ⟨hpass, hpc, -, hs, hk, hunits⟩ := runBody_fin_regs (i := .dlset o m) (o := o) (d := false) none hstep hregs
  have hdl := dlGet_congr (hpass.core_field Core.dl (fun _ => rfl))
  rw [curCore_updCurCore] at hdl
  refine ⟨_, hexec.trans (congrArg (fun b => Host.Outcome.next (runBody (.dlset o m) o false s b)) hbody), (hdl m.slot).trans ?_,
    fun j hj => (hdl j).trans ?_, hs, hk, hpc, hunits⟩
  · exact dlGet_dlSet_same _ _ _
  · exact (dlGet_dlSet_other _ _ hj).trans (dlGet_congr hread.dl j)

/-- The state in which DLTEST has observed a slot (R131, R144). -/
def observeSlot (s : State) (i : BitVec 2) : State :=
  let v := dlGet (curCore s) i
  if dlArmed v && dlFired v then updCurCore s (fun k => dlSet k i (dlWord (dlTarget v) true (dlBase v) true true)) else s

theorem observeSlot_regs (s : State) (i : BitVec 2) : Regs s (observeSlot s i) [] [] := by
  unfold observeSlot
  dsimp only
  split
  · exact Regs.dlSet s i _
  · exact (Changes.refl s).regs rfl

theorem observeSlot_slot (s : State) (i : BitVec 2) : let v := dlGet (curCore s) i
    let v' := dlGet (curCore (observeSlot s i)) i
    dlSeen v' = (dlArmed v && dlFired v || dlSeen v) ∧ dlArmed v' = dlArmed v := by
  intro v v'
  by_cases hf : (dlArmed v && dlFired v) = true
  · have hv : v' = dlWord (dlTarget v) true (dlBase v) true true := by
      simp only [v', observeSlot]
      rw [if_pos hf, curCore_updCurCore, dlGet_dlSet_same]
    rw [hv, dlSeen_dlWord, dlArmed_dlWord, hf]
    simp only [Bool.and_eq_true] at hf
    exact ⟨rfl, hf.1.symm⟩
  · have hv : v' = v := by
      simp only [v', observeSlot]
      rw [if_neg hf]
    rw [Bool.not_eq_true] at hf
    rw [hv, hf]
    exact ⟨rfl, rfl⟩

/-- DLTEST observes its slot (R144). -/
theorem dltest_result {m : TestMod} (h : issues (.dltest o m) s = true) :
    let f := dlArmed (dlGet (curCore s) m.slot) && dlFired (dlGet (curCore s) m.slot)
    ∃ t : State, exec (.dltest o m) s = .next t ∧ PredResult s t (.k m.pred) f
      ∧ dlSeen (dlGet (curCore t) m.slot) = (f || dlSeen (dlGet (curCore s) m.slot))
      ∧ dlArmed (dlGet (curCore t) m.slot) = dlArmed (dlGet (curCore s) m.slot)
      ∧ ScalarsBut s t [] ∧ pcNow t = following s o ∧ OtherUnits s t := by
  intro f
  obtain ⟨hexec, hstep⟩ := exec_issues rfl h
  have hseen := observeSlot_regs s m.slot
  have hwrite := changes_writeK (observeSlot s m.slot) m.pred f
  have hregs := hseen.trans (hwrite.regs (coresOnly_writeK _ _ _))
  obtain ⟨hpass, hpc, -, hs, -, hunits⟩ := runBody_fin_regs (i := .dltest o m) (o := o) (d := false) none hstep hregs
  have hslot := dlGet_congr ((hpass.core_field Core.dl (fun _ => rfl)).trans hwrite.dl) m.slot
  obtain ⟨hslotSeen, hslotArmed⟩ := observeSlot_slot s m.slot
  exact ⟨_, hexec, hpass.predResult (hseen.predResult_writeK m.pred f), (congrArg dlSeen hslot).trans hslotSeen,
    (congrArg dlArmed hslot).trans hslotArmed, hs, hpc, hunits⟩

/-- The predicate of a trio changes itself, under TRES, and no more (R129). -/
theorem trioPred_regs (m : Trio) (s : State) : Changes s (trioPred m true s) [] (if m.tres then [m.pred] else [])
    ∧ CoresOnly s (trioPred m true s) ∧ (curCore (trioPred m true s)).q = (curCore s).q
    ∧ (m.tres = true → trioPred m true s = writeK s m.pred true) := by
  unfold trioPred
  split
  · exact ⟨changes_writeK _ _ _, coresOnly_writeK _ _ _, (writeK_frame _ _ _).1, fun _ => rfl⟩
  · next h => exact ⟨Changes.refl s, rfl, rfl, fun ht => absurd ht h⟩

/-- A word that consumes its operand, writes the predicate of its trio, changes its core with no register and writes its result. -/
theorem trioWord_result {i : Instr} {m : Trio} {v : W64} {u : State} (hstep : unstepped s = true) (hne : ∀ n, o.d = .q n → o.a ≠ .q n)
    (hu : Regs (trioPred m true (readSrc o.a s).2) u [] []) (hq : (curCore u).q = (curCore (trioPred m true (readSrc o.a s).2)).q) :
    let t := runBody i o false s (.fin (writeDst o.d v u) none)
    PassesOn (writeDst o.d v u) t ∧ Result s t o.d v ∧ (m.tres = true → PredResult s t (.k m.pred) true) ∧ pcNow t = following s o
      ∧ OtherUnits s t := by
  intro t
  have hread := (changes_readSrc s o.a).regs (coresOnly_readSrc s o.a)
  obtain ⟨hpred, hpredOnly, hpredQ, hpredEq⟩ := trioPred_regs m (readSrc o.a s).2
  have hbefore := (hread.trans (hpred.regs hpredOnly)).trans hu
  obtain ⟨hresult, hwrite, hwriteOnly⟩ := writeDst_result o.d v (Changes.refl u) rfl (fun _ _ => rfl)
  have hall := hbefore.trans (hwrite.regs hwriteOnly)
  obtain ⟨hpass, hpc, -, -, -, hunits⟩ := runBody_fin_regs (i := i) (o := o) (d := false) none hstep hall
  have hqueue : ∀ n, o.d = .q n → qGet (curCore u) n = qGet (curCore s) n := fun n hn =>
    ((qGet_congr hq n).trans (qGet_congr hpredQ n)).trans (qGet_readSrcW_other s false false (hne n hn))
  refine ⟨hpass, hpass.result (hall.sup) (result_of_scalars hbefore.sup hbefore.scalars hqueue hresult), fun ht => ?_, hpc, hunits⟩
  have hwritten := hread.predResult_writeK m.pred true
  rw [← hpredEq ht] at hwritten
  exact hpass.predResult (Regs.predResult hwritten (hu.trans (hwrite.regs hwriteOnly)))

/-- DLWAIT with no slot of its mask armed (R144). -/
theorem dlwait_none {m : Trio} (h : ready (.dlwait o m) s = true) (hnone : dlOf (curCore s) ((readSrc o.a s).1.toNat % 16) = []) :
    exec (.dlwait o m) s
      = .next (runBody (.dlwait o m) o false s (.fin (writeDst o.d (BitVec.allOnes 64) (trioPred m true (readSrc o.a s).2)) none)) := by
  obtain ⟨hexec, hqueue, -⟩ := exec_ready rfl h
  rw [hexec]
  simp [dlwaitBody, onReady, hqueue, dlHit, hnone, dlFirst, timedWait]

/-- A slot that fired first is one of those that fired. -/
theorem dlFirst_ne_nil {k : Core} {l : List (BitVec 2)} {j : BitVec 2} (h : dlFirst k l = some j) : l.isEmpty = false := by
  cases l with
  | nil => exact absurd h (by simp [dlFirst])
  | cons _ _ => rfl

/-- DLWAIT with a slot that has fired, which the execute stream does not take (R131, R144). -/
theorem dlwait_fired {m : Trio} {j : BitVec 2} (h : ready (.dlwait o m) s = true)
    (hfirst : dlFirst (curCore s) (dlHit (curCore s) ((readSrc o.a s).1.toNat % 16)) = some j) (hfree : s.cur.2 = true → exTakes s j = false) :
    let w := dlWord (dlTarget (dlGet (curCore s) j)) true (dlBase (dlGet (curCore s) j)) true false
    exec (.dlwait o m) s = .next (runBody (.dlwait o m) o false s
      (.fin (writeDst o.d (j.setWidth 64) (updCurCore (trioPred m true (readSrc o.a s).2) (fun k => dlSet k j w))) none)) := by
  intro w
  obtain ⟨hexec, hqueue, -⟩ := exec_ready rfl h
  have hleft : (s.cur.2 && exTakes s j) = false := by
    cases hp : s.cur.2 with
    | false => rfl
    | true => exact hfree hp
  have hnum : BitVec.ofNat 64 j.toNat = j.setWidth 64 := by simp
  rw [hexec]
  simp only [dlwaitBody, onReady, hqueue, hfirst, hleft, dlFirst_ne_nil hfirst, timedWait, hnum, Bool.not_false, Bool.true_or, Bool.and_self,
    if_true, w]

end

end Sys2Proof.Machine

section

open Sys2Proof.Machine Sys2Proof.Claims

/-- Settles O21: RDTS writes its pair of registers, and each word on deadline slots leaves its slot with the fields that it writes. -/
theorem timeResults : Obligations.TimeResults := by
  unfold Obligations.TimeResults
  refine fun s o => ⟨fun n hd _ h => rdts_result hd h, fun m h => ?_, fun m h => dltest_result h, fun m h hnone => ?_, fun m j h hfirst hfree => ?_⟩
  · obtain ⟨t, hexec, hslot, hother, hs, hk, hpc, hunits⟩ := dlset_result h
    refine ⟨t, hexec, ?_, ?_, ?_, ?_, ?_, hother, hs, hk, hpc, hunits⟩ <;> rw [hslot]
    · exact dlTarget_dlWord _ _ _ _ _ (by omega)
    · exact dlArmed_dlWord _ _ _ _ _
    · exact dlFired_dlWord _ _ _ _ _
    · exact dlSeen_dlWord _ _ _ _ _
    · exact dlBase_dlWord _ _ _ _ _
  · obtain ⟨hissues, -⟩ := (ready_iff rfl).mp h
    obtain ⟨-, -, hstep⟩ := exec_ready rfl h
    obtain ⟨-, hresult, hpred, hpc, hunits⟩ := trioWord_result (i := .dlwait o m) (m := m) (v := BitVec.allOnes 64) hstep
      (fun n hn => (issues_queues rfl hissues rfl hn).1) ((Changes.refl _).regs rfl) rfl
    exact ⟨_, dlwait_none h hnone, hresult, hpred, hpc, hunits⟩
  · obtain ⟨hissues, -⟩ := (ready_iff rfl).mp h
    obtain ⟨-, -, hstep⟩ := exec_ready rfl h
    let w := dlWord (dlTarget (dlGet (curCore s) j)) true (dlBase (dlGet (curCore s) j)) true false
    obtain ⟨hpass, hresult, hpred, hpc, hunits⟩ := trioWord_result (i := .dlwait o m) (m := m) (v := j.setWidth 64) hstep
      (fun n hn => (issues_queues rfl hissues rfl hn).1) (Regs.dlSet (trioPred m true (readSrc o.a s).2) j w) (by rw [curCore_updCurCore]; rfl)
    obtain ⟨-, hwrite, -⟩ := writeDst_result o.d (j.setWidth 64) (Changes.refl (updCurCore (trioPred m true (readSrc o.a s).2) (fun k => dlSet k j w))) rfl
      (fun _ _ => rfl)
    have hslot := dlGet_congr ((hpass.core_field Core.dl (fun _ => rfl)).trans hwrite.dl) j
    rw [curCore_updCurCore, dlGet_dlSet_same] at hslot
    exact ⟨_, dlwait_fired h hfirst hfree, hresult, (congrArg dlArmed hslot).trans (dlArmed_dlWord _ _ _ _ _),
      (congrArg dlSeen hslot).trans (dlSeen_dlWord _ _ _ _ _), hpred, hpc, hunits⟩

end

/-! Messages that leave a stream (R203, R204, R284). -/

namespace Sys2Proof.Machine

open Sys2Proof.Claims

/- Messages that leave (R203, R204, R284). -/

section

variable {s t u : State}

/-- A message that leaves takes its place in transit with the next sequence number of its flow, and no core has changed (R203). -/
theorem leaveMsg_leaves (s : State) (k : Berth) (m : Msg) : ∃ x : Msg, (leaveMsg s k m).transit = s.transit ++ [x]
    ∧ x.payload = m.payload ∧ x.len = m.len ∧ x.route = m.route ∧ x.gid = m.gid ∧ x.sender = m.sender ∧ x.seq = (nextSeq s k m.route).1
    ∧ (leaveMsg s k m).cores = s.cores ∧ (leaveMsg s k m).cur = s.cur ∧ (leaveMsg s k m).mem = s.mem :=
  ⟨_, rfl, rfl, rfl, rfl, rfl, rfl, rfl, rfl, rfl, rfl⟩

/-- The predicate of a trio, written after changes of queues and of other units. -/
theorem trioPred_result (m : Trio) (h : Changes s u [] []) : TrioPred s (trioPred m true u) m ∧ ScalarsBut s (trioPred m true u) []
    ∧ CoreFrame s (trioPred m true u) := by
  obtain ⟨hwrite, -, -, heq⟩ := trioPred_regs m u
  have hall := h.trans hwrite
  refine ⟨?_, hall.scalars, hall.frame⟩
  unfold TrioPred
  split
  · next ht =>
    obtain ⟨hval, hzero, hpreds⟩ := predResult_writeK u m.pred true
    rw [heq ht]
    exact ⟨hval, hzero, predsBut_trans h.preds hpreds⟩
  · next ht =>
    rw [if_neg ht] at hall
    exact hall.preds

theorem PassesOn.trioPred {m : Trio} (h : PassesOn u t) (hp : TrioPred s u m) : TrioPred s t m := by
  unfold TrioPred at hp ⊢
  split
  · next ht =>
    rw [if_pos ht] at hp
    exact h.predResult hp
  · next ht =>
    rw [if_neg ht] at hp
    exact h.preds hp

end

/-- The state in which SEND and SENDS have read their three operands. -/
def readSend (o : Ops) (s : State) : State := (readSrc o.d (readSrc o.b (readSrc o.a s).2).2).2

theorem readSend_changes (o : Ops) (s : State) : Changes s (readSend o s) [] [] ∧ CoresOnly s (readSend o s) :=
  ⟨((changes_readSrc s o.a).trans (changes_readSrc _ o.b)).trans (changes_readSrc _ o.d),
    ((coresOnly_readSrc s o.a).trans (coresOnly_readSrc _ o.b)).trans (coresOnly_readSrc _ o.d)⟩

section

variable {s : State} {o : Ops} {m : Trio}

/-- A message leaves at once outside a region, where no store of its stream waits and its destination has a slot (R204, R284). -/
theorem sendBody_leaves {u : State} {route : W64} {payload : List Byte} (hopen : regionOpen s = false) (hposted : ownPosted s s.cur.1 s.cur.2 = [])
    (hslot : hasSlot s (formMsg (curBerth s) (route.setWidth 32) payload) = true)
    (hhandoff : (curCore s).handoff.any (sameFlow (formMsg (curBerth s) (route.setWidth 32) payload)) = false) :
    sendBody .issue m s u route payload
      = .fin (trioPred m true (leaveMsg u (curBerth s) (formMsg (curBerth s) (route.setWidth 32) payload))) none := by
  simp [sendBody, hopen, hposted, timedWait, hslot, hhandoff]

/-- SEND and SENDS issue with the payload that R203 gives them. -/
theorem exec_sends {i : Instr} {payload : List Byte} (hi : (i = .send o m ∧ payload = leBytes 8 (readSrc o.a s).1.toNat
        ++ leBytes 8 (readSrc o.b (readSrc o.a s).2).1.toNat)
      ∨ (i = .sends o m ∧ heldData s = none ∧ (readSrc o.b (readSrc o.a s).2).1.toNat ≤ 256 ∧ (readSrc o.a s).1.toNat % 16 = 0
        ∧ inAlloc s (readSrc o.a s).1.toNat (readSrc o.b (readSrc o.a s).2).1.toNat = true
        ∧ spBad s (readSrc o.a s).1.toNat (readSrc o.b (readSrc o.a s).2).1.toNat = none
        ∧ payload = spSeen s (readSrc o.a s).1.toNat (readSrc o.b (readSrc o.a s).2).1.toNat))
    (h : ready i s = true) (hposted : ownPosted s s.cur.1 s.cur.2 = []) :
    exec i s = .next (runBody i o true s (sendBody .issue m s (readSend o s) (readSrc o.d (readSrc o.b (readSrc o.a s).2).2).1 payload))
      ∧ unstepped s = true := by
  rcases hi with ⟨rfl, rfl⟩ | ⟨rfl, hheld, hlen, haligned, halloc, hbad, rfl⟩
  · obtain ⟨hexec, hqueue, hstep⟩ := exec_ready rfl h
    refine ⟨hexec.trans ?_, hstep⟩
    simp only [sendMsgBody, onReady, hqueue, readSend, w64Bytes]
  · obtain ⟨hexec, hqueue, hstep⟩ := exec_ready rfl h
    refine ⟨hexec.trans ?_, hstep⟩
    have htouch : ownTouches s s.cur.1 s.cur.2 true
        [(spHome s (readSrc o.a s).1.toNat, (readSrc o.b (readSrc o.a s).2).1.toNat)] = false := by simp [ownTouches, hposted]
    have hfits : decide (256 < (readSrc o.b (readSrc o.a s).2).1.toNat) = false := decide_eq_false (Nat.not_lt.mpr hlen)
    have hplace : decide ((readSrc o.a s).1.toNat % 16 ≠ 0) = false := decide_eq_false (not_not.mpr haligned)
    simp only [sendsBody, onReady, hqueue, hheld, hfits, hplace, halloc, orTrap, firstTrap, afterAtoms, htouch, hbad, Bool.not_true, Bool.false_eq_true,
      if_false, readSend]

/-- A message of SEND or SENDS is in transit once the word is done (R203). -/
theorem send_leaves {i : Instr} (hstep : unstepped s = true) (k : Berth) (msg : Msg) :
    let t := runBody i o true s (.fin (trioPred m true (leaveMsg (readSend o s) k msg)) none)
    (∃ x : Msg, t.transit = s.transit ++ [x] ∧ x.payload = msg.payload ∧ x.len = msg.len ∧ x.route = msg.route ∧ x.gid = msg.gid
        ∧ x.sender = msg.sender ∧ x.seq = (nextSeq s k msg.route).1)
      ∧ t.mem = s.mem ∧ ScalarsBut s t [] ∧ TrioPred s t m ∧ GoesOnAt s t o ∧ CoreFrame s t := by
  intro t
  obtain ⟨hread, hreadOnly⟩ := readSend_changes o s
  obtain ⟨x, htransit, hpayload, hlen, hroute, hgid, hsender, hseq, hcores, hcur, hmem⟩ := leaveMsg_leaves (readSend o s) k msg
  have hleft : Changes s (leaveMsg (readSend o s) k msg) [] [] := hread.trans (Changes.of_cores hcores hcur)
  obtain ⟨hpred, hs, hframe⟩ := trioPred_result m hleft
  obtain ⟨hwrite, honly, -⟩ := trioPred_regs m (leaveMsg (readSend o s) k msg)
  obtain ⟨hpass, hpc, hwait, -⟩ := runBody_fin_passes i o true s none ((hleft.trans hwrite).unstepped.trans hstep)
  have htail := honly.trans hpass.coresOnly
  have htransitT : t.transit = (leaveMsg (readSend o s) k msg).transit := htail.field State.transit (fun _ _ => rfl)
  have htransitU : (readSend o s).transit = s.transit := hreadOnly.field State.transit (fun _ _ => rfl)
  have hgraphs : (readSend o s).graphs = s.graphs := hreadOnly.field State.graphs (fun _ _ => rfl)
  refine ⟨⟨x, by rw [htransitT, htransit, htransitU], hpayload, hlen, hroute, hgid, hsender, ?_⟩, ?_, ?_, hpass.trioPred hpred, ⟨hpc, hwait⟩, ?_⟩
  · rw [hseq, nextSeq, nextSeq, graphOf, graphOf, findGraph, findGraph, hgraphs]
  · rw [htail.mem, hmem, hreadOnly.mem]
  · exact hpass.scalars (coreFrame_supNow hframe) hs
  · exact coreFrame_trans hframe hpass.changes.frame

end

end Sys2Proof.Machine

/-! Packets that a stream launches (R42, R43, R142). -/

namespace Sys2Proof.Machine

open Sys2Proof.Claims

/- Packets that are launched (R142). -/

section

variable {s t u : State}

/-- The cores are as they were, and each launch context holds its packets and its mark of a full queue. -/
structure KeepsQueues (s t : State) : Prop where
  cores : t.cores = s.cores
  cur : t.cur = s.cur
  queues : ∀ n, (ctxOf t n).queue = (ctxOf s n).queue ∧ (ctxOf t n).fullseen = (ctxOf s n).fullseen

theorem KeepsQueues.trans (h : KeepsQueues s t) (h' : KeepsQueues t u) : KeepsQueues s u :=
  ⟨h'.cores.trans h.cores, h'.cur.trans h.cur, fun n => ⟨(h'.queues n).1.trans (h.queues n).1, (h'.queues n).2.trans (h.queues n).2⟩⟩

theorem KeepsQueues.of_ctxs (hcores : t.cores = s.cores) (hcur : t.cur = s.cur) (h : t.ctxs = s.ctxs) : KeepsQueues s t :=
  ⟨hcores, hcur, fun n => by rw [ctxOf, ctxOf, h]; exact ⟨rfl, rfl⟩⟩

/-- A report that is dropped marks its context (R42). -/
theorem keepsQueues_drop (s : State) (ctx : Nat) : KeepsQueues s (setCtx s ctx { ctxOf s ctx with drop := true }) := by
  refine ⟨rfl, rfl, fun n => ?_⟩
  by_cases hn : n = ctx
  · subst hn
    rw [ctxOf_setCtx_same]
    exact ⟨rfl, rfl⟩
  · rw [ctxOf_setCtx_other _ _ hn]
    exact ⟨rfl, rfl⟩

theorem keepsQueues_deviceRec (s : State) (code engine eid : Nat) (detail : List Byte) : KeepsQueues s (deviceRec s code engine eid detail) :=
  KeepsQueues.of_ctxs (putRec_cores _ _) rfl rfl

theorem keepsQueues_noteDone (s : State) (gid code : Nat) : KeepsQueues s (noteDone s gid code) := KeepsQueues.of_ctxs rfl rfl rfl

theorem keepsQueues_endReport (s : State) (p : RepPend) (w : Bool) : KeepsQueues s (endReport s p w) := by
  have signal : ∀ t : State, KeepsQueues s t → KeepsQueues s (if p.done then noteDone t p.gid p.code else t) := by
    intro t ht
    split
    · exact ht.trans (keepsQueues_noteDone t _ _)
    · exact ht
  refine signal _ ?_
  cases w with
  | true =>
    rw [if_pos rfl]
    split <;> exact KeepsQueues.of_ctxs rfl rfl rfl
  | false =>
    rw [if_neg Bool.false_ne_true]
    exact (keepsQueues_drop s p.ctx).trans (keepsQueues_deviceRec _ _ _ _ _)

theorem keepsQueues_putReport (s : State) (rack : Option Nat) (pasid : BitVec 20) (va : Nat) (p : RepPend) (bs : List Byte) :
    KeepsQueues s (putReport s rack pasid va p bs) := by
  have copy : ∀ t : State, KeepsQueues s t → KeepsQueues s (match rack with
      | some e => { t with net := { t.net with reports := (e, bs) :: t.net.reports } }
      | none => t) := by
    intro t ht
    cases rack
    · exact ht
    · exact ht.trans (KeepsQueues.of_ctxs rfl rfl rfl)
  unfold putReport
  refine copy _ ?_
  split
  · exact keepsQueues_endReport s p false
  · next hsend =>
    obtain ⟨m, d, f, rfl⟩ := dispSend_eq hsend
    exact KeepsQueues.trans (t := { s with mem := m, dirty := d, fabric := f }) (KeepsQueues.of_ctxs rfl rfl rfl) (keepsQueues_endReport _ p true)
  · next hsend =>
    obtain ⟨m, d, f, rfl⟩ := dispSend_eq hsend
    exact KeepsQueues.of_ctxs rfl rfl rfl

theorem keepsQueues_rejectAt (s : State) (x : Rejected) (reason : Nat) (done : Bool) : KeepsQueues s (rejectAt s x reason done) := by
  unfold rejectAt
  split
  · have hrec := (keepsQueues_drop s x.ctx).trans (keepsQueues_deviceRec _ 0x0604 11 0 (leBytes 1 reason))
    dsimp only
    split
    · exact hrec.trans (keepsQueues_noteDone _ _ _)
    · exact hrec
  · exact keepsQueues_putReport s _ _ _ _ _

/-- A packet that finds no place is rejected, and its context notes that (R43). -/
theorem enqueue_refused {ctx : Nat} {k : LaunchPkt} (h : (ctxOf s ctx).enable = false ∨ 256 ≤ (ctxOf s ctx).queue.length) :
    (enqueue s ctx true k).2 = false
      ∧ KeepsQueues (setCtx s ctx { ctxOf s ctx with fullseen := true }) (enqueue s ctx true k).1 := by
  simp only [enqueue, if_pos (Or.inr h)]
  exact ⟨trivial, keepsQueues_rejectAt _ _ _ _⟩

theorem enqueue_room_taken {ctx : Nat} (k : LaunchPkt) (hen : (ctxOf s ctx).enable = true) (hlen : (ctxOf s ctx).queue.length < 256) :
    (enqueue s ctx true k).2 = true := by
  have hroom : ¬(true = false ∨ (ctxOf s ctx).enable = false ∨ 256 ≤ (ctxOf s ctx).queue.length) := by simp [hen, hlen]
  simp only [enqueue, if_neg hroom]

/-- The translations of an access enter a cache of a station, and no more (R178). -/
theorem noteAcc_eq (s : State) (x : Acc) : ∃ l, noteAcc s x = { s with stations := l } := by
  unfold noteAcc
  split
  · refine List.foldlRecOn (motive := fun t : State => ∃ l, t = { s with stations := l }) _ _ ⟨s.stations, rfl⟩ ?_
    rintro _ ⟨l, rfl⟩ p _
    unfold noteTlb
    dsimp only
    split <;> exact ⟨_, rfl⟩
  · exact ⟨s.stations, rfl⟩

/-- A piece of an access with no uncorrectable granule meets no trap for one (R181). -/
theorem badTrap_none {x : Acc} {gs : List Nat} (h : gs.all (fun g => !isBad s g) = true) : badTrap s x gs = none := by
  have hnone : gs.findIdx? (isBad s) = none := by
    rw [List.findIdx?_eq_none_iff]
    intro g hg
    rw [List.all_eq_true] at h
    simpa using h g hg
  rw [badTrap, hnone]

end

section

variable {s : State} {o : Ops}

/-- A LAUNCH whose packet lies in this device issues with the bytes that its stream sees there (R142, R186). -/
theorem exec_launch {g : Target} {ps : List (Nat × Nat)} (hopen : regionOpen s = false) (hrop : heldRop s = none) (h : ready (.launch o) s = true)
    (htarget : (match o.a with
      | .b n => recTarget s n.toNat 0 1 64 .ld .plain (loadEng s false)
      | _ => .ok { x := curAcc s .sp (readSrc o.a s).1 64 .ld }) = .ok g)
    (hchecks : accChecks s g 16 = none) (hlocate : locate s g.x 0 = .ok (.here ps)) (htouch : ownTouches s s.cur.1 s.cur.2 true ps = false)
    (hgood : (granules ps).all (fun x => !isBad s x) = true) :
    exec (.launch o) s
      = .next (runBody (.launch o) o false s (launchNow o (noteAcc s g.x) (ps.flatMap (seenBytes s s.cur.1 s.cur.2)))) := by
  obtain ⟨hexec, hqueue, -⟩ := exec_ready rfl h
  rw [hexec]
  congr 2
  have hchecked : checkedBefore .issue s = false := rfl
  cases ha : o.a
  all_goals
    rw [ha] at htarget
    dsimp only at htarget
    simp only [launchBody, onReady, hqueue, hopen, hrop, ha, htarget, hchecked, hchecks, hlocate, htouch, badTrap_none hgood, Option.isSome_none,
      Bool.false_eq_true, if_false]

/-- A LAUNCH that is done has written its result, after changes of no core (R142). -/
theorem launch_result {u : State} {v : W64} (hstep : unstepped s = true) (hcores : u.cores = s.cores)
    (hcur : u.cur = s.cur) :
    let t := runBody (.launch o) o false s (.fin (writeDst o.d v u) none)
    CoresOnly u t ∧ Result s t o.d v ∧ GoesOnAt s t o ∧ CoreFrame s t := by
  intro t
  have hu := Changes.of_cores hcores hcur
  obtain ⟨hresult, hwrite, honly⟩ := writeDst_result o.d v (Changes.refl u) rfl (fun _ _ => rfl)
  have hall := hu.trans hwrite
  obtain ⟨hpass, hpc, hwait, -⟩ := runBody_fin_passes (.launch o) o false s none (hall.unstepped.trans hstep)
  have hqueue : ∀ n, qGet (curCore u) n = qGet (curCore s) n := fun n => by rw [curCore, curCore, coreOf, coreOf, hcores, hcur]
  exact ⟨honly.trans hpass.coresOnly,
    hpass.result (coreFrame_supNow hall.frame) (result_of_scalars (coreFrame_supNow hu.frame) hu.scalars (fun n _ => hqueue n) hresult),
    ⟨hpc, hwait⟩, coreFrame_trans hall.frame hpass.changes.frame⟩

theorem CoresOnly.ctxOf {s t : State} (h : CoresOnly s t) (n : Nat) : ctxOf t n = ctxOf s n := by
  rw [Machine.ctxOf, Machine.ctxOf, h.field State.ctxs (fun _ _ => rfl)]

end

end Sys2Proof.Machine

section

open Sys2Proof.Machine Sys2Proof.Claims

/-- Settles O38: a word that sends changes no core but to read its operands, and a launched packet is taken or refused by its context. -/
theorem messagesLeave : Obligations.MessagesLeave := by
  unfold Obligations.MessagesLeave
  intro s o hopen a b d
  refine ⟨fun i m payload hi h hposted hslot hhandoff => ?_, ?_⟩
  · obtain ⟨hexec, hstep⟩ := exec_sends hi h hposted
    rw [sendBody_leaves hopen hposted hslot hhandoff] at hexec
    obtain ⟨⟨x, htransit, hpayload, hlen, hroute, hgid, hsender, hseq⟩, hmem, hs, hpred, hgoes, hframe⟩ :=
      send_leaves (o := o) (m := m) (i := i) hstep (curBerth s) (formMsg (curBerth s) (d.1.setWidth 32) payload)
    exact ⟨_, x, hexec, htransit, hpayload, hlen, hroute, hgid, hsender, hseq, hmem, hs, hpred, hgoes, hframe⟩
  · intro g ps hrop h htarget hchecks hlocate htouch hgood ctx
    have hexec := exec_launch hopen hrop h htarget hchecks hlocate htouch hgood
    obtain ⟨-, -, hstep⟩ := exec_ready rfl h
    obtain ⟨l, hnoted⟩ := noteAcc_eq s g.x
    rw [hnoted] at hexec
    let pkt : LaunchPkt := { bytes := ps.flatMap (seenBytes s s.cur.1 s.cur.2), pasid := if supNow s then none else some (curGraph s).pasid }
    have hnow : launchNow o { s with stations := l } (ps.flatMap (seenBytes s s.cur.1 s.cur.2))
        = .fin (writeDst o.d (if (enqueue { s with stations := l } ctx true pkt).2 then 0 else 15) (enqueue { s with stations := l } ctx true pkt).1) none := rfl
    rw [hnow] at hexec
    refine ⟨fun hen hlen => ?_, fun hno => ?_⟩
    · have htaken := enqueue_room_taken (s := { s with stations := l }) pkt hen hlen
      have hroom := enqueue_room (s := { s with stations := l }) pkt hen hlen
      rw [htaken, hroom, if_pos rfl] at hexec
      obtain ⟨honly, hresult, hgoes, hframe⟩ := launch_result (s := s) (v := 0) hstep
        (u := setCtx { s with stations := l } ctx { ctxOf s ctx with queue := (ctxOf s ctx).queue ++ [pkt] }) rfl rfl
      exact ⟨_, pkt, hexec, (congrArg LaunchCtx.queue (honly.ctxOf ctx)).trans (by rw [ctxOf_setCtx_same]), rfl, rfl, hresult, honly.mem, hgoes, hframe⟩
    · obtain ⟨hrefused, hkeeps⟩ := enqueue_refused (s := { s with stations := l }) (k := pkt) hno
      rw [hrefused, if_neg Bool.false_ne_true] at hexec
      obtain ⟨honly, hresult, hgoes, -⟩ := launch_result (s := s) (v := 15) hstep hkeeps.cores hkeeps.cur
      obtain ⟨hqueue, hfull⟩ := hkeeps.queues ctx
      rw [ctxOf_setCtx_same] at hqueue hfull
      exact ⟨_, hexec, hresult, by rw [honly.ctxOf, hqueue]; rfl, by rw [honly.ctxOf, hfull], hgoes⟩

end

/-! Messages and window marks that arrive, and messages that are parked (R116, R117, R304). -/

namespace Sys2Proof.Machine

open Sys2Proof.Claims

/- Messages at their berth (R116, R117, R204). -/

section

variable {s : State}

theorem chanGet_chanSet_other (k : Berth) {ch d : BitVec 3} (l : List Msg) (h : d ≠ ch) : chanGet (chanSet k ch l) d = chanGet k d := by
  have hne : ch.toNat ≠ d.toNat := fun he => h (BitVec.eq_of_toNat_eq he.symm)
  simp [chanGet, chanSet, hne]

theorem coreOf_noteIdle_other {c d : Nat} (bit : Nat) (h : d ≠ c) : coreOf (noteIdle s c bit) d = coreOf s d := coreOf_updCore_other s _ h

/-- A message that may arrive at a live berth enters its channel there, by the slot that it holds (R116, R204). -/
theorem exec_messageArrival {k c : Nat} {b : BitVec 2} {m : Msg} (hm : s.transit[k]? = some m) (hturn : mayArrive s k = true) (harr : m.arr ≠ 0)
    (hdev : s.devPark.any (fun p => sameFlow p.msg m) = false) (hheld : s.heldMsgs.any (fun x => sameFlow x m) = false)
    (hlive : liveAt s m.gid (tagDest m.route) = some (c, b)) (hpark : (berthAt (coreOf s c) b).park.any (fun p => sameFlow p.msg m) = false)
    (hwindow : inWindow s (berthAt (coreOf s c) b) (tagChan m.route) m = false) (hhandler : findsHandler (berthAt (coreOf s c) b) m = true)
    (hslot : m.slot = true) :
    exec (.messageArrival k) s = .next (updBerth (noteIdle { s with transit := s.transit.eraseIdx k } c 1) c b
      (fun x => chanSet x (tagChan m.route) (chanGet x (tagChan m.route) ++ [{ m with slot := false }]))) := by
  let u := { s with transit := s.transit.eraseIdx k }
  have hsame : ({ m with arr := if m.arr = 0 then u.wall else m.arr } : Msg) = m := by rw [if_neg harr]
  have hdevU : u.devPark.any (fun p => sameFlow p.msg m) = false := hdev
  have hheldU : u.heldMsgs.any (fun x => sameFlow x m) = false := hheld
  have hliveU : liveAt u m.gid (tagDest m.route) = some (c, b) := hlive
  have hwindowU : inWindow u (berthAt (coreOf u c) b) (tagChan m.route) m = false := hwindow
  have hparkU : ¬((berthAt (coreOf u c) b).park.any (fun p => sameFlow p.msg m) = true ∨ findsHandler (berthAt (coreOf u c) b) m = false) := by
    rw [not_or]
    exact ⟨by rw [Bool.not_eq_true]; exact hpark, by rw [Bool.not_eq_false]; exact hhandler⟩
  have harrive : arriveMsg u m = deliverBerth u c b m := by
    simp only [arriveMsg, hsame, hdevU, hheldU, hliveU, Bool.false_eq_true, if_false]
  have hdeliver : deliverBerth u c b m = enterChan (noteIdle u c 1) c b m := by
    simp only [deliverBerth, hwindowU, Bool.false_eq_true, if_false, if_neg hparkU]
  have hexec : exec (.messageArrival k) s = .next (arriveMsg u m) := by
    change execMessageArrival k s = _
    rw [execMessageArrival, hm]
    dsimp only
    rw [if_pos hturn, dropAt_eq_eraseIdx]
  rw [hexec, harrive, hdeliver, enterChan, if_pos (Or.inl hslot)]

/-- A parked message whose turn it is enters its channel when that has room (R116). -/
theorem exec_parkDelivery {c k : Nat} {b : BitVec 2} {p : Parked} (hc : c < 1024) (hp : (berthAt (coreOf s c) b).park[k]? = some p)
    (hturn : ((berthAt (coreOf s c) b).park.take k).any (fun x => sameFlow x.msg p.msg) = false)
    (hhandler : findsHandler (berthAt (coreOf s c) b) p.msg = true) (hfree : chanFree s (berthAt (coreOf s c) b) (tagChan p.msg.route) = true) :
    exec (.parkDelivery (.berth c b) k) s = .next (updBerth (updBerth (noteIdle s c 1) c b (fun x => { x with park := x.park.eraseIdx k })) c b
      (fun x => chanSet x (tagChan p.msg.route) (chanGet x (tagChan p.msg.route) ++ [p.msg]))) := by
  change execParkDelivery (.berth c b) k s = _
  rw [execParkDelivery]
  rw [if_neg (Nat.not_le.mpr hc), execParkDelivery.go]
  simp only [parkOf, hp, hturn, hhandler, hfree, Bool.false_eq_true, if_false, Bool.and_self, if_true, dropParkedAt, dropAt_eq_eraseIdx]

/-- A graph that fails changes cores and graphs alone. -/
theorem failGraph_eq (s : State) (gid code : Nat) (task : Option Nat) : ∃ cs gs, failGraph s gid code task = { s with cores := cs, graphs := gs } := by
  have hstopped : ∀ l : List (Nat × BitVec 2), ∃ cs, l.foldl (fun t p => updBerth t p.1 p.2 (fun k =>
      { k with state := .stopping, stopFor := some .failGraph })) s = { s with cores := cs } := fun l => by
    refine List.foldlRecOn (motive := fun t : State => ∃ cs, t = { s with cores := cs }) l _ ⟨s.cores, rfl⟩ ?_
    rintro _ ⟨cs, rfl⟩ p _
    exact ⟨_, rfl⟩
  obtain ⟨cs, hcs⟩ := hstopped (berthsOf s gid)
  rw [failGraph, hcs]
  exact ⟨_, _, rfl⟩

/-- A record is written, and no message moves. -/
theorem putRec_devPark (s : State) (r : RecIn) : (putRec s r).devPark = s.devPark := by
  unfold putRec writeRec
  split <;> rfl

/-- A message parked in dispatch hardware for UBTOW is discarded (R117). -/
theorem exec_parkDiscard {k : Nat} {p : Parked} (hp : s.devPark[k]? = some p) (htime : s.fw.ubtow ≤ s.wall - p.since) :
    exec (.parkDiscard .device k) s
      = .next (failGraph (unboundRec { s with devPark := s.devPark.eraseIdx k } p.msg 0xFFFF 1) p.msg.gid 0x0601 none) := by
  change execParkDiscard .device k s = _
  rw [execParkDiscard]
  rw [execParkDiscard.go]
  simp only [parkOf, hp, if_pos htime, dropParkedAt, dropAt_eq_eraseIdx]

/- Window marks (R304). -/

theorem winOf_setWin (g : Graph) {w : WinState} {task : Nat} {c : BitVec 3} (htask : w.task = task) (hchan : w.chan = c) :
    winOf (setWin g w) task c = w := by
  simp [winOf, setWin, htask, hchan]

/-- What winOf gives is of its task and channel. -/
theorem winOf_key (g : Graph) (task : Nat) (c : BitVec 3) : (winOf g task c).task = task ∧ (winOf g task c).chan = c := by
  unfold winOf
  cases h : g.wins.find? (fun w => decide (w.task = task ∧ w.chan = c)) with
  | none => exact ⟨rfl, rfl⟩
  | some w => simpa using List.find?_some h

/-- The window of a mark's channel in which the mark has been counted for its sender (R304). -/
def markWindow (i : Nat) (m : Mark) (g : Graph) : WinState :=
  let w := winOf g i m.chan
  { w with marks := amSet w.marks m.sender.toNat (amGet 0 w.marks m.sender.toNat + 1) }

/-- The graph of a mark that has been counted. -/
def countMark (i : Nat) (m : Mark) (g : Graph) : Graph := setWin g (markWindow i m g)

theorem marks_countMark (i : Nat) (m : Mark) (g : Graph) :
    amGet 0 (winOf (countMark i m g) i m.chan).marks m.sender.toNat = amGet 0 (winOf g i m.chan).marks m.sender.toNat + 1 := by
  obtain ⟨htask, hchan⟩ := winOf_key g i m.chan
  rw [countMark, winOf_setWin g (w := markWindow i m g) htask hchan]
  exact amGet_amSet_same _ _ _ _

/-- A mark names a task of a graph that exists. -/
theorem findGraph_of_markTask {m : Mark} {i : Nat} (h : markTask s m = some i) : (findGraph s m.gid).isSome = true := by
  cases hg : findGraph s m.gid with
  | some g => rfl
  | none =>
    have hnone : markTask s m = none := by
      rw [markTask, graphOf, hg]
      rfl
    rw [hnone] at h
    cases h

/-- A mark before which nothing of its flow comes is counted for its sender (R304). -/
theorem exec_windowMarkArrival {k i : Nat} {m : Mark} (hm : s.marksT[k]? = some m) (htransit : s.transit.any (fun x => markFlow m x) = false)
    (hdev : s.devPark.any (fun p => markFlow m p.msg) = false) (hheld : s.heldMsgs.any (fun x => markFlow m x) = false)
    (hfirst : ∀ x ∈ s.marksT, x.gid = m.gid → x.sender = m.sender → x.dest = m.dest → x.chan = m.chan → x.seq = m.seq)
    (htask : markTask s m = some i) (hlive : liveAt s m.gid m.dest = none) :
    exec (.windowMarkArrival k) s = .next (updGraph { s with marksT := s.marksT.eraseIdx k } m.gid (countMark i m)) := by
  let before : BitVec 16 → Bool := fun q => decide (q ≠ m.seq ∧ (m.seq - q).toNat < 2 ^ 15)
  have none_before : ∀ {α : Type} (l : List α) (f g : α → Bool), l.any f = false → l.any (fun x => f x && g x) = false := fun l f g h => by
    simp only [List.any_eq_false] at h ⊢
    intro x hx
    simp [h x hx]
  have hmarks : s.marksT.any (fun x => decide (x.gid = m.gid ∧ x.sender = m.sender ∧ x.dest = m.dest ∧ x.chan = m.chan) && before x.seq) = false := by
    rw [List.any_eq_false]
    intro x hx
    by_cases hflow : x.gid = m.gid ∧ x.sender = m.sender ∧ x.dest = m.dest ∧ x.chan = m.chan
    · obtain ⟨hgid, hsender, hdest, hchan⟩ := hflow
      have hseq := hfirst x hx hgid hsender hdest hchan
      simp [before, hseq]
    · simp [hflow]
  have hahead : (s.transit.any (fun x => markFlow m x && before x.seq) || (s.devPark.any (fun p => markFlow m p.msg && before p.msg.seq))
      || s.heldMsgs.any (fun x => markFlow m x && before x.seq)
      || s.marksT.any (fun x => decide (x.gid = m.gid ∧ x.sender = m.sender ∧ x.dest = m.dest ∧ x.chan = m.chan) && before x.seq)) = false := by
    rw [none_before s.transit _ (fun x => before x.seq) htransit, none_before s.devPark _ (fun p => before p.msg.seq) hdev,
      none_before s.heldMsgs _ (fun x => before x.seq) hheld, hmarks]
    rfl
  change execWindowMarkArrival k s = _
  rw [execWindowMarkArrival, hm]
  dsimp only
  rw [if_neg (by rw [Bool.not_eq_true]; exact hahead), htask, hlive, dropAt_eq_eraseIdx]
  rfl

end

end Sys2Proof.Machine

/-! Asynchronous events, as they arrive and as they are taken (R384, R385). -/

namespace Sys2Proof.Machine

open Sys2Proof.Claims

/- Asynchronous events (R384, R385). -/

section

variable {s : State}

/-- An event of which an earlier cyc is behind all those that pend joins them last (R384). -/
theorem insertEvent_last {l : List Event} {e : Event} (h : ∀ x ∈ l, x.cyc < e.cyc) : insertEvent l e = l ++ [e] := by
  have hfirst : ∀ x ∈ l, decide (x.cyc < e.cyc ∨ (x.cyc = e.cyc ∧ x.code ≤ e.code)) = true := fun x hx => decide_eq_true (Or.inl (h x hx))
  simp only [insertEvent]
  rw [List.takeWhile_eq_self_iff.mpr hfirst, List.dropWhile_eq_nil_iff.mpr hfirst]

/-- An event in its turn pends at the berth of its task (R385, R404). -/
theorem exec_asyncEventArrival {k c : Nat} {b : BitVec 2} {m : AsyncEv} (hm : s.asyncs[k]? = some m) (hturn : eventBehind (s.asyncs.take k) m = false)
    (hberth : (berthsOf s m.gid).find? (fun p => let x := berthAt (coreOf s p.1) p.2; decide (x.task = m.task ∧ x.ordered = m.ord)) = some (c, b))
    (hruns : berthRuns s c b = true) (hroom : (berthAt (coreOf s c) b).pend.length < 8) :
    exec (.asyncEventArrival k) s = .next (noteIdle (updBerth { s with asyncs := s.asyncs.eraseIdx k } c b
      (fun y => { y with pend := insertEvent y.pend { m.ev with cyc := cycOf s c } })) c 2) := by
  change execAsyncEventArrival k s = _
  rw [execAsyncEventArrival, hm]
  dsimp only
  rw [if_neg (by rw [hturn]; exact Bool.false_ne_true), dropAt_eq_eraseIdx]
  split
  · next hfind =>
    cases hfind.symm.trans hberth
    exact congrArg Host.Outcome.next (if_pos ⟨hruns, hroom⟩)
  · next hfind => cases hfind.symm.trans hberth

/-- A core that stands at its boundary takes the event that pends first (R384). -/
theorem exec_asyncEventTaken {c : Nat} {a : Act} {e : Event} {rest : List Event} (hc : c < 1024) (hact : (coreOf s c).act = some a)
    (hpend : (berthAt (coreOf s c) a.berth).pend = e :: rest) (hsup : (coreOf s c).sup = false) (hgear : geared s c = false)
    (hregion : (coreOf s c).region = none) (hrun : (coreOf s c).ex.stopped = false) (hwait : (coreOf s c).ex.wait = none)
    (htraps : trapsNow s c false = none) :
    exec (.asyncEventTaken c) s
      = .next (enterSup { s with cur := (c, false) } c false (coreOf s c).ex.pc (coreOf s c).ex.pc (eventTrap e) false) := by
  have hstream : eventStream s c = false := hrun
  have hberth : actBerth (coreOf s c) = berthAt (coreOf s c) a.berth := by rw [actBerth, actBerthNo, hact]
  have hdue : eventDue s c = some e := by
    simp [eventDue, hact, hsup, hgear, hstream, streamOf, hrun, replayStalled, hwait, hberth, hpend]
  have htake : takeEvent s c = enterSup { s with cur := (c, false) } c false (coreOf s c).ex.pc (coreOf s c).ex.pc (eventTrap e) false := by
    rw [takeEvent, hdue, hstream]
    exact takeTrap_plain (s := { s with cur := (c, false) }) hsup hregion
  change execAsyncEventTaken c s = _
  rw [execAsyncEventTaken, if_neg (Nat.not_le.mpr hc), eventMove, hdue, Option.isSome_some, if_pos rfl, hstream, htraps, Option.getD_none, htake]

/-- A core of which no stream waits enters its supervisor routine with the berth as it was, but for the event that it takes (R381, R384). -/
theorem pend_enterSup {c : Nat} {a : Act} {e : Event} {rest : List Event} {pc rpc : W64} (hact : (coreOf s c).act = some a)
    (hpend : (berthAt (coreOf s c) a.berth).pend = e :: rest) (hex : (coreOf s c).ex.wait = none) (hpi : (coreOf s c).pi.wait = none) :
    (berthAt (coreOf (enterSup s c false pc rpc (eventTrap e) false) c) a.berth).pend = rest := by
  have hexWait : abandonWait s c false = s := by
    rw [abandonWait, streamOf, if_neg Bool.false_ne_true, hex]
  have hpiWait : abandonWait s c true = s := by
    rw [abandonWait, streamOf, if_pos rfl, hpi]
  have hno : actBerthNo (coreOf s c) = a.berth := by rw [actBerthNo, hact]
  have hdrop : (berthAt (dropPend (eventTrap e) (coreOf s c)) a.berth).pend = rest := by
    have hasync : (eventTrap e).async = true := rfl
    rw [dropPend, if_pos hasync, hno, berthAt_setBerth_same, actBerth, hno, hpend]
    simp [eventTrap]
  rw [enterSup, hexWait, hpiWait]
  dsimp only
  rw [coreOf_updCore_same, ← hdrop]
  exact congrArg Berth.pend (berthAt_congr rfl _)

end

end Sys2Proof.Machine

section

open Sys2Proof.Machine Sys2Proof.Claims

/-- Settles O50: each step is one change of a berth, a graph or a list on the way, which the lemmas above write out. -/
theorem messageSteps : Obligations.MessageSteps := by
  unfold Obligations.MessageSteps
  intro s
  refine ⟨fun k m c b hm hturn harr hdev hheld hlive _ hpark hwindow hhandler hslot => ?_, fun c b k p hc hp hturn hhandler hfree => ?_,
    fun k p hp htime hgraph => ?_, fun k m i hm htransit hdev hheld hfirst htask hlive => ?_, fun k m c b hm hturn hberth hruns hroom => ?_,
    fun c a e rest hc hact hpend hsup hgear hregion hrun hex hpi htraps => ?_⟩
  · refine ⟨_, exec_messageArrival hm hturn harr hdev hheld hlive hpark hwindow hhandler hslot, rfl, ?_, fun ch hch => ?_, fun d hd => ?_, rfl⟩
    · rw [berthAt_updBerth_same, chanGet_chanSet_same, berthAt_noteIdle]
      rfl
    · rw [berthAt_updBerth_same, chanGet_chanSet_other _ _ hch, berthAt_noteIdle]
      rfl
    · rw [coreOf_updBerth_other _ _ _ hd, coreOf_noteIdle_other _ hd]
      rfl
  · refine ⟨_, exec_parkDelivery hc hp hturn hhandler hfree, ?_, ?_, rfl⟩
    · rw [berthAt_updBerth_same, berthAt_updBerth_same, berthAt_noteIdle]
      rfl
    · rw [berthAt_updBerth_same, chanGet_chanSet_same, berthAt_updBerth_same, berthAt_noteIdle]
      rfl
  · obtain ⟨cs, gs, hfailed⟩ := failGraph_eq (unboundRec { s with devPark := s.devPark.eraseIdx k } p.msg 0xFFFF 1) p.msg.gid 0x0601 none
    have hfound : (findGraph (unboundRec { s with devPark := s.devPark.eraseIdx k } p.msg 0xFFFF 1) p.msg.gid).isSome = true :=
      (Winds.unboundRec { s with devPark := s.devPark.eraseIdx k } p.msg 0xFFFF 1).findGraph hgraph
    exact ⟨_, exec_parkDiscard hp htime, by rw [hfailed]; exact putRec_devPark _ _, failGraph_failing hfound 0x0601 none⟩
  · obtain ⟨g, hg⟩ := Option.isSome_iff_exists.mp (findGraph_of_markTask htask)
    have hafter := findGraph_updGraph_same { s with marksT := s.marksT.eraseIdx k } m.gid (f := countMark i m) (fun _ => rfl)
    have hbefore : findGraph { s with marksT := s.marksT.eraseIdx k } m.gid = some g := hg
    refine ⟨_, exec_windowMarkArrival hm htransit hdev hheld hfirst htask hlive, rfl, ?_, rfl, rfl⟩
    rw [graphOf, graphOf, hafter, hbefore, hg]
    exact marks_countMark i m g
  · have hpend : (berthAt (coreOf (noteIdle (updBerth { s with asyncs := s.asyncs.eraseIdx k } c b
        (fun y => { y with pend := insertEvent y.pend { m.ev with cyc := cycOf s c } })) c 2) c) b).pend
        = insertEvent (berthAt (coreOf s c) b).pend { m.ev with cyc := cycOf s c } := by
      rw [berthAt_noteIdle, berthAt_updBerth_same]
      rfl
    refine ⟨_, exec_asyncEventArrival hm hturn hberth hruns hroom, rfl, hpend, fun hearlier => ⟨{ m.ev with cyc := cycOf s c }, ?_, rfl⟩, rfl⟩
    rw [hpend]
    exact insertEvent_last hearlier
  · let u := { s with cur := (c, false) }
    obtain ⟨rsup, rcause, rpc, -, raddr, rstream⟩ := enterSup_registers u c false (coreOf s c).ex.pc (coreOf s c).ex.pc (eventTrap e) false
    refine ⟨_, exec_asyncEventTaken hc hact hpend hsup hgear hregion hrun hex htraps, rsup, rcause.trans ?_, rpc, raddr.trans rfl, rstream,
      pend_enterSup (s := u) hact hpend hex hpi, enterSup_mem _ _ _ _ _ _ rfl⟩
    simp [causeOf, eventTrap, Sys2Proof.bitNat]

end

/-! Deadline slots that fire, windows of RATIO and gauges (R125, R131, R416). -/

namespace Sys2Proof.Machine

open Sys2Proof.Claims

/- Deadlines that fire (R131). -/

section

variable (k : Core) (cyc wall : Nat)

theorem fireSlot_early {i : BitVec 2} (h : dlReached cyc wall (dlGet k i) = false) : fireSlot cyc wall k i = k := by
  simp [fireSlot, h]

theorem dlGet_fireSlot_other {i j : BitVec 2} (h : j ≠ i) : dlGet (fireSlot cyc wall k i) j = dlGet k j := by
  unfold fireSlot
  dsimp only
  split
  · exact dlGet_dlSet_other k _ h
  · rfl

/-- An armed slot that has not fired fires when its base reaches its target (R131). -/
theorem fireSlot_fires {i : BitVec 2} (harmed : dlArmed (dlGet k i) = true) (hfired : dlFired (dlGet k i) = false)
    (h : dlReached cyc wall (dlGet k i) = true) : let v := dlGet k i
    dlGet (fireSlot cyc wall k i) i = dlWord (dlTarget v) (dlSeen v) (dlBase v) true true ∧ dlAtGet (fireSlot cyc wall k i) i = cyc := by
  intro v
  have hfire : fireSlot cyc wall k i = dlAtSet (dlSet k i (dlWord (dlTarget v) (dlSeen v) (dlBase v) true true)) i cyc := by
    simp [fireSlot, harmed, hfired, h, v]
  rw [hfire]
  exact ⟨dlGet_dlSet_same k i _, by simp [dlAtGet, dlAtSet]⟩

end

theorem exec_deadlineFire {s : State} {c : Nat} {slot : BitVec 2} (hc : c < 1024) (hgear : geared s c = false)
    (hnew : (coreOf s c).dlNew.getLsbD slot.toNat = false) :
    exec (.deadlineFire c slot) s = .next (updCore s c (fun k => fireSlot (cycOf s c) (clusterOf s (clusterNo c)).edgeWall k slot)) := by
  change execDeadlineFire c slot s = _
  simp [execDeadlineFire, Nat.not_le.mpr hc, hgear, hnew]

theorem deadlineFires (s : State) (c : Nat) (slot : BitVec 2) (hc : c < 1024) (hgear : geared s c = false)
    (hnew : (coreOf s c).dlNew.getLsbD slot.toNat = false) :
    let edge := (clusterOf s (clusterNo c)).edgeWall
    let v := dlGet (coreOf s c) slot
    ∃ t : State, exec (.deadlineFire c slot) s = .next t ∧ { t with cores := s.cores } = s ∧ (∀ d, d ≠ c → coreOf t d = coreOf s d)
      ∧ (∀ j, j ≠ slot → dlGet (coreOf t c) j = dlGet (coreOf s c) j)
      ∧ (dlArmed v = true → dlFired v = false → dlReached (cycOf s c) edge v = true →
          dlFired (dlGet (coreOf t c) slot) = true ∧ dlArmed (dlGet (coreOf t c) slot) = true ∧ dlSeen (dlGet (coreOf t c) slot) = dlSeen v
            ∧ dlTarget (dlGet (coreOf t c) slot) = dlTarget v ∧ dlAtGet (coreOf t c) slot = cycOf s c)
      ∧ (dlReached (cycOf s c) edge v = false → coreOf t c = coreOf s c) := by
  intro edge v
  refine ⟨_, exec_deadlineFire hc hgear hnew, rfl, fun d hd => coreOf_updCore_other s _ hd, fun j hj => ?_, fun harmed hfired hreached => ?_,
    fun hearly => ?_⟩ <;> rw [coreOf_updCore_same]
  · exact dlGet_fireSlot_other _ _ _ hj
  · obtain ⟨hslot, hat⟩ := fireSlot_fires (coreOf s c) (cycOf s c) edge harmed hfired hreached
    rw [hslot]
    exact ⟨dlFired_dlWord _ _ _ _ _, dlArmed_dlWord _ _ _ _ _, dlSeen_dlWord _ _ _ _ _, dlTarget_dlWord _ _ _ _ _ (dlTarget_lt v), hat⟩
  · exact fireSlot_early _ _ _ hearly

/- Windows of RATIO (R125). -/

section

variable (count win : Nat) (gstop : Bool)

theorem fieldAt_ratioWord_count : fieldAt (ratioWord count gstop win).toNat 0 12 = min count 4095 := by
  have hg := Laws.Coding.bitNat_le gstop
  rw [fieldAt_zero, ratioWord, BitVec.toNat_ofNat]
  omega

theorem fieldAt_ratioWord_win : fieldAt (ratioWord count gstop win).toNat 32 32 = win % 2 ^ 32 := by
  have hg := Laws.Coding.bitNat_le gstop
  rw [Sys2Proof.fieldAt, ratioWord, BitVec.toNat_ofNat]
  omega

theorem getLsbD_ratioWord : (ratioWord count gstop win).getLsbD 31 = gstop := by
  have hg := Laws.Coding.bitNat_le gstop
  exact getLsbD_of_bitNat (by decide) (by omega)

end

section

variable (s : State)

theorem sampleDevGauge_clusters (i v : Nat) : (sampleDevGauge s i v).clusters = s.clusters := by
  unfold sampleDevGauge
  dsimp only
  split <;> rfl

theorem sampleCoreGauge_clusters (c : Nat) (i : BitVec 2) (v : Nat) : (sampleCoreGauge s c i v).clusters = s.clusters := by
  unfold sampleCoreGauge
  dsimp only
  split <;> rfl

/-- Sampling a window leaves the clusters (R416). -/
theorem sampleRatio_clusters (n : Nat) : (sampleRatio s n).clusters = s.clusters := by
  have hdev : ∀ src unit v, (sampleDevSource s src unit v).clusters = s.clusters := fun src unit v => by
    refine List.foldlRecOn (motive := fun t : State => t.clusters = s.clusters) _ _ rfl ?_
    intro t ht p _
    split
    · exact (sampleDevGauge_clusters t _ _).trans ht
    · exact ht
  unfold sampleRatio
  refine List.foldlRecOn (motive := fun t : State => t.clusters = s.clusters) _ _ (hdev _ _ _) ?_
  intro t ht i _
  refine List.foldlRecOn (motive := fun u : State => u.clusters = s.clusters) _ _ ht ?_
  intro u hu j _
  dsimp only
  split
  · exact (sampleCoreGauge_clusters u _ _ _).trans hu
  · exact hu

theorem clusterOf_sampleRatio (n m : Nat) : clusterOf (sampleRatio s n) m = clusterOf s m := by
  rw [clusterOf, clusterOf, sampleRatio_clusters]

end

theorem exec_ratioWindowComplete {s : State} {n : Nat} (hn : n < 128) (hover : windowOver s.wall (clusterOf s n) = true) :
    exec (.ratioWindowComplete n) s
      = .next (sampleRatio (setCluster s n (closeWindow s.wall (pairOf s (n / 2)).stopped (clusterOf s n))) n) := by
  change execRatioWindowComplete n s = _
  rw [execRatioWindowComplete, if_neg (Nat.not_le.mpr hn), if_pos hover]

theorem ratioWindowCloses (s : State) (n : Nat) (hn : n < 128) (hover : windowOver s.wall (clusterOf s n) = true) :
    ∃ t : State, exec (.ratioWindowComplete n) s = .next t ∧ fieldAt (clusterOf t n).ratio.toNat 0 12 = min (clusterOf s n).winCyc 4095
      ∧ (clusterOf t n).ratio.getLsbD 31 = (clusterOf s n).winGear ∧ fieldAt (clusterOf t n).ratio.toNat 32 32 = (clusterOf s n).win % 2 ^ 32
      ∧ (clusterOf t n).win = s.wall / 1024 ∧ (clusterOf t n).winCyc = 0 ∧ (clusterOf t n).winGear = (pairOf s (n / 2)).stopped
      ∧ (clusterOf t n).cyc = (clusterOf s n).cyc ∧ (∀ m, m ≠ n → clusterOf t m = clusterOf s m) := by
  refine ⟨_, exec_ratioWindowComplete hn hover, ?_⟩
  simp only [clusterOf_sampleRatio, clusterOf_setCluster_same, closeWindow]
  exact ⟨fieldAt_ratioWord_count _ _ _, getLsbD_ratioWord _ _ _, fieldAt_ratioWord_win _ _ _, trivial, trivial, trivial, trivial,
    fun m hm => clusterOf_setCluster_other s _ hm⟩

/- Gauges (R391, R416). -/

/-- A device gauge takes a sample, and no other does (R391). -/
theorem sampleDevGauge_dgauges (s : State) (i v : Nat) :
    (sampleDevGauge s i v).dgauges = amSet s.dgauges i { (gaugeAdd (amGet {} s.dgauges i) v).1 with last := some s.wall } := by
  unfold sampleDevGauge
  dsimp only
  split <;> rfl

theorem deviceGaugeSamples (s : State) (idx v : Nat) (hidx : idx < 64) (hdue : sampleDue s (amGet {} s.dgauges idx) v = true) :
    let g := amGet {} s.dgauges idx
    ∃ t : State, exec (.gaugeSample none idx v) s = .next t ∧ (amGet {} t.dgauges idx).count = g.count + 1
      ∧ (amGet {} t.dgauges idx).sum = min (g.sum + v) (2 ^ 64 - 1) ∧ (amGet {} t.dgauges idx).cfg = g.cfg ∧ (amGet {} t.dgauges idx).last = some s.wall
      ∧ (∀ j, j ≠ idx → amGet {} t.dgauges j = amGet {} s.dgauges j) ∧ t.cores = s.cores := by
  intro g
  have hexec : exec (.gaugeSample none idx v) s = .next (sampleDevGauge s idx v) := by
    change execGaugeSample none idx v s = _
    simp only [execGaugeSample, if_neg (Nat.not_le.mpr hidx), if_pos hdue]
  obtain ⟨hcores, -⟩ := sampleDevGauge_sameSupply s idx v
  refine ⟨_, hexec, ?_⟩
  rw [sampleDevGauge_dgauges, amGet_amSet_same]
  exact ⟨rfl, rfl, rfl, rfl, fun j hj => amGet_amSet_other _ _ _ hj, hcores⟩

theorem coreGaugeSamples (s : State) (c idx v : Nat) (hc : c < 1024) (hidx : idx < 4) : exec (.gaugeSample (some c) idx v) s = .next s := by
  change execGaugeSample (some c) idx v s = _
  have hunit : ¬(1024 ≤ c ∨ 4 ≤ idx) := by omega
  simp only [execGaugeSample, if_neg hunit]

end Sys2Proof.Machine

/-! Tagged sampling and telemetry (R417, R423). -/

namespace Sys2Proof.Machine

open Sys2Proof.Claims

/- Sample records (R417). -/

/-- The first 15 bytes of a sample record: the marked instruction, its graph and logical core, its stream and its flags (R417). -/
def sampleHead (x : Stream) (pilot : Bool) : List Byte :=
  leBytes 8 x.markPc.toNat ++ leBytes 4 x.markGid ++ leBytes 2 x.markLc.toNat ++ leBytes 1 (Sys2Proof.bitNat pilot + x.markFlags.toNat / 2 * 2)

/-- The next 25 bytes: the cyc of each stage (R417). -/
def sampleTimes (times : List Nat) : List Byte :=
  let cyc (i : Nat) : List Byte := leBytes 4 (min (times.getD i 0) (2 ^ 32 - 1))
  leBytes 1 0 ++ cyc 0 ++ cyc 1 ++ cyc 2 ++ cyc 3 ++ cyc 4 ++ leBytes 4 0

/-- A stream of which no instruction is marked. -/
def unmarked (x : Stream) : Stream := { x with marked := false, markDone := false }

/-- A stream that has drawn its next mark (R417). -/
def drawn (n : Nat) (x : Stream) : Stream := { x with sampleArmed := true, sampleLeft := n }

theorem sampleHead_length (x : Stream) (pilot : Bool) : (sampleHead x pilot).length = 15 := by
  simp only [sampleHead, List.length_append, Laws.Length.leBytes_length]

theorem sampleTimes_length (times : List Nat) : (sampleTimes times).length = 25 := by
  simp only [sampleTimes, List.length_append, Laws.Length.leBytes_length]

section

variable (s : State) (c : Nat) (pilot : Bool)

theorem coreOf_updStream_same (f : Stream → Stream) :
    coreOf (updStream s c pilot f) c = setStream (coreOf s c) pilot (f (streamOf (coreOf s c) pilot)) := coreOf_updCore_same s c _

/-- A record that is due is put into the ring of samples, and its stream is marked no more (R415, R417). -/
theorem putSample_due (times : List Nat) (hmarked : (streamOf (coreOf s c) pilot).marked = true)
    (hdone : (streamOf (coreOf s c) pilot).markDone = true) :
    let x := streamOf (coreOf s c) pilot
    let r := ringPut s.rSample s.mem 48 (sampleHead x pilot ++ (sampleTimes times ++ leBytes 8 x.markWall))
    putSample s c pilot times = updStream { s with rSample := r.1, mem := r.2.1 } c pilot unmarked := by
  simp only [putSample, hmarked, hdone, Bool.and_self, if_true, sampleHead, sampleTimes, List.append_assoc]
  rfl

/-- A ring that takes a record, or drops it, keeps its parameter. -/
theorem ringPut_param (r : Ring) (m : Memory) (size : Nat) (bs : List Byte) : (ringPut r m size bs).1.param = r.param := by
  unfold ringPut
  split <;> rfl

/-- The number that is drawn lies from 1 to twice PERIOD, and drawing it changes the stream alone (R417). -/
theorem drawSample_draws (h : s.rSample.param ≠ 0) : ∃ n, 1 ≤ n ∧ n ≤ 2 * s.rSample.param.toNat ∧ (drawSample s c pilot).mem = s.mem
    ∧ coreOf (drawSample s c pilot) c = setStream (coreOf s c) pilot (drawn n (streamOf (coreOf s c) pilot)) := by
  have hpos : 0 < 2 * s.rSample.param.toNat := by
    have hne : s.rSample.param.toNat ≠ 0 := fun h0 => h (BitVec.eq_of_toNat_eq h0)
    omega
  have hlt := Nat.mod_lt (Config.sampleDraw s.fresh) hpos
  exact ⟨1 + Config.sampleDraw s.fresh % (2 * s.rSample.param.toNat), Nat.le_add_right _ _, by omega, rfl, coreOf_updStream_same s c pilot (drawn _)⟩

theorem setStream_streamOf (k : Core) (p : Bool) : setStream k p (streamOf k p) = k := by cases p <;> rfl

/-- A record that still waited has been written: the stream goes on where it did (R417). -/
theorem flushSample_flushes : let u := flushSample s c pilot
    u.rSample.param = s.rSample.param ∧ ((streamOf (coreOf s c) pilot).marked = false → u.mem = s.mem)
      ∧ ∃ x, coreOf u c = setStream (coreOf s c) pilot x ∧ x.pc = (streamOf (coreOf s c) pilot).pc := by
  intro u
  by_cases h : (streamOf (coreOf s c) pilot).marked = true ∧ (streamOf (coreOf s c) pilot).markDone = true
  · obtain ⟨hmarked, hdone⟩ := h
    have hu : u = { putSample s c pilot ((List.range 5).map (fun i => Config.freeNat (s.fresh + i))) with fresh := s.fresh + 5 } := by
      simp only [u, flushSample, hmarked, hdone, Bool.and_self, if_true]
    rw [hu, putSample_due s c pilot _ hmarked hdone]
    refine ⟨ringPut_param _ _ _ _, fun hno => ?_, unmarked (streamOf (coreOf s c) pilot), coreOf_updStream_same _ c pilot unmarked, rfl⟩
    rw [hmarked] at hno
    cases hno
  · have hu : u = s := by
      simp only [u, flushSample, Bool.and_eq_true, if_neg h]
    rw [hu]
    exact ⟨rfl, fun _ => rfl, _, (setStream_streamOf _ _).symm, rfl⟩

end

/-- n bytes read within bytes that have been written are those of the list. -/
theorem rdBytes_wrBytes_part (m : Memory) (a : Nat) {bs : List Byte} {i n : Nat} (h : i + n ≤ bs.length) :
    rdBytes (wrBytes m a bs) (a + i) n = (bs.drop i).take n := by
  rw [rdBytes_eq_map]
  refine List.ext_getElem (by simp; omega) fun j hj _ => ?_
  simp only [List.length_map, List.length_range] at hj
  have hin : i + j < bs.length := by omega
  simp only [List.getElem_map, List.getElem_range, List.getElem_take, List.getElem_drop, Nat.add_assoc]
  exact rdByte_wrBytes_in hin

/- Marks (R417). -/

section

variable {s : State} {c : Nat} {pilot : Bool}

/-- A stream that stands at an instruction takes its turn of sampling. -/
theorem exec_sampleMark (hc : c < 1024) (hact : (coreOf s c).act.isSome = true) (hstopped : (streamOf (coreOf s c) pilot).stopped = false)
    (hwait : (streamOf (coreOf s c) pilot).wait = none) : exec (.sampleMark c pilot) s = .next (sampleTurn s c pilot) := by
  have hnone : (coreOf s c).act.isNone = false := by rw [← Option.not_isSome, hact]; rfl
  change execSampleMark c pilot s = _
  rw [execSampleMark, if_neg (Nat.not_le.mpr hc)]
  dsimp only
  rw [hnone, hstopped, hwait]
  rfl

/-- With PERIOD first set, a stream draws its first mark (R417). -/
theorem sampleTurn_first (hparam : s.rSample.param ≠ 0) (hsup : (coreOf s c).sup = false) (harmed : (streamOf (coreOf s c) pilot).sampleArmed = false) :
    sampleTurn s c pilot = drawSample s c pilot := by
  simp only [sampleTurn, hsup, if_neg hparam, harmed, Bool.false_eq_true, if_false, if_true]

/-- A stream whose count has expired, marked (R417). -/
def markNow (s : State) (c : Nat) (pilot : Bool) : State :=
  updStream (flushSample s c pilot) c pilot (fun u =>
    { u with marked := true, markDone := false, markPc := u.pc, markGid := (actBerth (coreOf s c)).gid, markLc := (actBerth (coreOf s c)).lcore })

theorem sampleTurn_marks (hparam : s.rSample.param ≠ 0) (hsup : (coreOf s c).sup = false) (harmed : (streamOf (coreOf s c) pilot).sampleArmed = true)
    (hleft : (streamOf (coreOf s c) pilot).sampleLeft = 0)
    (hended : (streamOf (coreOf s c) pilot).marked = true → (streamOf (coreOf s c) pilot).markDone = true) :
    sampleTurn s c pilot = drawSample (markNow s c pilot) c pilot := by
  have hturn : ¬((streamOf (coreOf s c) pilot).sampleLeft ≠ 0
      ∨ ((streamOf (coreOf s c) pilot).marked = true ∧ (streamOf (coreOf s c) pilot).markDone = false)) := by
    rintro (hno | ⟨hmarked, hdone⟩)
    · exact hno hleft
    · rw [hended hmarked] at hdone
      cases hdone
  simp only [sampleTurn, hsup, hparam, harmed, Bool.false_eq_true, Bool.true_eq_false, if_false, if_neg hturn, markNow]

/-- What a mark leaves of its core. -/
theorem markNow_marks : let u := markNow s c pilot
    u.rSample.param = s.rSample.param ∧ ((streamOf (coreOf s c) pilot).marked = false → u.mem = s.mem)
      ∧ ∃ x, coreOf u c = setStream (coreOf s c) pilot x ∧ x.marked = true ∧ x.markDone = false ∧ x.markPc = (streamOf (coreOf s c) pilot).pc := by
  intro u
  obtain ⟨hparam, hmem, x, hcore, hpc⟩ := flushSample_flushes s c pilot
  have hstream := coreOf_updStream_same (flushSample s c pilot) c pilot (fun u =>
    { u with marked := true, markDone := false, markPc := u.pc, markGid := (actBerth (coreOf s c)).gid, markLc := (actBerth (coreOf s c)).lcore })
  rw [hcore, streamOf_setStream_same] at hstream
  have hover : ∀ y : Stream, setStream (setStream (coreOf s c) pilot x) pilot y = setStream (coreOf s c) pilot y := fun y => by cases pilot <;> rfl
  exact ⟨hparam, hmem, _, hstream.trans (hover _), rfl, rfl, hpc⟩

theorem sampleMarks (hc : c < 1024) (hparam : s.rSample.param ≠ 0) (hact : (coreOf s c).act.isSome = true) (hsup : (coreOf s c).sup = false) :
    let x := streamOf (coreOf s c) pilot
    x.stopped = false → x.wait = none →
    (x.sampleArmed = true → x.sampleLeft = 0 → (x.marked = true → x.markDone = true) →
      ∃ t : State, exec (.sampleMark c pilot) s = .next t ∧ (streamOf (coreOf t c) pilot).marked = true ∧ (streamOf (coreOf t c) pilot).markPc = x.pc
        ∧ (streamOf (coreOf t c) pilot).markDone = false
        ∧ 1 ≤ (streamOf (coreOf t c) pilot).sampleLeft ∧ (streamOf (coreOf t c) pilot).sampleLeft ≤ 2 * s.rSample.param.toNat
        ∧ streamOf (coreOf t c) (!pilot) = streamOf (coreOf s c) (!pilot) ∧ (x.marked = false → t.mem = s.mem))
    ∧ (x.sampleArmed = false →
      ∃ t : State, exec (.sampleMark c pilot) s = .next t ∧ (streamOf (coreOf t c) pilot).marked = x.marked ∧ (streamOf (coreOf t c) pilot).sampleArmed = true
        ∧ 1 ≤ (streamOf (coreOf t c) pilot).sampleLeft ∧ (streamOf (coreOf t c) pilot).sampleLeft ≤ 2 * s.rSample.param.toNat ∧ t.mem = s.mem) := by
  intro x hstopped hwait
  have hexec := exec_sampleMark hc hact hstopped hwait
  refine ⟨fun harmed hleft hended => ?_, fun harmed => ?_⟩
  · rw [sampleTurn_marks hparam hsup harmed hleft hended] at hexec
    obtain ⟨hkept, hmem, y, hcore, hmarked, hdone, hpc⟩ := markNow_marks (s := s) (c := c) (pilot := pilot)
    obtain ⟨n, hlow, hhigh, hmemDraw, hdraw⟩ := drawSample_draws (markNow s c pilot) c pilot (by rw [hkept]; exact hparam)
    rw [hcore, streamOf_setStream_same] at hdraw
    rw [hkept] at hhigh
    refine ⟨_, hexec, ?_, ?_, ?_, ?_, ?_, ?_, fun hno => hmemDraw.trans (hmem hno)⟩ <;> rw [hdraw]
    · rw [streamOf_setStream_same]; exact hmarked
    · rw [streamOf_setStream_same]; exact hpc
    · rw [streamOf_setStream_same]; exact hdone
    · rw [streamOf_setStream_same]; exact hlow
    · rw [streamOf_setStream_same]; exact hhigh
    · rw [streamOf_setStream_not, streamOf_setStream_not]
  · rw [sampleTurn_first hparam hsup harmed] at hexec
    obtain ⟨n, hlow, hhigh, hmem, hdraw⟩ := drawSample_draws s c pilot hparam
    refine ⟨_, hexec, ?_, ?_, ?_, ?_, hmem⟩ <;> rw [hdraw, streamOf_setStream_same]
    · rfl
    · rfl
    · exact hlow
    · exact hhigh

/-- The record of an instruction that has ended is written (R417). -/
theorem sampleRecords {times : List Nat} {flags : BitVec 8} (hc : c < 1024) (hmem : Safety.CanonicalMemory s) :
    let x := streamOf (coreOf s c) pilot
    x.marked = true → x.markDone = true → fieldAt (BitVec.toNat flags) 1 3 = x.markFlags.toNat / 2 →
    s.rSample.en = true → (s.rSample.head - s.rSample.tail).toNat < 2 ^ s.rSample.log.toNat →
    let a := gddrBase + s.rSample.base.toNat / 4096 * 4096 + s.rSample.head.toNat % 2 ^ s.rSample.log.toNat * 48
    ∃ t : State, exec (.sampleRecord c pilot times flags) s = .next t ∧ t.rSample.head = s.rSample.head + 1 ∧ (streamOf (coreOf t c) pilot).marked = false
      ∧ rdBytes t.mem a 15 = leBytes 8 x.markPc.toNat ++ leBytes 4 x.markGid ++ leBytes 2 x.markLc.toNat
          ++ [BitVec.ofNat 8 (bitNat pilot + x.markFlags.toNat / 2 * 2)]
      ∧ rdBytes t.mem (a + 40) 8 = leBytes 8 x.markWall ∧ (∀ b, b < a ∨ a + 48 ≤ b → rdByte t.mem b = rdByte s.mem b) := by
  intro x hmarked hdone hflags hen hroom a
  obtain ⟨hwf, -, -⟩ := hmem
  let bs := sampleHead x pilot ++ (sampleTimes times ++ leBytes 8 x.markWall)
  have hlen : bs.length = 48 := by simp only [bs, List.length_append, sampleHead_length, sampleTimes_length, Laws.Length.leBytes_length]
  have hput : ringPut s.rSample s.mem 48 bs = ({ s.rSample with head := s.rSample.head + 1 }, wrBytes s.mem a bs, true) := if_pos ⟨hen, hroom⟩
  have hexec : exec (.sampleRecord c pilot times flags) s = .next (putSample s c pilot times) := by
    change execSampleRecord c pilot times flags s = _
    rw [execSampleRecord, if_neg (Nat.not_le.mpr hc), if_pos hflags]
  rw [putSample_due s c pilot times hmarked hdone] at hexec
  change exec _ _ = .next (updStream { s with rSample := (ringPut s.rSample s.mem 48 bs).1, mem := (ringPut s.rSample s.mem 48 bs).2.1 } c pilot unmarked) at hexec
  rw [hput] at hexec
  refine ⟨_, hexec, rfl, ?_, ?_, ?_, fun b hb => ?_⟩
  · rw [coreOf_updStream_same, streamOf_setStream_same]
    rfl
  · have hread := rdBytes_wrBytes_part s.mem a (bs := bs) (i := 0) (n := 15) (by omega)
    refine hread.trans ?_
    rw [List.drop_zero]
    exact List.take_left' (sampleHead_length x pilot)
  · have hread := rdBytes_wrBytes_part s.mem a (bs := bs) (i := 40) (n := 8) (by omega)
    refine hread.trans ?_
    have hdrop : bs.drop 40 = leBytes 8 x.markWall := by
      simp only [bs]
      rw [← List.append_assoc]
      exact List.drop_left' (by rw [List.length_append, sampleHead_length, sampleTimes_length])
    rw [hdrop]
    exact List.take_of_length_le (by rw [Laws.Length.leBytes_length])
  · exact rdByte_wrBytes_out hwf (by rw [hlen]; exact hb)

end

/- Telemetry (R423). -/

section

variable {s : State}

theorem amGet_map_key {α : Type} (d : α) (f : Nat → α) (l : List Nat) {n : Nat} (h : n ∈ l) : amGet d (l.map (fun i => (i, f i))) n = f n := by
  induction l with
  | nil => cases h
  | cons i l ih =>
    rw [List.map_cons, amGet]
    split
    · next hi => rw [hi]
    · next hi => exact ih ((List.mem_cons.mp h).resolve_left (fun he => hi he.symm))

/-- The temperatures that a refresh has read (R423). -/
def readTemps (temps : List (Nat × Int)) (s : State) : State :=
  (temps.filter (fun e => decide (e.1 < 128))).foldl (fun t e => updPower t (fun p => { p with temps := amSet p.temps e.1 e.2 })) s

theorem readTemps_eq (temps : List (Nat × Int)) (s : State) : ∃ l, readTemps temps s = updPower s (fun p => { p with temps := l }) := by
  refine List.foldlRecOn (motive := fun t : State => ∃ l, t = updPower s (fun p => { p with temps := l })) _ _ ⟨s.power.temps, rfl⟩ ?_
  rintro _ ⟨l, rfl⟩ e _
  exact ⟨_, rfl⟩

/-- TPAIR of a pair (R423). -/
def pairWord (k : Pair) : W64 :=
  BitVec.ofNat 64 (k.upMA % 2 ^ 16 + k.loMA % 2 ^ 16 * 2 ^ 16 + k.shuntMA % 2 ^ 16 * 2 ^ 32 + k.grant % 2 ^ 16 * 2 ^ 48)

theorem pairWord_low (k : Pair) : (pairWord k).setWidth 16 = BitVec.ofNat 16 k.upMA := by
  refine BitVec.eq_of_toNat_eq ?_
  rw [BitVec.toNat_setWidth, pairWord, BitVec.toNat_ofNat, BitVec.toNat_ofNat]
  omega

/-- The registers after a refresh (R423). -/
def refreshed (s : State) : State :=
  updPower s (fun p =>
    { p with tRail := BitVec.ofNat 16 p.railMV, tSet := BitVec.ofNat 16 (railFor (setpoint p)),
             tReq := BitVec.ofNat 64 (p.fwmax % 2 ^ 16 + p.budget % 2 ^ 16 * 2 ^ 16 + p.thermal % 2 ^ 16 * 2 ^ 32 + p.slack % 2 ^ 16 * 2 ^ 48),
             tPair := (List.range 64).map (fun i => (i, pairWord (pairOf s i))),
             tTemp := (List.range 128).map (fun n => (n, BitVec.ofInt 16 (tempOf s n))) })

/-- A refresh leaves the registers as it read them, whatever gauges sample the temperatures (R416, R423). -/
theorem exec_telemetryRefresh (temps : List (Nat × Int)) (s : State) : ∃ t : State, exec (.telemetryRefresh temps) s = .next t
    ∧ SameSupply (refreshed (readTemps temps s)) t := by
  have hsample : SameSupply (refreshed (readTemps temps s)) ((List.range 128).foldl (fun t n =>
      sampleTimed t 10 n 10000 (BitVec.ofInt 16 (tempOf (readTemps temps s) n)).toNat) (refreshed (readTemps temps s))) :=
    SameSupply.foldl (fun t n => sampleTimed_sameSupply t _ _ _ _) _ _
  have hexec : exec (.telemetryRefresh temps) s = .next (if temps.isEmpty then refreshed (readTemps temps s)
      else (List.range 128).foldl (fun t n => sampleTimed t 10 n 10000 (BitVec.ofInt 16 (tempOf (readTemps temps s) n)).toNat)
        (refreshed (readTemps temps s))) := rfl
  refine ⟨_, hexec, ?_⟩
  split
  · exact ⟨rfl, rfl, rfl⟩
  · exact hsample

theorem telemetryRefreshes (temps : List (Nat × Int)) (s : State) :
    ∃ t : State, exec (.telemetryRefresh temps) s = .next t ∧ t.power.tRail = BitVec.ofNat 16 s.power.railMV
      ∧ (∀ n, n < 128 → amGet 0 t.power.tTemp n = BitVec.ofInt 16 (tempOf t n))
      ∧ (∀ i, i < 64 → (amGet 0 t.power.tPair i).setWidth 16 = BitVec.ofNat 16 (pairOf s i).upMA) ∧ t.cores = s.cores := by
  obtain ⟨t, hexec, hcores, -, hpower⟩ := exec_telemetryRefresh temps s
  obtain ⟨l, htemps⟩ := readTemps_eq temps s
  refine ⟨t, hexec, ?_, fun n hn => ?_, fun i hi => ?_, ?_⟩
  · rw [hpower, htemps]
    rfl
  · rw [tempOf, hpower]
    exact amGet_map_key 0 (fun n => BitVec.ofInt 16 (tempOf (readTemps temps s) n)) _ (List.mem_range.mpr hn)
  · have hword := amGet_map_key 0 (fun i => pairWord (pairOf (readTemps temps s) i)) (List.range 64) (List.mem_range.mpr hi)
    have hpair : pairOf (readTemps temps s) i = pairOf s i := by rw [htemps]; rfl
    rw [hpower]
    refine (congrArg (BitVec.setWidth 16) hword).trans ?_
    rw [pairWord_low, hpair]
  · rw [hcores, htemps]
    rfl

/-- A temperature that is read is the cluster's (R423). -/
theorem telemetryReads (s : State) (n : Nat) (v : Int) (hn : n < 128) :
    ∃ t : State, exec (.telemetryRefresh [(n, v)]) s = .next t ∧ tempOf t n = v := by
  obtain ⟨t, hexec, -, -, hpower⟩ := exec_telemetryRefresh [(n, v)] s
  have hread : readTemps [(n, v)] s = updPower s (fun p => { p with temps := amSet p.temps n v }) := by
    simp [readTemps, hn]
  refine ⟨t, hexec, ?_⟩
  rw [tempOf, hpower, hread]
  exact amGet_amSet_same _ _ _ _

end

end Sys2Proof.Machine

section

open Sys2Proof.Machine Sys2Proof.Claims

/-- Settles O52: each step of measurement, one by one. -/
theorem measurements : Obligations.Measurements := by
  unfold Obligations.Measurements
  intro s
  exact ⟨deadlineFires s, ratioWindowCloses s, coreGaugeSamples s, deviceGaugeSamples s,
    fun c pilot hc hparam hact hsup => sampleMarks hc hparam hact hsup, fun c pilot times flags hc hmem => sampleRecords hc hmem,
    fun temps => telemetryRefreshes temps s, telemetryReads s⟩

end

/-! Streams that are held, and go on (R75, R81, R129). -/

namespace Sys2Proof.Machine

open Sys2Proof.Claims

/- The core of a stream that has gone on (R81, R83). -/

/-- The core of a stream that has gone on: it has VIEWV back, or has issued in this cyc (R81, R83). -/
def turned (v : BitVec 32) (w : Wait) (pilot : Bool) (k : Core) : Core :=
  if hasIssued w then { k with viewV := v } else { k with issued := k.issued ||| stepBit pilot }

/-- Of the core that issues nothing has changed but VIEWV and what has issued in this cyc. -/
structure SameRun (t t' : State) : Prop where
  regs : Regs t t' [] []
  queues : (curCore t').q = (curCore t).q
  pc : pcNow t' = pcNow t
  wait : waitNow t' = waitNow t

section

variable (v : BitVec 32) (w : Wait) (pilot : Bool)

theorem turned_frame (k : Core) : regBank (turned v w pilot k) = regBank k ∧ (turned v w pilot k).stepping = k.stepping
    ∧ (turned v w pilot k).q = k.q ∧ (∀ p, streamOf (turned v w pilot k) p = streamOf k p) ∧ (turned v w pilot k).supPc = k.supPc
    ∧ (turned v w pilot k).supWait = k.supWait := by
  unfold turned
  split <;> exact ⟨rfl, rfl, rfl, fun p => by cases p <;> rfl, rfl, rfl⟩

theorem sameRun_turned (t : State) : SameRun t (updCurCore t (turned v w pilot)) := by
  obtain ⟨hbank, hstep, hq, hstreams, hpc, hwait⟩ := turned_frame v w pilot (curCore t)
  have hregs : Regs t (updCurCore t (turned v w pilot)) [] [] := Regs.of_core hbank hstep
  have hstream : curStream (updCurCore t (turned v w pilot)) = curStream t := by rw [curStream_updCurCore, hstreams]; rfl
  refine ⟨hregs, by rw [curCore_updCurCore, hq], ?_, ?_⟩
  · rw [pcNow, pcNow, hregs.sup, hstream, curCore_updCurCore, hpc]
  · rw [waitNow, waitNow, hregs.sup, hstream, curCore_updCurCore, hwait]

/-- A stream whose word has issued before has its core as the word leaves it. -/
theorem curCore_turned {t : State} (hw : hasIssued w = true) (hv : (curCore t).viewV = v) : curCore (updCurCore t (turned v w pilot)) = curCore t := by
  rw [curCore_updCurCore, turned, if_pos hw, ← hv]

end

section

variable {s t t' : State} (h : SameRun t t')

include h

theorem SameRun.result {d : Operand} {x : W64} (hsup : supNow t = supNow s) (hr : Result s t d x) : Result s t' d x :=
  result_kept hsup h.regs.scalars h.queues hr

theorem SameRun.goesOnAt {o : Ops} (hg : GoesOnAt s t o) : GoesOnAt s t' o := ⟨h.pc.trans hg.1, h.wait.trans hg.2⟩

theorem SameRun.predResult {n : BitVec 3} {x : Bool} (hp : PredResult s t (.k n) x) : PredResult s t' (.k n) x := Regs.predResult hp h.regs

theorem SameRun.frame (hcore : curCore t' = curCore t) (hf : Frame s t) : Frame s t' := by
  obtain ⟨hunits, hrest, hstream, hother, hregion⟩ := hf
  have hcur := otherUnits_cur h.regs.units
  have hsame : curStream t' = curStream t := by rw [curStream, curStream, hcore, hcur]
  exact ⟨otherUnits_trans hunits h.regs.units, by rw [hcore, hrest], by rw [hsame, hstream], by rw [hcore, hother], by rw [hcore]; exact hregion⟩

end

/- A stream that is held (R75, R129). -/

section

variable {s : State} {c : Nat} {pilot : Bool} {w : Wait}

theorem waitNow_asStream (hw : waitAt s c pilot = some w) : waitNow (asStream s c pilot) = some w
    ∧ ((coreOf s c).sup = true → pilot = false) := by
  unfold waitAt at hw
  dsimp only at hw
  split at hw
  · cases hw
  · next hrun =>
    simp only [Bool.or_eq_true, Bool.and_eq_true, not_or, not_and, Bool.not_eq_true] at hrun
    obtain ⟨-, hpilot⟩ := hrun
    refine ⟨?_, hpilot⟩
    have hsup : supNow (asStream s c pilot) = (coreOf s c).sup := by
      change (!pilot && (coreOf s c).sup) = (coreOf s c).sup
      cases hs : (coreOf s c).sup with
      | false => exact Bool.and_false _
      | true => rw [hpilot hs]; rfl
    rw [waitNow, hsup]
    exact hw

/-- A stream that waits no more is not held. -/
theorem not_held_of_waitNow {t : State} (hcur : t.cur = (c, pilot)) (hsup : (coreOf t c).sup = true → pilot = false) (h : waitNow t = none) :
    heldNow t c pilot = false ∧ waitAt t c pilot = none := by
  have hnow : (if (coreOf t c).sup then (coreOf t c).supWait else (streamOf (coreOf t c) pilot).wait) = none := by
    have hsupNow : supNow t = (coreOf t c).sup := by
      rw [supNow, curCore, hcur]
      cases hs : (coreOf t c).sup with
      | false => simp
      | true => simp [hsup hs]
    rw [waitNow, hsupNow, curStream, curCore, hcur] at h
    exact h
  refine ⟨?_, ?_⟩
  · unfold heldNow
    dsimp only
    split at hnow
    · next hs => rw [if_pos hs, hnow]; rfl
    · next hs => rw [if_neg hs, hnow]; rfl
  · unfold waitAt
    dsimp only
    split
    · rfl
    · exact hnow

/-- A stream that may go on runs its word again: with the view that it issued with, or as it issues now (R81, R83). -/
theorem rerun_runs (ph : Phase) (hmay : MayGoOn s c pilot w) : rerun s c pilot ph w
    = if hasIssued w then updCore (runHeld s c pilot ph w) c (fun k => { k with viewV := (coreOf s c).viewV })
      else if heldNow (runHeld s c pilot ph w) c pilot then runHeld s c pilot ph w else setIssued (runHeld s c pilot ph w) c pilot := by
  obtain ⟨-, habort, hview, hissued, -⟩ := hmay
  have hnone : (if pilot || (coreOf s c).sup then none else (coreOf s c).region.bind (fun r => r.aborting.map (fun a => (r, a)))) = none := by
    cases hp : pilot with
    | true => rfl
    | false =>
      cases hs : (coreOf s c).sup with
      | true => rfl
      | false =>
        cases hr : (coreOf s c).region with
        | none => rfl
        | some r => simp [habort hp hs r hr]
  unfold rerun
  dsimp only
  rw [hnone]
  dsimp only
  by_cases hi : hasIssued w = true
  · rw [if_pos hi, if_pos hi, onOldView, if_pos hi, hview hi]
  · rw [Bool.not_eq_true] at hi
    have hturn : ¬((pilot && (coreOf s c).issued.getLsbD 0 && turnKind w.instr == 0) = true) := by
      cases hp : pilot with
      | false => simp
      | true => rw [hissued hi hp]; simp
    rw [hi, if_neg Bool.false_ne_true, if_neg hturn, if_neg Bool.false_ne_true]

/-- A move of a held stream that may go on runs it again, where that does not end in a trap of the pilot (R131, R384). -/
theorem goMove_reruns {ph : Phase} {kind : Wait → Bool} (hw : waitAt s c pilot = some w) (hmay : MayGoOn s c pilot w) (hkind : kind w = true)
    (hno : hasTrapped s (rerun s c pilot ph w) c true = false) : goMove s c pilot ph kind = rerun s c pilot ph w := by
  obtain ⟨hevent, -, -, -, hturn⟩ := hmay
  have hboundary : ¬((eventDue s c).isSome = true ∧ pilot = eventStream s c) := by
    rintro ⟨hdue, hstream⟩
    rcases hevent with hnone | hne
    · rw [hnone] at hdue
      cases hdue
    · exact hne hstream
  have hyield : ∀ own, yieldTrap s (rerun s c pilot ph w) c own = rerun s c pilot ph w := fun own => by
    rw [yieldTrap, hno, if_neg Bool.false_ne_true]
  have hagain : goAgain s c pilot ph kind = rerun s c pilot ph w := by
    rw [goAgain, hw]
    dsimp only
    rw [if_pos hkind, if_neg hboundary]
    cases hp : pilot with
    | false => rfl
    | true =>
      rw [if_pos rfl]
      rw [hp] at hyield
      exact hyield _
  have hstays : ¬((kind w && pilot && leavesTurn s c w.instr) = true) := by
    cases hp : pilot with
    | false => simp
    | true => simp [hturn hp]
  rw [goMove, hw]
  dsimp only
  rw [if_neg hstays]
  cases hp : pilot with
  | false =>
    rw [if_neg Bool.false_ne_true]
    rw [hp] at hagain
    exact hagain
  | true =>
    rw [if_pos rfl]
    rw [hp] at hagain hyield
    rw [hagain]
    exact hyield _

/-- The state after a stream's turn: which stream issues is as it was in the state before it. -/
def backTo (s t : State) : State := { t with cur := s.cur }

/-- A held stream whose word is done, after changes of registers and queues, goes on behind it. -/
theorem goMove_done {ph : Phase} {kind : Wait → Bool} {m : Meaning} {v : State} {npc : Option W64} {l : List (BitVec 6)} {p : List (BitVec 3)}
    (hw : waitAt s c pilot = some w) (hmay : MayGoOn s c pilot w) (hkind : kind w = true) (hm : meaningOf w.instr = some m)
    (hissues : issues w.instr (asStream s c pilot) = true) (hbody : m.body ph (asStream s c pilot) = .fin v npc)
    (hv : Changes (asStream s c pilot) v l p) :
    let u := asStream s c pilot
    let t := runBody w.instr m.o m.dRead u (.fin v npc)
    let t' := updCurCore t (turned (coreOf s c).viewV w pilot)
    goMove s c pilot ph kind = backTo s t' ∧ PassesOn v t ∧ pcNow t = npc.getD (following u m.o) ∧ waitNow t = none
      ∧ Changes u t l p ∧ SameRun t t' ∧ (hasIssued w = true → curCore t' = curCore t)
      ∧ (hasIssued w = false → backTo s t' = setIssued (backTo s t) c pilot) := by
  intro u t t'
  obtain ⟨-, -, -, hengine, hcommit, hstep⟩ := (issues_iff hm).mp hissues
  obtain ⟨-, hpilot⟩ := waitNow_asStream hw
  obtain ⟨hpass, hpc, hwait, -⟩ := runBody_fin_passes w.instr m.o m.dRead u npc (hv.unstepped.trans hstep)
  have hall : Changes u t l p := hpass.after hv
  obtain ⟨-, hcore, -, -, hcur, -⟩ := hall.frame
  have hcurT : t.cur = (c, pilot) := hcur
  have hcoreT : curCore t = coreOf t c := by rw [curCore, hcurT]
  have hsup : (coreOf t c).sup = (coreOf s c).sup := by
    have := congrArg Core.sup hcore
    rw [hcoreT] at this
    exact this
  have hview : (curCore t).viewV = (coreOf s c).viewV := by
    have := congrArg Core.viewV hcore
    exact this
  have hheld : heldNow t c pilot = false := (not_held_of_waitNow hcurT (fun hs => hpilot (hsup.symm.trans hs)) hwait).1
  have hrun : runHeld s c pilot ph w = backTo s t := by
    have hnow : bodyNow w.instr m.o m.body ph u = .fin v npc := by
      rw [bodyNow, hcommit, hengine, if_neg Bool.false_ne_true, if_neg Bool.false_ne_true, hbody]
    rw [runHeld, hm]
    exact congrArg (fun b => backTo s (runBody w.instr m.o m.dRead u b)) hnow
  have hissue : hasIssued w = false → backTo s t' = setIssued (backTo s t) c pilot := fun hi => by
    have hturned : turned (coreOf s c).viewV w pilot = fun k => { k with issued := k.issued ||| stepBit pilot } := by
      funext k
      rw [turned, hi, if_neg Bool.false_ne_true]
    simp only [t', hturned, updCurCore, hcurT]
    rfl
  have hrerun : rerun s c pilot ph w = backTo s t' := by
    have hstill : heldNow (backTo s t) c pilot = false := hheld
    rw [rerun_runs ph hmay, hrun, hstill]
    by_cases hi : hasIssued w = true
    · have hturned : turned (coreOf s c).viewV w pilot = fun k => { k with viewV := (coreOf s c).viewV } := by
        funext k
        rw [turned, if_pos hi]
      rw [if_pos hi]
      simp only [t', hturned, updCurCore, hcurT]
      rfl
    · rw [Bool.not_eq_true] at hi
      rw [hi, if_neg Bool.false_ne_true, if_neg Bool.false_ne_true]
      exact (hissue hi).symm
  have hsame := sameRun_turned (coreOf s c).viewV w pilot t
  have hno : hasTrapped s (rerun s c pilot ph w) c true = false := by
    have hsup' : (coreOf t' c).sup = (coreOf s c).sup := by
      have hbank := congrArg Prod.fst (turned_frame (coreOf s c).viewV w pilot (curCore t)).1
      have hcur' : t'.cur = (c, pilot) := hcurT
      have hcore' : coreOf t' c = turned (coreOf s c).viewV w pilot (curCore t) := by
        have hnow := curCore_updCurCore t (turned (coreOf s c).viewV w pilot)
        rwa [curCore, hcur'] at hnow
      rw [hcore']
      exact hbank.trans (by rw [hcoreT]; exact hsup)
    rw [hrerun]
    change (!(coreOf s c).sup && (coreOf t' c).sup && _) = false
    rw [hsup']
    cases (coreOf s c).sup <;> rfl
  exact ⟨(goMove_reruns hw hmay hkind hno).trans hrerun, hpass, hpc, hwait, hall, hsame, fun hi => curCore_turned _ w pilot hi hview, hissue⟩

end

end Sys2Proof.Machine

/-! Counts that have passed, two-source words that issue late, and REALIGN (R75, R137, R144, R150). -/

namespace Sys2Proof.Machine

open Sys2Proof.Claims

section

variable {s : State} {c : Nat} {pilot : Bool} {w : Wait}

/-- A held stream whose word is done goes on at the next instruction, with the registers that the word wrote. -/
theorem heldWord_done {ph : Phase} {kind : Wait → Bool} {m : Meaning} {o : Ops} {v : State} {l : List (BitVec 6)}
    {p : List (BitVec 3)} (hw : waitAt s c pilot = some w) (hmay : MayGoOn s c pilot w) (hkind : kind w = true) (hm : meaningOf w.instr = some m)
    (ho : m.o = o) (hissues : issues w.instr (asStream s c pilot) = true) (hbody : m.body ph (asStream s c pilot) = .fin v none)
    (hv : Changes (asStream s c pilot) v l p) (hunits : CoresOnly (asStream s c pilot) v) (hissued : hasIssued w = true) :
    let u := asStream s c pilot
    ∃ t : State, goMove s c pilot ph kind = backTo s t ∧ ScalarsBut u t l ∧ PredsBut u t p ∧ GoesOnAt u t o ∧ Frame u t := by
  intro u
  subst ho
  obtain ⟨hmove, hpass, hpc, hwait, hall, hsame, hcore, -⟩ := goMove_done hw hmay hkind hm hissues hbody hv
  have hs := scalarsBut_trans (coreFrame_supNow hall.frame) hall.scalars hsame.regs.scalars
  have hk := predsBut_trans hall.preds hsame.regs.preds
  rw [List.append_nil] at hs hk
  exact ⟨_, hmove, hs, hk, hsame.goesOnAt ⟨hpc, hwait⟩,
    hsame.frame (hcore hissued) (frame_of_coreFrame hall.frame (hunits.trans hpass.coresOnly))⟩

/- Counts that have passed (R144). -/

/-- The start of a count of a held stream (R129, R144). -/
theorem waitStart_held (hw : waitAt s c pilot = some w) (hwhy : w.why = .count) : waitStart (asStream s c pilot) = (w.c0, w.w0) := by
  rw [waitStart, (waitNow_asStream hw).1]
  simp [hwhy, countsTime]

theorem countPassed (hw : waitAt s c pilot = some w) (hmay : MayGoOn s c pilot w) (hready : ready w.instr (asStream s c pilot) = true) {o : Ops}
    (hcount : (w.instr = .waitc o ∧ (readSrc o.a (asStream s c pilot)).1.toNat ≤ cycOf s c - w.c0)
      ∨ (w.instr = .waitw o ∧ (readSrc o.a (asStream s c pilot)).1.toNat ≤ edgeOf s c - w.w0)) (hwhy : w.why = .count) :
    let u := asStream s c pilot
    ∃ t : State, goMove s c pilot .resume countWait = backTo s t ∧ ScalarsBut u t [] ∧ PredsBut u t [] ∧ GoesOnAt u t o ∧ Frame u t := by
  intro u
  have hstart := waitStart_held hw hwhy
  have hissued : hasIssued w = true := by rw [hasIssued, hwhy]
  have hread := changes_readSrc u o.a
  have honly := coresOnly_readSrc u o.a
  rcases hcount with ⟨hi, hn⟩ | ⟨hi, hn⟩
  · have hm : meaningOf w.instr = some { o := o, perm := .both, dRead := false, body := waitcBody o } := by rw [hi]; rfl
    obtain ⟨hissues, hqueue⟩ := (ready_iff hm).mp hready
    have hkind : countWait w = true := by simp [countWait, hi, hwhy]
    have hentry : queueWait o false u = none := hqueue
    have hbody : waitcBody o .resume u = .fin (readSrc o.a u).2 none := by
      have hpassed : (readSrc o.a u).1.toNat ≤ cycOf u u.cur.1 - (waitStart u).1 := by rw [hstart]; exact hn
      simp only [waitcBody, onReady, hentry, if_pos hpassed]
    exact heldWord_done hw hmay hkind hm rfl hissues hbody hread honly hissued
  · have hm : meaningOf w.instr = some { o := o, perm := .both, dRead := false, body := waitwBody o } := by rw [hi]; rfl
    obtain ⟨hissues, hqueue⟩ := (ready_iff hm).mp hready
    have hkind : countWait w = true := by simp [countWait, hi, hwhy]
    have hentry : queueWait o false u = none := hqueue
    have hbody : waitwBody o .resume u = .fin (readSrc o.a u).2 none := by
      have hpassed : (readSrc o.a u).1.toNat ≤ edgeOf u u.cur.1 - (waitStart u).2 := by rw [hstart]; exact hn
      simp only [waitwBody, onReady, hentry, if_pos hpassed]
    exact heldWord_done hw hmay hkind hm rfl hissues hbody hread honly hissued

end

/- Two-source words (R150, R323). -/

section

variable {s : State}

theorem changes_writeDst (s : State) (op : Operand) (v : W64) : Changes s (writeDst op v s) (scalarIn op) [] ∧ CoresOnly s (writeDst op v s) := by
  obtain ⟨-, hchanges, honly⟩ := writeDst_result op v (Changes.refl s) rfl (fun _ _ => rfl)
  exact ⟨hchanges, honly⟩

/-- A tag that a register takes changes the region alone (R323). -/
theorem passesOn_setTag (s : State) (op : Operand) (tag : Nat × W64) : PassesOn s (setTag s op tag) := by
  cases op with
  | s n => exact (CoreBecomes.updCurCore s _).passesOn (fun hr => by rw [hr]; rfl)
  | _ => exact (MovesOn.refl s).passesOn

theorem passesOn_keepTag (tag : Option (Nat × W64)) (o : Ops) (s0 s : State) : PassesOn s (keepTag tag o s0 s) := by
  unfold keepTag
  split
  · exact passesOn_setTag s _ _
  · exact (MovesOn.refl s).passesOn
  · exact (passesOn_pinOp s s0 o.a).trans (passesOn_pinOp _ s0 o.b)

/-- A word that computes a result of its two operands, in any phase, and may keep a tag (R150, R323). -/
def ComputesTwo (o : Ops) (zx wd : Bool) (i : Instr) : Prop :=
  ∃ m : Meaning, meaningOf i = some m ∧ m.o = o ∧ m.dRead = false
    ∧ ((∃ g, ∀ ph s, m.body ph s = aluTwo zx wd g o s)
      ∨ ∃ g, ∃ tag : State → Option (Nat × W64), ∀ ph s, m.body ph s = (aluTwo zx wd g o s).andThen (keepTag (tag s) o s))

theorem computesTwo_of_body {i : Instr} {o : Ops} {perm : Perm} {zx wd : Bool} {g : Nat → Nat → Nat → Int}
    (hm : meaningOf i = some { o := o, perm := perm, dRead := false, body := fun _ s => aluTwo zx wd g o s }) : ComputesTwo o zx wd i :=
  ⟨_, hm, rfl, rfl, .inl ⟨g, fun _ _ => rfl⟩⟩

/-- Nothing is a member of no option. -/
theorem of_mem_none {α : Type} {p : α → Prop} : ∀ r ∈ (none : Option α), p r := fun r h => absurd h (Option.not_mem_none r)

theorem of_mem_some {α : Type} {p : α → Prop} {x : α} (h : p x) : ∀ r ∈ some x, p r := fun _ hr => Option.mem_some_iff.mp hr ▸ h

theorem computesTwo_of_twoSource {i : Instr} : ∀ r ∈ twoSource i, ComputesTwo r.1 r.2.1 r.2.2.1 i := by
  rcases i
  case add o m => exact of_mem_some ⟨_, rfl, rfl, rfl, .inr ⟨addR m, sumTag false m o, fun _ _ => rfl⟩⟩
  case sub o m => exact of_mem_some ⟨_, rfl, rfl, rfl, .inr ⟨subR m, sumTag true m o, fun _ _ => rfl⟩⟩
  case mul | mulh | div | rem | and | or | xor | andn | shl | shr | sar | rot | min | max | bfi | lea =>
    exact of_mem_some (computesTwo_of_body rfl)
  all_goals exact of_mem_none

/-- A two-source word that is ready is done in any phase, with its destination written (R150). -/
theorem twoSource_done {i : Instr} {o : Ops} {zx wd : Bool} {f : W64 → W64 → W64} (h : twoSource i = some (o, zx, wd, f)) (hready : ready i s = true) :
    ∃ (m : Meaning) (v : State), meaningOf i = some m ∧ m.o = o ∧ (∀ ph, m.body ph s = .fin v none) ∧ Changes s v (scalarIn o.d) []
      ∧ CoresOnly s v := by
  obtain ⟨m, hm, rfl, hd, hbody⟩ := computesTwo_of_twoSource _ h
  obtain ⟨-, hqueue⟩ := (ready_iff hm).mp hready
  rw [hd] at hqueue
  let a := readSrcW m.o.a zx wd s
  let b := readSrcW m.o.b zx wd a.2
  let r (g : Nat → Nat → Nat → Int) := aluOut (aluWidth wd) (g (aluWidth wd) (a.1.toNat % 2 ^ aluWidth wd) (b.1.toNat % 2 ^ aluWidth wd))
  have halu : ∀ g, aluTwo zx wd g m.o s = .fin (writeDst m.o.d (r g) b.2) none := fun g => by
    simp only [aluTwo, onReady, hqueue]
    rfl
  have hread := (changes_readSrcW s m.o.a zx wd).trans (changes_readSrcW a.2 m.o.b zx wd)
  have hreadOnly := (coresOnly_readSrcW s m.o.a zx wd).trans (coresOnly_readSrcW a.2 m.o.b zx wd)
  rcases hbody with ⟨g, hbody⟩ | ⟨g, tag, hbody⟩
  · obtain ⟨hwrite, honly⟩ := changes_writeDst b.2 m.o.d (r g)
    exact ⟨m, _, hm, rfl, fun ph => (hbody ph s).trans (halu g), hread.trans hwrite, hreadOnly.trans honly⟩
  · obtain ⟨hwrite, honly⟩ := changes_writeDst b.2 m.o.d (r g)
    have hkeep := passesOn_keepTag (tag s) m.o s (writeDst m.o.d (r g) b.2)
    refine ⟨m, _, hm, rfl, fun ph => (hbody ph s).trans ?_, hkeep.after (hread.trans hwrite), (hreadOnly.trans honly).trans hkeep.coresOnly⟩
    rw [halu]
    rfl

/-- A two-source word that waited to issue goes on as it would issue now (R75). -/
theorem twoSource_goesOn {c : Nat} {pilot : Bool} {w : Wait} {o : Ops} {zx wd : Bool} {f : W64 → W64 → W64}
    (hw : waitAt s c pilot = some w) (hmay : MayGoOn s c pilot w) (hready : ready w.instr (asStream s c pilot) = true)
    (htwo : twoSource w.instr = some (o, zx, wd, f)) (hwhy : byCondition w = true) (hissued : hasIssued w = false) :
    let u := asStream s c pilot
    ∃ t : State, exec w.instr u = .next t ∧ goMove s c pilot .resume byCondition = setIssued (backTo s t) c pilot
      ∧ GoesOnAt u t o ∧ Frame u t := by
  intro u
  obtain ⟨m, v, hm, rfl, hbody, hv, hunits⟩ := twoSource_done htwo hready
  obtain ⟨hissues, -⟩ := (ready_iff hm).mp hready
  obtain ⟨hexec, -⟩ := exec_issues hm hissues
  obtain ⟨hmove, hpass, hpc, hwait, hall, -, -, hturn⟩ := goMove_done hw hmay hwhy hm hissues (hbody .resume) hv
  exact ⟨_, hexec.trans (by rw [hbody .issue]), hmove.trans (hturn hissued), ⟨hpc, hwait⟩,
    frame_of_coreFrame hall.frame (hunits.trans hpass.coresOnly)⟩

end

/- REALIGN (R137). -/

section

variable {s : State} {c : Nat} {pilot : Bool} {w : Wait} {o : Ops}

/-- REALIGN goes on at a stream that can read its operand: past it, with no register changed (R137). -/
theorem releaseOne_releases (hw : waitAt s c pilot = some w) (hi : w.instr = .realign o) (hqueue : queueWait o false (asStream s c pilot) = none)
    (hstep : unstepped (asStream s c pilot) = true) :
    let u := asStream s c pilot
    ∃ t : State, releaseOne pilot s c = backTo s t ∧ ScalarsBut u t [] ∧ PredsBut u t [] ∧ GoesOnAt u t o ∧ Frame u t
      ∧ t.cur = (c, pilot) ∧ (coreOf t c).sup = (coreOf s c).sup := by
  intro u
  have hbody : onReady o false u (realignDone o u) = .fin (readSrc o.a u).2 none := by rw [onReady, hqueue]; rfl
  have hread := changes_readSrc u o.a
  obtain ⟨hpass, hpc, hwait, hs, hk, hframe⟩ := runBody_fin_changes (i := w.instr) (o := o) (d := false) none hstep hread (coresOnly_readSrc u o.a)
  have hrelease : releaseOne pilot s c = backTo s (runBody w.instr o false u (.fin (readSrc o.a u).2 none)) := by
    rw [releaseOne, hw]
    dsimp only
    rw [hi]
    dsimp only
    exact congrArg (fun b => backTo s (runBody (.realign o) o false u b)) hbody
  have hcur : (runBody w.instr o false u (.fin (readSrc o.a u).2 none)).cur = (c, pilot) := otherUnits_cur hframe.1
  have hsup := congrArg Core.sup hframe.2.1
  rw [curCore, hcur] at hsup
  exact ⟨_, hrelease, hs, hk, ⟨hpc, hwait⟩, hframe, hcur, hsup⟩

/-- What a stream waits for under R75 is seen in its own core and the posted stores. -/
theorem queueWait_congr {t : State} (hcore : curCore t = curCore s) (hcur : t.cur = s.cur) (hposted : t.posted = s.posted) (o : Ops) (d : Bool) :
    queueWait o d t = queueWait o d s := by
  have hfull : ∀ n, qFull t n = qFull s n := fun n => by rw [qFull, qFull, hcore]
  have hstores : pusherStores t = pusherStores s := by rw [pusherStores, pusherStores, hposted, hcur]
  unfold queueWait
  rw [hcore, hstores]
  simp only [hfull]

theorem unstepped_congr {t : State} (hcore : curCore t = curCore s) (hcur : t.cur = s.cur) : unstepped t = unstepped s := by
  simp only [unstepped, supNow, hcore, hcur]

/-- A stream released from REALIGN waits no more, and every other core is as it was (R137). -/
theorem releaseOne_frees (hw : waitAt s c pilot = some w) (hi : w.instr = .realign o) (hqueue : queueWait o false (asStream s c pilot) = none)
    (hstep : unstepped (asStream s c pilot) = true) :
    waitAt (releaseOne pilot s c) c pilot = none ∧ (∀ e, e ≠ c → coreOf (releaseOne pilot s c) e = coreOf s e)
      ∧ CoresOnly s (releaseOne pilot s c) := by
  obtain ⟨t, hrelease, -, -, ⟨-, hwait⟩, ⟨⟨hunits, hcores⟩, -⟩, hcur, hsup⟩ := releaseOne_releases hw hi hqueue hstep
  obtain ⟨-, hpilot⟩ := waitNow_asStream hw
  have hfree := (not_held_of_waitNow hcur (fun hs => hpilot (hsup.symm.trans hs)) hwait).2
  have honly : CoresOnly s (backTo s t) := by
    have hback := congrArg (backTo s) hunits
    exact hback
  rw [hrelease]
  exact ⟨hfree, hcores, honly⟩

theorem waitAt_congr {t : State} (hcore : coreOf t c = coreOf s c) (hpairs : t.pairs = s.pairs) : waitAt t c pilot = waitAt s c pilot := by
  have hgear : geared t c = geared s c := by rw [geared, geared, pairOf, pairOf, hpairs]
  rw [waitAt, waitAt, hcore, hgear]

/-- Two streams that are held at the same REALIGN are released together (R137). -/
theorem realigned {d : Nat} {x : Wait} {p : Ops} (hw : waitAt s c pilot = some w) (hi : w.instr = .realign o)
    (hready : ready w.instr (asStream s c pilot) = true) (hwhy : w.why = .count) (hdue : realignDue (asStream s c pilot) o = false)
    (hpeers : realignPeers s c pilot = [d]) (hx : waitAt s d pilot = some x) (hxi : x.instr = .realign p)
    (hheld : heldAtRealign s d pilot (pcNow (asStream s c pilot)) = true) (hxready : ready (.realign p) (asStream s d pilot) = true) :
    ∃ t : State, releaseRealign c pilot s = t ∧ waitAt t c pilot = none ∧ waitAt t d pilot = none
      ∧ (∀ e, e ≠ c → e ≠ d → coreOf t e = coreOf s e) ∧ { t with cores := s.cores } = s := by
  rw [hi] at hready
  obtain ⟨hissues, hqueue⟩ := (ready_iff rfl).mp hready
  obtain ⟨-, -, -, -, -, hstep⟩ := (issues_iff rfl).mp hissues
  obtain ⟨hxissues, hxqueue⟩ := (ready_iff rfl).mp hxready
  obtain ⟨-, -, -, -, -, hxstep⟩ := (issues_iff rfl).mp hxissues
  have hne : d ≠ c := by
    have hd : d ∈ realignPeers s c pilot := by rw [hpeers]; exact List.mem_singleton.mpr rfl
    simp only [realignPeers, List.mem_filter, Bool.and_eq_true, decide_eq_true_eq] at hd
    exact hd.2.1.1.1
  let t1 := releaseOne pilot s c
  obtain ⟨hfree1, hcores1, hunits1⟩ := releaseOne_frees hw hi hqueue hstep
  have hcore1 : coreOf t1 d = coreOf s d := hcores1 d hne
  have hpairs1 : t1.pairs = s.pairs := hunits1.field State.pairs (fun _ _ => rfl)
  have hposted1 : t1.posted = s.posted := hunits1.field State.posted (fun _ _ => rfl)
  have hx1 : waitAt t1 d pilot = some x := (waitAt_congr hcore1 hpairs1).trans hx
  obtain ⟨hfree2, hcores2, hunits2⟩ := releaseOne_frees hx1 hxi
    ((queueWait_congr (s := asStream s d pilot) (t := asStream t1 d pilot) hcore1 rfl hposted1 p false).trans hxqueue)
    ((unstepped_congr (s := asStream s d pilot) (t := asStream t1 d pilot) hcore1 rfl).trans hxstep)
  have hpairs2 : (releaseOne pilot t1 d).pairs = t1.pairs := hunits2.field State.pairs (fun _ _ => rfl)
  have hrelease : releaseRealign c pilot s = releaseOne pilot t1 d := by
    have hall : [d].all (fun e => heldAtRealign s e pilot (pcNow (asStream s c pilot))) = true := by
      rw [List.all_cons, List.all_nil, Bool.and_true]
      exact hheld
    have hcount : ¬(decide (w.why = .count) = false) := by simp [hwhy]
    rw [releaseRealign, hw]
    dsimp only
    rw [hi]
    dsimp only
    rw [if_neg hcount, if_neg (by rw [Bool.not_eq_true]; exact hdue), hpeers]
    exact if_pos hall
  refine ⟨_, rfl, ?_, ?_, fun e hc hd => ?_, ?_⟩ <;> rw [hrelease]
  · exact (waitAt_congr (hcores2 c (Ne.symm hne)) hpairs2).trans hfree1
  · exact hfree2
  · exact (hcores2 e hd).trans (hcores1 e hc)
  · exact hunits1.trans hunits2

/-- A stream whose count at REALIGN has passed is released alone (R137). -/
theorem realignPassed (hw : waitAt s c pilot = some w) (hi : w.instr = .realign o) (hready : ready w.instr (asStream s c pilot) = true)
    (hwhy : w.why = .count) (hdue : realignDue (asStream s c pilot) o = true) :
    let u := asStream s c pilot
    ∃ t : State, releaseRealign c pilot s = backTo s t ∧ ScalarsBut u t [] ∧ PredsBut u t [] ∧ GoesOnAt u t o ∧ Frame u t := by
  intro u
  rw [hi] at hready
  obtain ⟨hissues, hqueue⟩ := (ready_iff rfl).mp hready
  obtain ⟨-, -, -, -, -, hstep⟩ := (issues_iff rfl).mp hissues
  obtain ⟨t, hrelease, hs, hk, hgoes, hframe, -⟩ := releaseOne_releases hw hi hqueue hstep
  have hcount : ¬(decide (w.why = .count) = false) := by simp [hwhy]
  have hone : releaseRealign c pilot s = releaseOne pilot s c := by
    rw [releaseRealign, hw]
    dsimp only
    rw [hi]
    dsimp only
    exact (if_neg hcount).trans (if_pos hdue)
  exact ⟨t, hone.trans hrelease, hs, hk, hgoes, hframe⟩

end

end Sys2Proof.Machine

/-! Scalar loads that are held (R129, R186). -/

namespace Sys2Proof.Machine

open Sys2Proof.Claims

/- Scalar loads (R181, R185, R186). -/

section

variable {i : Instr} {o : Ops} {m : MemMod} {spc : Space}

/-- One of the four scalar loads, with its operands, MOD and space (R181). -/
def LoadsScalar (r : Ops × MemMod × Space) (i : Instr) : Prop :=
  (i = .lds r.1 r.2.1 ∧ r.2.2 = .sp) ∨ (i = .ldv r.1 r.2.1 ∧ r.2.2 = .vlt) ∨ (i = .ldg r.1 r.2.1 ∧ r.2.2 = .glb)
    ∨ (i = .ldx r.1 r.2.1 ∧ r.2.2 = .sp)

theorem loadsScalar_of_scalarLoad : ∀ r ∈ scalarLoad i, LoadsScalar r i := by
  rcases i
  case lds => exact of_mem_some <| .inl ⟨rfl, rfl⟩
  case ldv => exact of_mem_some <| .inr (.inl ⟨rfl, rfl⟩)
  case ldg => exact of_mem_some <| .inr (.inr (.inl ⟨rfl, rfl⟩))
  case ldx => exact of_mem_some <| .inr (.inr (.inr ⟨rfl, rfl⟩))
  all_goals exact of_mem_none

/-- Each scalar load runs the one body of R186, and is a load. -/
theorem scalarLoad_body (h : scalarLoad i = some (o, m, spc)) : ∃ mm : Meaning, meaningOf i = some mm ∧ mm.o = o ∧ mm.dRead = false
    ∧ mm.body = loadBody o m spc (sizeBytes m.size) (sizeBytes m.size) false false ∧ isLoad i = true := by
  obtain ⟨rfl, rfl⟩ | ⟨rfl, rfl⟩ | ⟨rfl, rfl⟩ | ⟨rfl, rfl⟩ := loadsScalar_of_scalarLoad _ h <;> exact ⟨_, rfl, rfl, rfl, rfl, rfl⟩

/-- A register or queue for a result, and a source, name no vector register (R74). -/
theorem admits_scalar {x : Operand} (h : admits .sd x = true ∨ admits .ss x = true) (n : BitVec 8) : x ≠ .v n := by
  rintro rfl
  rcases h with h | h <;> exact absurd h Bool.false_ne_true

/-- A scalar load has no vector operand (R74). -/
theorem scalarLoad_operands (hwf : i.wf = true) (h : scalarLoad i = some (o, m, spc)) : (∀ n, o.d ≠ .v n) ∧ ∀ n, o.b ≠ .v n := by
  have hparts : ∃ c v, partsOf i = some (c, o, v) ∧ (slotCls c v).1 = .sd ∧ (slotCls c v).2.2 = .ss := by
    obtain ⟨rfl, rfl⟩ | ⟨rfl, rfl⟩ | ⟨rfl, rfl⟩ | ⟨rfl, rfl⟩ := loadsScalar_of_scalarLoad _ h <;> exact ⟨_, _, rfl, rfl, rfl⟩
  obtain ⟨c, v, hparts, hd, hb⟩ := hparts
  obtain rfl | ⟨c', o', v', hparts', hops, -⟩ | ⟨-, hnone⟩ := Laws.Coding.wf_cases hwf
  · cases h
  · rw [hparts] at hparts'
    cases hparts'
    obtain ⟨hadmD, -, hadmB, -⟩ := Laws.Coding.operandsOk_iff.mp hops
    rw [hd] at hadmD
    rw [hb] at hadmB
    exact ⟨admits_scalar (.inl hadmD), admits_scalar (.inr hadmB)⟩
  · rw [hparts] at hnone
    cases hnone

end

section

variable {s : State} {o : Ops}

/-- The operand names a vector register or view (R80). -/
def namesV : Operand → Bool
  | .v _ => true
  | _ => false

theorem passes_of_not_v {x : Operand} (h : ∀ n, x ≠ .v n) : vBad s x = false ∧ namesV x = false := by
  cases x with
  | v n => exact absurd rfl (h n)
  | _ => exact ⟨rfl, rfl⟩

/-- Operands that name no vector register pass the checks of views at once (R80). -/
theorem onView_passes (hd : ∀ n, o.d ≠ .v n) (hb : ∀ n, o.b ≠ .v n) (k : Body) : onView o s k = k := by
  obtain ⟨hbadD, hnoD⟩ := passes_of_not_v (s := s) hd
  obtain ⟨hbadB, hnoB⟩ := passes_of_not_v (s := s) hb
  have hbad : ¬(vBad s o.d || vBad s o.b) = true := by rw [hbadD, hbadB]; exact Bool.false_ne_true
  have huses : ¬((namesV o.d || namesV o.b) && !enginesIdle s) = true := by rw [hnoD, hnoB]; exact Bool.false_ne_true
  exact (if_neg hbad).trans (if_neg huses)

/-- Resolving the address of an access reads its operands and no more (R184). -/
theorem target_reads (s : State) (o : Ops) (spc : Space) (scale len : Nat) (kind : AKind) (sync : Sync) (eng : Nat) :
    let u := (target s o spc scale len kind sync eng).2
    Changes s u [] [] ∧ CoresOnly s u ∧ ∀ n, o.a ≠ .q n → o.b ≠ .q n → qGet (curCore u) n = qGet (curCore s) n := by
  intro u
  have hu : u = (readSrc o.b s).2 ∨ u = (readSrc o.b (readSrc o.a s).2).2 := by
    simp only [u, target]
    split
    · exact .inl rfl
    · exact .inr rfl
  rcases hu with hu | hu <;> rw [hu]
  · exact ⟨changes_readSrc s o.b, coresOnly_readSrc s o.b, fun n _ hb => qGet_readSrcW_other s false false hb⟩
  · refine ⟨(changes_readSrc s o.a).trans (changes_readSrc _ o.b), (coresOnly_readSrc s o.a).trans (coresOnly_readSrc _ o.b), fun n ha hb => ?_⟩
    exact (qGet_readSrcW_other _ false false hb).trans (qGet_readSrcW_other s false false ha)

/-- An access that passes the checks of R185 passes them again. -/
theorem reChecks_none {t : Target} {align : Nat} (ph : Phase) (h : accChecks s t align = none) : reChecks ph s t align = none := by
  have hreach : reachCheck s t.x = none := by
    cases hr : reachCheck s t.x with
    | none => rfl
    | some e =>
      rw [accChecks] at h
      split at h
      · cases h
      · split at h
        · cases h
        · rw [hr] at h
          cases h
  rw [reChecks]
  split
  · rw [hreach, ite_self]
  · exact h

/-- A SYNC mode changes full/empty bits alone (R169). -/
theorem syncSet_eq (s : State) (y : Sync) (gs : List Nat) : ∃ f, syncSet s y gs = { s with fe := f } := by
  have fold : ∀ v, ∃ f, gs.foldl (fun t g => feSet t g v) s = { s with fe := f } := fun v => by
    refine List.foldlRecOn (motive := fun t : State => ∃ f, t = { s with fe := f }) _ _ ⟨s.fe, rfl⟩ ?_
    rintro _ ⟨f, rfl⟩ g _
    exact ⟨_, rfl⟩
  cases y with
  | take => exact fold false
  | put => exact fold true
  | fill => exact fold true
  | _ => exact ⟨s.fe, rfl⟩

/-- The state in which a load has resolved its address and noted the translations (R178, R184). -/
def loadReady (s : State) (o : Ops) (m : MemMod) (spc : Space) (n : Nat) (g : Target) : State :=
  noteAcc (target s o spc (2 ^ m.scale.toNat) n (syncKind true m.sync) m.sync (loadEng s false)).2 g.x

/-- The value of a scalar load from its bytes (R186). -/
def loadValue (m : MemMod) (bs : List Byte) : W64 := if m.sx then sextTo64 (8 * bs.length) (leNat bs) else leW64 bs

/-- The state in which a load outside regions has its value (R129, R169, R186). -/
def loadDone (s : State) (o : Ops) (m : MemMod) (spc : Space) (n : Nat) (g : Target) (ps : List (Nat × Nat)) : State :=
  if m.sync = .plain then writeDst o.d (loadValue m (foundBytes s m ps)) (loadReady s o m spc n g)
  else trioPred m.trio true (writeDst o.d (loadValue m (foundBytes s m ps)) (syncSet (loadReady s o m spc n g) m.sync (granules ps)))

/-- A load that gets to memory and has what it waits for has its value (R186). -/
theorem loadBody_found {m : MemMod} {spc : Space} {n align : Nat} {g : Target} {ps : List (Nat × Nat)} (hd : ∀ n, o.d ≠ .v n) (hb : ∀ n, o.b ≠ .v n)
    (hqueue : queueWait o false s = none) (hreach : Reaches s o m spc n align true false g ps) (hsync : SyncMet s m ps)
    (hgood : (granules ps).all (fun x => !isBad s x) = true) :
    loadBody o m spc n align false false .resume s = .fin (loadDone s o m spc n g ps) none := by
  obtain ⟨hrop, htarget, hchecks, hlocate, hregion⟩ := hreach
  have hlocate0 : locate s g.x 0 = .ok (.here ps) := hlocate
  unfold loadBody onReady
  rw [hqueue]
  dsimp only
  rw [onView_passes hd hb]
  simp only [hrop, htarget, reChecks_none .resume hchecks, hlocate0, hregion, Option.isSome_none, Bool.false_eq_true, if_false, badTrap_none hgood]
  by_cases hplain : m.sync = .plain
  · rw [SyncMet, if_pos hplain] at hsync
    rw [if_pos hplain, hsync, if_neg Bool.false_ne_true, loadDone, if_pos hplain, foundBytes, if_pos hplain]
    rfl
  · rw [SyncMet, if_neg hplain] at hsync
    obtain ⟨hvisible, hturn⟩ := hsync
    rw [if_neg hplain, hvisible, hturn, loadDone, if_neg hplain, foundBytes, if_neg hplain]
    rfl

/-- A load under SYNC whose condition is not met ends with its predicate false when its limit is due (R129). -/
theorem loadBody_late {m : MemMod} {spc : Space} {n align : Nat} {g : Target} {ps : List (Nat × Nat)} (hd : ∀ n, o.d ≠ .v n) (hb : ∀ n, o.b ≠ .v n)
    (hqueue : queueWait o false s = none) (hreach : Reaches s o m spc n align true false g ps) (hsynced : m.sync ≠ .plain) (hsync : ¬SyncMet s m ps)
    (htres : m.trio.tres = true) (hdue : limitDue s m.trio = true) :
    loadBody o m spc n align false false .timeout s = .fin (writeK s m.trio.pred false) none := by
  obtain ⟨hrop, htarget, hchecks, hlocate, hregion⟩ := hreach
  have hlocate0 : locate s g.x 0 = .ok (.here ps) := hlocate
  have hcond : (loadVisible s m.sync ps && syncTurn s m.sync (granules ps)) = false := by
    rw [SyncMet, if_neg hsynced] at hsync
    rw [Bool.and_eq_false_iff]
    by_cases hvisible : loadVisible s m.sync ps = true
    · exact .inr (by rw [← Bool.not_eq_true]; exact fun ht => hsync ⟨hvisible, ht⟩)
    · exact .inl (Bool.not_eq_true _ ▸ hvisible)
  unfold loadBody onReady
  rw [hqueue]
  dsimp only
  rw [onView_passes hd hb]
  simp only [hrop, htarget, reChecks_none .timeout hchecks, hlocate0, hregion, Option.isSome_none, Bool.false_eq_true, if_false, if_neg hsynced, hcond,
    timedWait, hdue, if_true, htres, id]

/-- What a load leaves: its value in its destination, memory as it was, and registers but for those that it names (R186). -/
theorem loadDone_result {m : MemMod} {spc : Space} {n : Nat} {g : Target} {ps : List (Nat × Nat)} (hne : ∀ q, o.d = .q q → o.a ≠ .q q ∧ o.b ≠ .q q) :
    Result s (loadDone s o m spc n g ps) o.d (loadValue m (foundBytes s m ps)) ∧ (loadDone s o m spc n g ps).mem = s.mem
      ∧ ∃ l p, Changes s (loadDone s o m spc n g ps) l p := by
  obtain ⟨hread, honly, hqueue⟩ := target_reads s o spc (2 ^ m.scale.toNat) n (syncKind true m.sync) m.sync (loadEng s false)
  obtain ⟨st, hnoted⟩ := noteAcc_eq (target s o spc (2 ^ m.scale.toNat) n (syncKind true m.sync) m.sync (loadEng s false)).2 g.x
  let u := loadReady s o m spc n g
  have hu : Changes s u [] [] ∧ u.mem = s.mem ∧ ∀ q, o.d = .q q → qGet (curCore u) q = qGet (curCore s) q := by
    have heq : u = { (target s o spc (2 ^ m.scale.toNat) n (syncKind true m.sync) m.sync (loadEng s false)).2 with stations := st } := hnoted
    rw [heq]
    refine ⟨hread.trans (Changes.of_cores rfl rfl), honly.mem, fun q hq => ?_⟩
    obtain ⟨ha, hb⟩ := hne q hq
    exact hqueue q ha hb
  obtain ⟨hready, hmem, hkept⟩ := hu
  let x := loadValue m (foundBytes s m ps)
  unfold loadDone
  split
  · obtain ⟨hresult, -⟩ := writeDst_result o.d x (Changes.refl u) rfl (fun _ _ => rfl)
    obtain ⟨hwrite, hwriteOnly⟩ := changes_writeDst u o.d x
    exact ⟨result_of_scalars (coreFrame_supNow hready.frame) hready.scalars hkept hresult, hwriteOnly.mem.trans hmem, _, _, hready.trans hwrite⟩
  · obtain ⟨f, hset⟩ := syncSet_eq u m.sync (granules ps)
    let v := syncSet u m.sync (granules ps)
    have hv : Changes u v [] [] ∧ v.mem = u.mem ∧ ∀ q, qGet (curCore v) q = qGet (curCore u) q := by
      have heq : v = { u with fe := f } := hset
      rw [heq]
      exact ⟨Changes.of_cores rfl rfl, rfl, fun _ => rfl⟩
    obtain ⟨hsync, hsyncMem, hsyncKept⟩ := hv
    have hbefore := hready.trans hsync
    obtain ⟨hresult, -⟩ := writeDst_result o.d x (Changes.refl v) rfl (fun _ _ => rfl)
    obtain ⟨hwrite, hwriteOnly⟩ := changes_writeDst v o.d x
    obtain ⟨hpred, hpredOnly, hpredQ, -⟩ := trioPred_regs m.trio (writeDst o.d x v)
    have hdone := result_of_scalars (coreFrame_supNow hbefore.frame) hbefore.scalars (fun q hq => (hsyncKept q).trans (hkept q hq)) hresult
    have hall := hbefore.trans hwrite
    refine ⟨?_, hpredOnly.mem.trans (hwriteOnly.mem.trans (hsyncMem.trans hmem)), _, _, hall.trans hpred⟩
    exact result_kept (coreFrame_supNow hall.frame) hpred.scalars hpredQ hdone

end

/- Loads that are held (R129, R186). -/

section

variable {s : State} {c : Nat} {pilot : Bool} {w : Wait} {o : Ops} {m : MemMod} {spc : Space} {g : Target} {ps : List (Nat × Nat)}

/-- A held load that has what it waits for goes on with its value (R186). -/
theorem heldLoad_found (hw : waitAt s c pilot = some w) (hmay : MayGoOn s c pilot w) (hwf : w.instr.wf = true)
    (hready : ready w.instr (asStream s c pilot) = true) (hload : scalarLoad w.instr = some (o, m, spc)) (hwhy : byCondition w = true)
    (hreach : Reaches (asStream s c pilot) o m spc (sizeBytes m.size) (sizeBytes m.size) true false g ps) (hsync : SyncMet (asStream s c pilot) m ps)
    (hgood : (granules ps).all (fun x => !isBad s x) = true) :
    let u := asStream s c pilot
    ∃ t : State, goMove s c pilot .resume (fun w => byCondition w && isLoad w.instr) = backTo s t
      ∧ Result u t o.d (loadValue m (foundBytes u m ps)) ∧ t.mem = s.mem ∧ GoesOnAt u t o := by
  intro u
  obtain ⟨mm, hm, rfl, hdRead, hbodyEq, hisLoad⟩ := scalarLoad_body hload
  obtain ⟨hissues, hqueue⟩ := (ready_iff hm).mp hready
  rw [hdRead] at hqueue
  obtain ⟨hd, hb⟩ := scalarLoad_operands hwf hload
  have hbody : mm.body .resume u = .fin (loadDone u mm.o m spc (sizeBytes m.size) g ps) none := by
    rw [hbodyEq]
    exact loadBody_found hd hb hqueue hreach hsync hgood
  obtain ⟨hresult, hmem, l, p, hchanges⟩ := loadDone_result (s := u) (o := mm.o) (m := m) (spc := spc) (n := sizeBytes m.size) (g := g) (ps := ps)
    (fun q hq => issues_queues hm hissues hdRead hq)
  have hkind : (byCondition w && isLoad w.instr) = true := by rw [hwhy, hisLoad]; rfl
  obtain ⟨hmove, hpass, hpc, hwait, hall, hsame, -⟩ := goMove_done (kind := fun w => byCondition w && isLoad w.instr) hw hmay hkind hm hissues hbody
    hchanges
  exact ⟨_, hmove, hsame.result (coreFrame_supNow hall.frame) (hpass.result (coreFrame_supNow hchanges.frame) hresult),
    (otherUnits_mem hsame.regs.units).trans (hpass.coresOnly.mem.trans hmem), hsame.goesOnAt ⟨hpc, hwait⟩⟩

/-- A held load whose limit is due ends with its predicate false (R129). -/
theorem heldLoad_late (hw : waitAt s c pilot = some w) (hmay : MayGoOn s c pilot w) (hwf : w.instr.wf = true)
    (hready : ready w.instr (asStream s c pilot) = true) (hload : scalarLoad w.instr = some (o, m, spc)) (hwhy : w.why = .timed)
    (hsynced : m.sync ≠ .plain) (htres : m.trio.tres = true)
    (hreach : Reaches (asStream s c pilot) o m spc (sizeBytes m.size) (sizeBytes m.size) true false g ps) (hsync : ¬SyncMet (asStream s c pilot) m ps)
    (hdue : limitDue (asStream s c pilot) m.trio = true) :
    let u := asStream s c pilot
    ∃ t : State, goMove s c pilot .timeout (fun w => decide (w.why = .timed)) = backTo s t ∧ PredResult u t (.k m.trio.pred) false
      ∧ ScalarsBut u t [] ∧ GoesOnAt u t o ∧ Frame u t := by
  intro u
  obtain ⟨mm, hm, rfl, hdRead, hbodyEq, -⟩ := scalarLoad_body hload
  obtain ⟨hissues, hqueue⟩ := (ready_iff hm).mp hready
  rw [hdRead] at hqueue
  obtain ⟨hd, hb⟩ := scalarLoad_operands hwf hload
  have hbody : mm.body .timeout u = .fin (writeK u m.trio.pred false) none := by
    rw [hbodyEq]
    exact loadBody_late hd hb hqueue hreach hsynced hsync htres hdue
  have hissued : hasIssued w = true := by rw [hasIssued, hwhy]
  have hwrite := changes_writeK u m.trio.pred false
  obtain ⟨hmove, hpass, hpc, hwait, hall, hsame, hcore, -⟩ := goMove_done (kind := fun w => decide (w.why = .timed)) hw hmay (decide_eq_true hwhy) hm
    hissues hbody hwrite
  have hs := scalarsBut_trans (coreFrame_supNow hall.frame) hall.scalars hsame.regs.scalars
  exact ⟨_, hmove, hsame.predResult (hpass.predResult (predResult_writeK u m.trio.pred false)), hs, hsame.goesOnAt ⟨hpc, hwait⟩,
    hsame.frame (hcore hissued) (frame_of_coreFrame hall.frame ((coresOnly_writeK u m.trio.pred false).trans hpass.coresOnly))⟩

end

end Sys2Proof.Machine

section

open Sys2Proof.Machine Sys2Proof.Claims

/-- Settles O51: each move runs the word at which its stream is held once more, and that word is done. -/
theorem heldStreams : Obligations.HeldStreams := by
  unfold Obligations.HeldStreams
  intro s c pilot w hc hw u hwf hready hmay
  have hunit : ¬1024 ≤ c := Nat.not_le.mpr hc
  refine ⟨fun o hcount hwhy => ?_, fun o zx wd f htwo hwhy hissued => ?_, fun o m spc g ps hload hwhy _ hreach hsync hgood => ?_,
    fun o m spc g ps hload hwhy hsynced htres hreach hsync hdue => ?_, fun o hi hwhy hdue => ?_,
    fun o d x p hi hwhy hdue hpeers hx hxi hheld hxready => ?_⟩
  · obtain ⟨t, hmove, hrest⟩ := countPassed hw hmay hready hcount hwhy
    exact ⟨t, (if_neg hunit).trans (congrArg Host.Outcome.next hmove), hrest⟩
  · obtain ⟨t, hexec, hmove, hrest⟩ := twoSource_goesOn hw hmay hready htwo hwhy hissued
    exact ⟨t, hexec, (if_neg hunit).trans (congrArg Host.Outcome.next hmove), hrest⟩
  · obtain ⟨t, hmove, hrest⟩ := heldLoad_found hw hmay hwf hready hload hwhy hreach hsync hgood
    exact ⟨t, (if_neg hunit).trans (congrArg Host.Outcome.next hmove), hrest⟩
  · obtain ⟨t, hmove, hrest⟩ := heldLoad_late hw hmay hwf hready hload hwhy hsynced htres hreach hsync hdue
    exact ⟨t, (if_neg hunit).trans (congrArg Host.Outcome.next hmove), hrest⟩
  · obtain ⟨t, hrelease, hrest⟩ := realignPassed hw hi hready hwhy hdue
    exact ⟨t, (if_neg hunit).trans (congrArg Host.Outcome.next hrelease), hrest⟩
  · obtain ⟨t, hrelease, hrest⟩ := realigned hw hi hready hwhy hdue hpeers hx hxi hheld hxready
    exact ⟨t, (if_neg hunit).trans (congrArg Host.Outcome.next hrelease), hrest⟩

end
